-- ==== Sys2Proof/Word.lean ====
section
/-!
DEFINITION. The word types of the machine and their plainest arithmetic (R3, R13).
-/

namespace Sys2Proof

/-- A scalar register (R13). -/
abbrev Word := BitVec 64

/-- The smallest addressable unit of memory (R3). -/
abbrev Byte := BitVec 8

/-- A tile row, an accumulator row or a scale buffer: 2,048 bits (R13). -/
abbrev Row := BitVec 2048

/-- A 512-bit structure: bind record, descriptor, trap record, journal entry (R37, R39, R345). -/
abbrev Rec := BitVec 512

end Sys2Proof
end

