-- ==== Sys2Proof/Syntax.lean ====
section
/-!
DEFINITION. The instruction set as data: operand fields, slot formats, the 241 slot operations of the opcode table and the
99 steps of the device that the same table lists (R160 to R182, spec/opcode_table.json).
-/

namespace Sys2Proof

/-- A packet that comes over a lanyard link from the peer device (R121, R123): its header's fields, route and return words, and what its payload holds. One of
kind 0 or 1 is a request for device memory at an address, whose route the port builds. -/
structure Inbound where
  kind : Nat
  route : List Word
  ret : List Word
  consumed : Nat
  lastRank : Nat
  lane : Nat
  fault : Nat
  faultHop : Nat
  tag : Nat
  scope : Nat
  cls : Nat
  world : Nat
  src : Nat
  dest : Nat
  addr : Nat
  len : Nat
  data : List (BitVec 8)
  strand : Nat
  counter : Nat
  channel : Nat
  op : Nat
  deriving DecidableEq, Repr

/-- What arrives at a node: packet n of those in flight, or a request of a peer at lanyard port n (R119, R121). -/
inductive NodeArrival where
  | held (n : Nat)
  | inbound (n : Nat) (q : Inbound)
  deriving DecidableEq, Repr

/-- The two scalar slots (R160): slot 1 is A, slot 2 is B. -/
inductive ScalarSlot where
  | A
  | B
  deriving DecidableEq, Repr

/-- The number of a scalar slot. -/
def ScalarSlot.num : ScalarSlot → Nat
  | .A => 1
  | .B => 2

/-- An operand field (R168). -/
inductive Operand where
  /-- 0 to 47 name s0 to s47, 48 to 63 name o0 to o15. -/
  | reg (i : BitVec 6)
  /-- The bypass latch of a slot 1 to 7. -/
  | latch (k : BitVec 3)
  | imm (v : BitVec 6)
  | zero
  | one
  /-- Loop index n0 to n5. -/
  | loopIdx (i : BitVec 3)
  | unitIdx
  | strandId
  | braidId
  | worldTag
  deriving DecidableEq, Repr

/-- The fields that this hardware's operand encoding leaves legal (R168). -/
def Operand.wf : Operand → Bool
  | .latch k => k != 0
  | .loopIdx i => i.toNat < 6
  | _ => true

/-- The eight bits of an operand field (R168). -/
def Operand.toBits : Operand → Nat
  | .reg i => i.toNat
  | .latch k => 64 + k.toNat
  | .imm v => 128 + v.toNat
  | .zero => 192
  | .one => 193
  | .loopIdx i => 194 + i.toNat
  | .unitIdx => 200
  | .strandId => 201
  | .braidId => 202
  | .worldTag => 203

/-- An operand field read from its eight bits; none where the field is illegal (R168). -/
def Operand.ofBits (v : Nat) : Option Operand :=
  if v < 64 then some (.reg (BitVec.ofNat 6 v))
  else if v < 128 then
    if 64 < v ∧ v < 72 then some (.latch (BitVec.ofNat 3 (v - 64))) else none
  else if v < 192 then some (.imm (BitVec.ofNat 6 (v - 128)))
  else if v = 192 then some .zero
  else if v = 193 then some .one
  else if v < 200 then some (.loopIdx (BitVec.ofNat 3 (v - 194)))
  else if v = 200 then some .unitIdx
  else if v = 201 then some .strandId
  else if v = 202 then some .braidId
  else if v = 203 then some .worldTag
  else none

/-- Slot C operation with a zero operand field (format CT, R163). -/
structure FmtCZ where
  pred : BitVec 3
  deriving DecidableEq, Repr

/-- Format CB (R163): a signed 15-bit offset. -/
structure FmtCB where
  pred : BitVec 3
  off : BitVec 15
  deriving DecidableEq, Repr

/-- Long-form transfer of slot C (R163, R165): a signed 32-bit offset. -/
structure FmtCL where
  pred : BitVec 3
  lng : BitVec 32
  deriving DecidableEq, Repr

/-- Format CO (R163): a target operand. -/
structure FmtCO where
  pred : BitVec 3
  tgt : Operand
  deriving DecidableEq, Repr

/-- Format CL of LOOP and LOOPR (R163): count operand and body length. -/
structure FmtCR where
  pred : BitVec 3
  cnt : Operand
  len : BitVec 7
  deriving DecidableEq, Repr

/-- LOOP.L (R163, R223): body length and a long count. -/
structure FmtCRL where
  pred : BitVec 3
  len : BitVec 7
  lng : BitVec 32
  deriving DecidableEq, Repr

/-- Format CT with a 15-bit code or live-map index (R163). -/
structure FmtCX where
  pred : BitVec 3
  code : BitVec 15
  deriving DecidableEq, Repr

/-- Barrier operations (R233). -/
structure FmtCBar where
  pred : BitVec 3
  bar : BitVec 3
  deriving DecidableEq, Repr

/-- R format with an optional long immediate in place of SRC2 (R165, R174). -/
structure FmtAR where
  sl : ScalarSlot
  pred : BitVec 3
  ws : Bool
  dst : BitVec 6
  a : Operand
  b : Operand
  lng : Option (BitVec 32)
  deriving DecidableEq, Repr

/-- R format without a long immediate (R165, R174). -/
structure FmtAX where
  sl : ScalarSlot
  pred : BitVec 3
  ws : Bool
  dst : BitVec 6
  a : Operand
  b : Operand
  deriving DecidableEq, Repr

/-- I format with an optional long immediate in place of imm8 (R165, R174). -/
structure FmtAI where
  sl : ScalarSlot
  pred : BitVec 3
  ws : Bool
  dst : BitVec 6
  a : Operand
  imm : BitVec 8
  lng : Option (BitVec 32)
  deriving DecidableEq, Repr

/-- Shift by an immediate: imm8[7:6] is zero (R235). -/
structure FmtAS where
  sl : ScalarSlot
  pred : BitVec 3
  ws : Bool
  dst : BitVec 6
  a : Operand
  n : BitVec 6
  deriving DecidableEq, Repr

/-- One-operand R format, SRC2 zero (R235). -/
structure FmtAU where
  sl : ScalarSlot
  pred : BitVec 3
  ws : Bool
  dst : BitVec 6
  a : Operand
  deriving DecidableEq, Repr

/-- Compare format with SRC2 (R174). -/
structure FmtAC where
  sl : ScalarSlot
  pred : BitVec 3
  ws : Bool
  cond : BitVec 3
  pd : BitVec 3
  a : Operand
  b : Operand
  lng : Option (BitVec 32)
  deriving DecidableEq, Repr

/-- Compare format with imm8 (R174). -/
structure FmtACI where
  sl : ScalarSlot
  pred : BitVec 3
  ws : Bool
  cond : BitVec 3
  pd : BitVec 3
  a : Operand
  imm : BitVec 8
  lng : Option (BitVec 32)
  deriving DecidableEq, Repr

/-- MOVL and MOVH (R240). -/
structure FmtAL where
  sl : ScalarSlot
  pred : BitVec 3
  ws : Bool
  dst : BitVec 6
  lng : BitVec 32
  deriving DecidableEq, Repr

/-- FCVT (R243). -/
structure FmtAV where
  sl : ScalarSlot
  pred : BitVec 3
  ws : Bool
  dst : BitVec 6
  a : Operand
  cvTo : BitVec 4
  cvFrom : BitVec 4
  deriving DecidableEq, Repr

/-- KW (R244). -/
structure FmtBKw where
  pred : BitVec 3
  ws : Bool
  k : BitVec 4
  b : Operand
  lng : Option (BitVec 32)
  deriving DecidableEq, Repr

/-- KR (R244). -/
structure FmtBKr where
  pred : BitVec 3
  ws : Bool
  dst : BitVec 6
  k : BitVec 4
  deriving DecidableEq, Repr

/-- GSR (R245). -/
structure FmtBG where
  pred : BitVec 3
  ws : Bool
  dst : BitVec 6
  num : BitVec 8
  deriving DecidableEq, Repr

/-- SSR (R245): bit 22 is zero. -/
structure FmtBS where
  pred : BitVec 3
  num : BitVec 8
  b : Operand
  deriving DecidableEq, Repr

/-- Predicate logic of two sources (R247). -/
structure FmtBP2 where
  pred : BitVec 3
  ws : Bool
  pd : BitVec 3
  pa : BitVec 3
  pb : BitVec 3
  deriving DecidableEq, Repr

/-- PNOT (R247). -/
structure FmtBP1 where
  pred : BitVec 3
  ws : Bool
  pd : BitVec 3
  pa : BitVec 3
  deriving DecidableEq, Repr

/-- PGET and RDCYC (R248, R249). -/
structure FmtBD where
  pred : BitVec 3
  ws : Bool
  dst : BitVec 6
  deriving DecidableEq, Repr

/-- PSET (R248). -/
structure FmtBPs where
  pred : BitVec 3
  ws : Bool
  msk : BitVec 8
  b : Operand
  deriving DecidableEq, Repr

/-- PARAM (R250). -/
structure FmtBPm where
  pred : BitVec 3
  ws : Bool
  dst : BitVec 6
  a : Operand
  deriving DecidableEq, Repr

/-- Format L (R176). -/
structure FmtML where
  pred : BitVec 3
  cls : BitVec 4
  dst : BitVec 6
  base : Operand
  off : BitVec 6
  lng : Option (BitVec 32)
  deriving DecidableEq, Repr

/-- PREF: format L with DST zero (R176, R259). -/
structure FmtMP where
  pred : BitVec 3
  cls : BitVec 4
  base : Operand
  off : BitVec 6
  lng : Option (BitVec 32)
  deriving DecidableEq, Repr

/-- Format S (R176). -/
structure FmtMS where
  pred : BitVec 3
  cls : BitVec 4
  data : Operand
  base : Operand
  off : BitVec 4
  lng : Option (BitVec 32)
  deriving DecidableEq, Repr

/-- Format T (R176). -/
structure FmtMT where
  pred : BitVec 3
  cls : BitVec 4
  tile : BitVec 4
  row : BitVec 5
  base : Operand
  off : BitVec 3
  lng : Option (BitVec 32)
  deriving DecidableEq, Repr

/-- Format A (R176, R258). -/
structure FmtMA where
  pred : BitVec 3
  cls : BitVec 4
  dst : BitVec 6
  base : Operand
  data : BitVec 6
  deriving DecidableEq, Repr

/-- FENCE.C (R260). -/
structure FmtMFc where
  pred : BitVec 3
  msk : BitVec 16
  deriving DecidableEq, Repr

/-- FENCE.X (R260). -/
structure FmtMFx where
  pred : BitVec 3
  paths : BitVec 6
  deriving DecidableEq, Repr

/-- FENCE.E (R260). -/
structure FmtMZ where
  pred : BitVec 3
  deriving DecidableEq, Repr

/-- ILOCK (R260, R261). -/
structure FmtMIl where
  pred : BitVec 3
  dst : BitVec 6
  a : Operand
  n : Operand
  deriving DecidableEq, Repr

/-- IUNLK (R260, R262). -/
structure FmtMIu where
  pred : BitVec 3
  a : Operand
  n : Operand
  deriving DecidableEq, Repr

/-- SLAB (R260, R264). -/
structure FmtMSl where
  pred : BitVec 3
  dst : BitVec 6
  x : Operand
  deriving DecidableEq, Repr

/-- Slot V layout (R177). -/
structure FmtV where
  pred : BitVec 3
  row : BitVec 5
  td : BitVec 4
  ta : BitVec 4
  tb : BitVec 4
  ty : BitVec 3
  msk : BitVec 2
  deriving DecidableEq, Repr

/-- VSPLAT (R177, R304). -/
structure FmtVS where
  pred : BitVec 3
  row : BitVec 5
  td : BitVec 4
  tb : BitVec 4
  ty : BitVec 3
  msk : BitVec 2
  lng : Option (BitVec 32)
  deriving DecidableEq, Repr

/-- VSHUF and VPATLD: [5:0] is a pattern index (R177, R313). -/
structure FmtVF where
  pred : BitVec 3
  row : BitVec 5
  td : BitVec 4
  ta : BitVec 4
  tb : BitVec 4
  idx : BitVec 6
  deriving DecidableEq, Repr

/-- MLEASE (R178). -/
structure FmtXL where
  pred : BitVec 3
  n : BitVec 6
  deriving DecidableEq, Repr

/-- MREL and MKZ.ALL (R178). -/
structure FmtXZ where
  pred : BitVec 3
  deriving DecidableEq, Repr

/-- MLDS (R178, R324). -/
structure FmtXD where
  pred : BitVec 3
  off : Operand
  key : BitVec 5
  fb : BitVec 3
  sb : BitVec 1
  deriving DecidableEq, Repr

/-- MMA (R178, R326). -/
structure FmtXM where
  pred : BitVec 3
  ta : BitVec 4
  g : BitVec 1
  sb : BitVec 1
  fa : BitVec 3
  za : BitVec 2
  deriving DecidableEq, Repr

/-- MACR and MACW (R178, R329). -/
structure FmtXR where
  pred : BitVec 3
  bank : BitVec 3
  brow : BitVec 4
  tile : BitVec 4
  trow : BitVec 4
  ty : BitVec 3
  deriving DecidableEq, Repr

/-- MACZ (R178). -/
structure FmtXB where
  pred : BitVec 3
  bank : BitVec 3
  deriving DecidableEq, Repr

/-- MKZ of one slot (R178). -/
structure FmtXK where
  pred : BitVec 3
  key : BitVec 5
  deriving DecidableEq, Repr

/-- MCNT (R178, R333). -/
structure FmtXC where
  pred : BitVec 3
  dst : BitVec 6
  reg : Operand
  deriving DecidableEq, Repr

/-- MSTAT (R178). -/
structure FmtXS where
  pred : BitVec 3
  dst : BitVec 6
  bank : BitVec 3
  deriving DecidableEq, Repr

/-- Slot E layout (R180). -/
structure FmtE where
  pred : BitVec 3
  cls : BitVec 4
  evt : BitVec 4
  kb : BitVec 4
  flags : BitVec 11
  deriving DecidableEq, Repr

/-- SCOPE (R181): no predicate. -/
structure FmtFS where
  scope : BitVec 3
  deriving DecidableEq, Repr

/-- SCLD (R181). -/
structure FmtFL where
  pred : BitVec 3
  z : BitVec 2
  base : Operand
  cls : BitVec 4
  deriving DecidableEq, Repr

/-- FMTW (R181). -/
structure FmtFW where
  pred : BitVec 3
  f : BitVec 3
  a : Operand
  deriving DecidableEq, Repr

/-- FMTR (R181). -/
structure FmtFR where
  pred : BitVec 3
  f : BitVec 3
  dst : BitVec 6
  deriving DecidableEq, Repr

/-- FBX (R181). -/
structure FmtFB where
  pred : BitVec 3
  row : BitVec 5
  td : BitVec 4
  ta : BitVec 4
  id : BitVec 6
  deriving DecidableEq, Repr

/-- Special functions (R181). -/
structure FmtFF where
  pred : BitVec 3
  row : BitVec 5
  td : BitVec 4
  ta : BitVec 4
  deriving DecidableEq, Repr

/-- TTRD (R181). -/
structure FmtFT where
  pred : BitVec 3
  dst : BitVec 6
  a : Operand
  deriving DecidableEq, Repr

/-- HINT (R181). -/
structure FmtFH where
  pred : BitVec 3
  pay : BitVec 24
  deriving DecidableEq, Repr

/-- SEEDW (R181). -/
structure FmtFD where
  pred : BitVec 3
  a : Operand
  deriving DecidableEq, Repr

/-- FLAGS[10:3] of a slot E word: the value operand of EWAIT and ESET (R285), the entry index of RTSET (R291). -/
def FmtE.val (f : FmtE) : Nat := f.flags.toNat / 8

/-- FLAGS[10:5] of a slot E word: the DST of token operations, EVR and VFCNT (R276, R284, R285). -/
def FmtE.dst (f : FmtE) : BitVec 6 := BitVec.ofNat 6 (f.flags.toNat / 32)

/-- FLAGS[6:2] of VFPUSH and VFPOP: the ROW field (R284). -/
def FmtE.vrow (f : FmtE) : BitVec 5 := BitVec.ofNat 5 (f.flags.toNat / 4)

/-- FLAGS[10:7] of VFPUSH and VFPOP: the tile (R284). -/
def FmtE.vtile (f : FmtE) : BitVec 4 := BitVec.ofNat 4 (f.flags.toNat / 128)

/-- One node of a submitted graph (R33, R51): a launch or a decision node, by indices into the submitted list. -/
structure GraphNode where
  decision : Bool
  /-- Predecessors among the submitted nodes. -/
  preds : List Nat
  /-- Decision node: its deciding launch and its two arms. -/
  link : Nat
  arm0 : Nat
  arm1 : Nat
  /-- Launch: its number of units. -/
  count : Nat
  deriving DecidableEq, Repr

/-- One constructor for each row of spec/opcode_table.json: first the slot operations in the order of the table, then the
steps of the device, whose operands the table leaves to the model (log 5). -/
inductive Instr where
  /-- NOP.C (R162). -/
  | nopC
  /-- BR (R216). -/
  | br (f : FmtCB)
  /-- BRN (R216). -/
  | brn (f : FmtCB)
  /-- BR.L (R216). -/
  | brL (f : FmtCL)
  /-- BRI (R216). -/
  | bri (f : FmtCO)
  /-- CALL (R218). -/
  | call (f : FmtCB)
  /-- CALL.L (R218). -/
  | callL (f : FmtCL)
  /-- CALLI (R218). -/
  | calli (f : FmtCO)
  /-- RET (R219). -/
  | ret (f : FmtCZ)
  /-- LOOP (R223). -/
  | loop (f : FmtCR)
  /-- LOOPR (R223). -/
  | loopr (f : FmtCR)
  /-- LOOP.L (R223). -/
  | loopL (f : FmtCRL)
  /-- LEAVE (R225). -/
  | leave (f : FmtCZ)
  /-- SAFE (R227). -/
  | safe (f : FmtCX)
  /-- YIELD (R228). -/
  | yield (f : FmtCZ)
  /-- HALT (R229). -/
  | halt (f : FmtCZ)
  /-- TRAP (R230). -/
  | trap (f : FmtCX)
  /-- BRK (R230). -/
  | brk (f : FmtCX)
  /-- BAR.ARR (R233). -/
  | barArr (f : FmtCBar)
  /-- BAR.WAIT (R233). -/
  | barWait (f : FmtCBar)
  /-- BAR.SYNC (R233). -/
  | barSync (f : FmtCBar)
  /-- ERET (R232). -/
  | eret (f : FmtCZ)
  /-- NOP (R162). -/
  | nop (sl : ScalarSlot)
  /-- ADD (R235). -/
  | add (f : FmtAR)
  /-- ADDI (R235). -/
  | addi (f : FmtAI)
  /-- SUB (R235). -/
  | sub (f : FmtAR)
  /-- MUL (R235). -/
  | mul (f : FmtAR)
  /-- MULH.i (R235). -/
  | mulhI (f : FmtAR)
  /-- MULH.w (R235). -/
  | mulhW (f : FmtAR)
  /-- DIV.i (R236). -/
  | divI (f : FmtAR)
  /-- DIV.w (R236). -/
  | divW (f : FmtAR)
  /-- REM.i (R236). -/
  | remI (f : FmtAR)
  /-- REM.w (R236). -/
  | remW (f : FmtAR)
  /-- AND (R235). -/
  | and (f : FmtAR)
  /-- OR (R235). -/
  | or (f : FmtAR)
  /-- XOR (R235). -/
  | xor (f : FmtAR)
  /-- ANDN (R235). -/
  | andn (f : FmtAR)
  /-- ANDI (R235). -/
  | andi (f : FmtAI)
  /-- ORI (R235). -/
  | ori (f : FmtAI)
  /-- XORI (R235). -/
  | xori (f : FmtAI)
  /-- SHL (R235). -/
  | shl (f : FmtAX)
  /-- SHR (R235). -/
  | shr (f : FmtAX)
  /-- SAR (R235). -/
  | sar (f : FmtAX)
  /-- ROL (R235). -/
  | rol (f : FmtAX)
  /-- SHLI (R235). -/
  | shli (f : FmtAS)
  /-- SHRI (R235). -/
  | shri (f : FmtAS)
  /-- SARI (R235). -/
  | sari (f : FmtAS)
  /-- CLZ (R235). -/
  | clz (f : FmtAU)
  /-- CTZ (R235). -/
  | ctz (f : FmtAU)
  /-- POPC (R235). -/
  | popc (f : FmtAU)
  /-- MIN.i (R235). -/
  | minI (f : FmtAR)
  /-- MAX.i (R235). -/
  | maxI (f : FmtAR)
  /-- MIN.w (R235). -/
  | minW (f : FmtAR)
  /-- MAX.w (R235). -/
  | maxW (f : FmtAR)
  /-- CMP.cc (R237). -/
  | cmp (f : FmtAC)
  /-- CMPI.cc (R237). -/
  | cmpi (f : FmtACI)
  /-- SEL (R238). -/
  | sel (f : FmtAR)
  /-- EXT.i (R239). -/
  | extI (f : FmtAX)
  /-- EXT.w (R239). -/
  | extW (f : FmtAX)
  /-- INS (R239). -/
  | ins (f : FmtAX)
  /-- MOVL (R240). -/
  | movl (f : FmtAL)
  /-- MOVH (R240). -/
  | movh (f : FmtAL)
  /-- FADD.f32 (R241). -/
  | fadd (f : FmtAR)
  /-- FSUB.f32 (R241). -/
  | fsub (f : FmtAR)
  /-- FMUL.f32 (R241). -/
  | fmul (f : FmtAR)
  /-- FMAC.f32 (R241). -/
  | fmac (f : FmtAR)
  /-- FMIN.f32 (R241). -/
  | fmin (f : FmtAR)
  /-- FMAX.f32 (R241). -/
  | fmax (f : FmtAR)
  /-- FCMP.cc (R242). -/
  | fcmp (f : FmtAC)
  /-- FCVT (R243). -/
  | fcvt (f : FmtAV)
  /-- KW (R244). -/
  | kw (f : FmtBKw)
  /-- KR (R244). -/
  | kr (f : FmtBKr)
  /-- GSR (R245). -/
  | gsr (f : FmtBG)
  /-- SSR (R245). -/
  | ssr (f : FmtBS)
  /-- PAND (R247). -/
  | pand (f : FmtBP2)
  /-- POR (R247). -/
  | por (f : FmtBP2)
  /-- PXOR (R247). -/
  | pxor (f : FmtBP2)
  /-- PNOT (R247). -/
  | pnot (f : FmtBP1)
  /-- PGET (R248). -/
  | pget (f : FmtBD)
  /-- PSET (R248). -/
  | pset (f : FmtBPs)
  /-- RDCYC (R249). -/
  | rdcyc (f : FmtBD)
  /-- PARAM (R250). -/
  | param (f : FmtBPm)
  /-- NOP.M (R162). -/
  | nopM
  /-- LD.i8 (R254). -/
  | ldI8 (f : FmtML)
  /-- LD.w8 (R254). -/
  | ldW8 (f : FmtML)
  /-- LD.i16 (R254). -/
  | ldI16 (f : FmtML)
  /-- LD.w16 (R254). -/
  | ldW16 (f : FmtML)
  /-- LD.i32 (R254). -/
  | ldI32 (f : FmtML)
  /-- LD.w32 (R254). -/
  | ldW32 (f : FmtML)
  /-- LD.64 (R254). -/
  | ld64 (f : FmtML)
  /-- ST.8 (R255). -/
  | st8 (f : FmtMS)
  /-- ST.16 (R255). -/
  | st16 (f : FmtMS)
  /-- ST.32 (R255). -/
  | st32 (f : FmtMS)
  /-- ST.64 (R255). -/
  | st64 (f : FmtMS)
  /-- LDT (R256). -/
  | ldt (f : FmtMT)
  /-- STT (R256). -/
  | stt (f : FmtMT)
  /-- LDTF (R257). -/
  | ldtf (f : FmtMT)
  /-- STTF (R257). -/
  | sttf (f : FmtMT)
  /-- AMO.ADD (R258). -/
  | amoAdd (f : FmtMA)
  /-- AMO.MIN.i (R258). -/
  | amoMinI (f : FmtMA)
  /-- AMO.MAX.i (R258). -/
  | amoMaxI (f : FmtMA)
  /-- AMO.AND (R258). -/
  | amoAnd (f : FmtMA)
  /-- AMO.OR (R258). -/
  | amoOr (f : FmtMA)
  /-- AMO.XOR (R258). -/
  | amoXor (f : FmtMA)
  /-- AMO.SWP (R258). -/
  | amoSwp (f : FmtMA)
  /-- AMO.CAS (R258). -/
  | amoCas (f : FmtMA)
  /-- AMO.FADD (R258). -/
  | amoFadd (f : FmtMA)
  /-- PREF (R259). -/
  | pref (f : FmtMP)
  /-- FENCE.C (R260). -/
  | fenceC (f : FmtMFc)
  /-- FENCE.X (R260). -/
  | fenceX (f : FmtMFx)
  /-- FENCE.E (R260). -/
  | fenceE (f : FmtMZ)
  /-- ILOCK (R261). -/
  | ilock (f : FmtMIl)
  /-- IUNLK (R262). -/
  | iunlk (f : FmtMIu)
  /-- SLAB.DEF (R264). -/
  | slabDef (f : FmtMSl)
  /-- SLAB.REL (R264). -/
  | slabRel (f : FmtMSl)
  /-- SLAB.QRY (R264). -/
  | slabQry (f : FmtMSl)
  /-- SLAB.RDY (R264). -/
  | slabRdy (f : FmtMSl)
  /-- SLAB.EMP (R264). -/
  | slabEmp (f : FmtMSl)
  /-- NOP.V (R162). -/
  | nopV
  /-- VADD (R296). -/
  | vadd (f : FmtV)
  /-- VSUB (R296). -/
  | vsub (f : FmtV)
  /-- VMUL (R296). -/
  | vmul (f : FmtV)
  /-- VFMA (R296). -/
  | vfma (f : FmtV)
  /-- VFMS (R296). -/
  | vfms (f : FmtV)
  /-- VMIN (R296). -/
  | vmin (f : FmtV)
  /-- VMAX (R296). -/
  | vmax (f : FmtV)
  /-- VABS (R296). -/
  | vabs (f : FmtV)
  /-- VNEG (R296). -/
  | vneg (f : FmtV)
  /-- VAND (R297). -/
  | vand (f : FmtV)
  /-- VOR (R297). -/
  | vor (f : FmtV)
  /-- VXOR (R297). -/
  | vxor (f : FmtV)
  /-- VSHL (R297). -/
  | vshl (f : FmtV)
  /-- VSHR (R297). -/
  | vshr (f : FmtV)
  /-- VSAR (R297). -/
  | vsar (f : FmtV)
  /-- VCMPEQ (R298). -/
  | vcmpeq (f : FmtV)
  /-- VCMPNE (R298). -/
  | vcmpne (f : FmtV)
  /-- VCMPLT (R298). -/
  | vcmplt (f : FmtV)
  /-- VCMPLE (R298). -/
  | vcmple (f : FmtV)
  /-- VSEL (R299). -/
  | vsel (f : FmtV)
  /-- VCVT (R306). -/
  | vcvt (f : FmtV)
  /-- VCVTN (R307). -/
  | vcvtn (f : FmtV)
  /-- VCVTW (R308). -/
  | vcvtw (f : FmtV)
  /-- VROTR (R309). -/
  | vrotr (f : FmtV)
  /-- VROTC (R309). -/
  | vrotc (f : FmtV)
  /-- VBCR (R310). -/
  | vbcr (f : FmtV)
  /-- VBCC (R310). -/
  | vbcc (f : FmtV)
  /-- VREDR.ADD (R311). -/
  | vredrAdd (f : FmtV)
  /-- VREDR.MAX (R311). -/
  | vredrMax (f : FmtV)
  /-- VREDR.MIN (R311). -/
  | vredrMin (f : FmtV)
  /-- VREDC.ADD (R311). -/
  | vredcAdd (f : FmtV)
  /-- VREDC.MAX (R311). -/
  | vredcMax (f : FmtV)
  /-- VREDC.MIN (R311). -/
  | vredcMin (f : FmtV)
  /-- VSHUF (R314). -/
  | vshuf (f : FmtVF)
  /-- VPATLD (R313). -/
  | vpatld (f : FmtVF)
  /-- VPATSW (R313). -/
  | vpatsw (f : FmtV)
  /-- VPART (R315). -/
  | vpart (f : FmtV)
  /-- VGATH (R316). -/
  | vgath (f : FmtV)
  /-- VSCAT (R316). -/
  | vscat (f : FmtV)
  /-- VMOV (R302). -/
  | vmov (f : FmtV)
  /-- VMOV (R303). -/
  | vmovPop (f : FmtV)
  /-- VMOV (R303). -/
  | vmovPush (f : FmtV)
  /-- VSPLAT (R304). -/
  | vsplat (f : FmtVS)
  /-- VIOTA (R305). -/
  | viota (f : FmtV)
  /-- VMSK.AND (R300). -/
  | vmskAnd (f : FmtV)
  /-- VMSK.OR (R300). -/
  | vmskOr (f : FmtV)
  /-- VMSK.XOR (R300). -/
  | vmskXor (f : FmtV)
  /-- VMSK.ANDN (R300). -/
  | vmskAndn (f : FmtV)
  /-- VMSK.COPY (R300). -/
  | vmskCopy (f : FmtV)
  /-- VMSK.NOT (R300). -/
  | vmskNot (f : FmtV)
  /-- VMSK.FIRST (R300). -/
  | vmskFirst (f : FmtV)
  /-- VMCNT (R301). -/
  | vmcnt (f : FmtV)
  /-- VACC (R317). -/
  | vacc (f : FmtV)
  /-- VFREE (R318). -/
  | vfree (f : FmtV)
  /-- NOP.X (R162). -/
  | nopX
  /-- MLEASE (R323). -/
  | mlease (f : FmtXL)
  /-- MREL (R323). -/
  | mrel (f : FmtXZ)
  /-- MLDS (R324). -/
  | mlds (f : FmtXD)
  /-- MMA (R326). -/
  | mma (f : FmtXM)
  /-- MMA.ACC (R326). -/
  | mmaAcc (f : FmtXM)
  /-- MACR (R329). -/
  | macr (f : FmtXR)
  /-- MACW (R329). -/
  | macw (f : FmtXR)
  /-- MACZ (R330). -/
  | macz (f : FmtXB)
  /-- MKZ (R332). -/
  | mkz (f : FmtXK)
  /-- MKZ.ALL (R332). -/
  | mkzAll (f : FmtXZ)
  /-- MCNT.LOADS (R333). -/
  | mcntLoads (f : FmtXC)
  /-- MCNT.STEPS (R333). -/
  | mcntSteps (f : FmtXC)
  /-- MSTAT (R331). -/
  | mstat (f : FmtXS)
  /-- NOP.E (R162). -/
  | nopE
  /-- CPY (R271). -/
  | cpy (f : FmtE)
  /-- CPY2D (R271). -/
  | cpy2d (f : FmtE)
  /-- CPYS (R271). -/
  | cpys (f : FmtE)
  /-- CPYD (R271). -/
  | cpyd (f : FmtE)
  /-- GATH (R274). -/
  | gath (f : FmtE)
  /-- SCAT (R274). -/
  | scat (f : FmtE)
  /-- BSLD (R275). -/
  | bsld (f : FmtE)
  /-- TNEW (R277). -/
  | tnew (f : FmtE)
  /-- TDEL (R277). -/
  | tdel (f : FmtE)
  /-- TLEND (R96). -/
  | tlend (f : FmtE)
  /-- TGIVE (R96). -/
  | tgive (f : FmtE)
  /-- TRET (R96). -/
  | tret (f : FmtE)
  /-- TSPLIT (R96). -/
  | tsplit (f : FmtE)
  /-- TMERGE (R96). -/
  | tmerge (f : FmtE)
  /-- TSHARE (R96). -/
  | tshare (f : FmtE)
  /-- TASHR (R96). -/
  | tashr (f : FmtE)
  /-- TUNSH (R96). -/
  | tunsh (f : FmtE)
  /-- TACQ (R96). -/
  | tacq (f : FmtE)
  /-- TREL (R96). -/
  | trel (f : FmtE)
  /-- TREVIVE (R96). -/
  | trevive (f : FmtE)
  /-- TQRY (R278). -/
  | tqry (f : FmtE)
  /-- SEND (R279). -/
  | send (f : FmtE)
  /-- RECV (R281). -/
  | recv (f : FmtE)
  /-- COLL (R279). -/
  | coll (f : FmtE)
  /-- VFPUSH (R284). -/
  | vfpush (f : FmtE)
  /-- VFPOP (R284). -/
  | vfpop (f : FmtE)
  /-- VFCNT (R284). -/
  | vfcnt (f : FmtE)
  /-- EWAIT (R285). -/
  | ewait (f : FmtE)
  /-- EVR (R285). -/
  | evr (f : FmtE)
  /-- ESET (R285). -/
  | eset (f : FmtE)
  /-- NOTIFY (R286). -/
  | notify (f : FmtE)
  /-- LAUNCH (R287). -/
  | launch (f : FmtE)
  /-- DECIDE (R288). -/
  | decide (f : FmtE)
  /-- CANCEL (R288). -/
  | cancel (f : FmtE)
  /-- SCRUB (R289). -/
  | scrub (f : FmtE)
  /-- SPLREQ (R396). -/
  | splreq (f : FmtE)
  /-- RTSET (R291). -/
  | rtset (f : FmtE)
  /-- NOP.F (R162). -/
  | nopF
  /-- SCOPE (R334). -/
  | scope (f : FmtFS)
  /-- SCLD (R335). -/
  | scld (f : FmtFL)
  /-- FMTW (R336). -/
  | fmtw (f : FmtFW)
  /-- FMTR (R336). -/
  | fmtr (f : FmtFR)
  /-- FBX (R337). -/
  | fbx (f : FmtFB)
  /-- FEXP2 (R338). -/
  | fexp2 (f : FmtFF)
  /-- FLOG2 (R338). -/
  | flog2 (f : FmtFF)
  /-- FRCP (R338). -/
  | frcp (f : FmtFF)
  /-- FRSQ (R338). -/
  | frsq (f : FmtFF)
  /-- FSQRT (R338). -/
  | fsqrt (f : FmtFF)
  /-- FTANH (R338). -/
  | ftanh (f : FmtFF)
  /-- FSIG (R338). -/
  | fsig (f : FmtFF)
  /-- TTRD (R339). -/
  | ttrd (f : FmtFT)
  /-- HINT (R340). -/
  | hint (f : FmtFH)
  /-- SEEDW (R341). -/
  | seedw (f : FmtFD)
  /-- SLOT_COMMIT: R41: the halyard writes a bind record into slot n of strand k of braid b and commits it. -/
  | slotCommit (b k n : Nat) (rec : BitVec 512)
  /-- SLOT_WITHDRAW: R41: slot command withdraw. -/
  | slotWithdraw (b k n : Nat)
  /-- SLOT_RESUME: R41: slot command resume. -/
  | slotResume (b k n : Nat)
  /-- SLOT_RERUN: R41: slot command rerun. -/
  | slotRerun (b k n : Nat)
  /-- SLOT_CANCEL: R41: slot command cancel. -/
  | slotCancel (b k n : Nat)
  /-- RECORD_START: R42: the record in slot 0 starts if its conditions hold. -/
  | recordStart (b k : Nat)
  /-- START_TRANSFER_DONE: R42: the next start-time transfer or slab define of the record in slot 0 ends. -/
  | startTransferDone (b k : Nat)
  /-- PRELOAD_BEGIN: R43: the code preload of the record in slot 1 begins. -/
  | preloadBegin (b k : Nat)
  /-- PAD_PRELOAD_BEGIN: R43: the pad preload of the record in slot 1 begins. -/
  | padPreloadBegin (b k : Nat)
  /-- PRELOAD_DONE: R43: the preloads of the record in slot 1 finish. -/
  | preloadDone (b k : Nat)
  /-- BUDGET_SPENT: R46: the running unit has spent its budget. -/
  | budgetSpent (b k : Nat)
  /-- HALT_COMPLETE: R34: the fence of a HALT ends and the unit ends. -/
  | haltComplete (b k : Nat)
  /-- PART_MODE_WRITE: R54: a write of PART_MODE of partition p. -/
  | partModeWrite (p : Nat) (v : Word)
  /-- SLICE_END: R55: the slice of the partition ends. -/
  | sliceEnd (p : Nat)
  /-- LEASE_GRANT: R58: the array lease of braid b is arbitrated. -/
  | leaseGrant (b : Nat)
  /-- ENGINE_SERVICE_GRANT: R267: engine g of braid b begins another command. -/
  | engineServiceGrant (b g : Nat)
  /-- ENGINE_COMMAND_END: R268: the command engine g of braid b serves ends. -/
  | engineCommandEnd (b g : Nat)
  /-- SCOREBOARD_ARRIVAL: R75: the n-th scoreboarded result of the strand arrives. -/
  | scoreboardArrival (b k n : Nat)
  /-- PAIR_SYNC_WRITE: R24, R246: a window write of PAIR_SYNC. -/
  | pairSyncWrite (b : Nat) (v : Word)
  /-- PWR_GATE_APPLY: R27, R246: a window write of PWR_GATE with APPLY 1. -/
  | pwrGateApply (b : Nat) (v : Word)
  /-- PWR_GATE_SELECT: R26, R246: a window write of PWR_GATE with APPLY 0. -/
  | pwrGateSelect (b : Nat) (v : Word)
  /-- DOMAIN_WAKE_DONE: R28: domain d (0 logic, 1 B-store, 2 + g fabric group g) becomes usable. -/
  | domainWakeDone (b d : Nat)
  /-- BANK_MODE_WRITE: R68, R246: a window write of BANK_MODE. -/
  | bankModeWrite (b : Nat) (v : Word)
  /-- BANK_SWITCH_DONE: R69: the pending switch of bank n completes. -/
  | bankSwitchDone (b n : Nat)
  /-- TLB_INV_GO: R82: a write of TLB_INV. -/
  | tlbInvGo (p : Nat) (v : Word)
  /-- TLB_INV_DONE: R82: the invalidation completes. -/
  | tlbInvDone (p : Nat)
  /-- TOKEN_TRANSFER_COMPLETE: R95: the n-th token operation in progress completes. -/
  | tokenTransferComplete (n : Nat)
  /-- UNCORRECTABLE_ERROR: R76, R104, R105: an uncorrectable error in the line at pa, in the cache of a braid if inBraid, else in its home slice. -/
  | uncorrectableError (pa : Nat) (inBraid : Bool) (braid : Nat)
  /-- PACKET_ROUTER_HOP: R119: the n-th packet takes a hop at a braid router. -/
  | packetRouterHop (n : Nat)
  /-- PACKET_HUB_HOP: R120: the n-th packet visits the package hub. -/
  | packetHubHop (n : Nat)
  /-- PACKET_NODE_ARRIVE: R121: the n-th packet is at a slice, host port, lanyard port or management core; or a packet comes to lanyard port n from its peer. -/
  | packetNodeArrive (a : NodeArrival)
  /-- FAULT_RETURN_ARRIVE: R135, R137: the n-th packet, a fault return, has reached its source. -/
  | faultReturnArrive (n : Nat)
  /-- RESPONSE_TIMEOUT: R135: a request sent by way of entry n of braid b is lost. -/
  | responseTimeout (b n : Nat)
  /-- SUSPEND_TIMEOUT: R135: entry n of braid b was suspended for 2^20 cycles. -/
  | suspendTimeout (b n : Nat)
  /-- USER_ROUTE_LOST: R137: the n-th accepted command of braid b lost its fault return. -/
  | userRouteLost (b n : Nat)
  /-- FLIT_CRC_FAIL: R412: a flit fails its CRC on one direction of a link. -/
  | flitCrcFail (link : Nat) (ab : Bool)
  /-- MESSAGE_ARRIVE: R281: the n-th packet, a message, is delivered at its destination braid. -/
  | messageArrive (n : Nat)
  /-- REMOTE_EVENT_BUMP: R282, R286: the n-th packet, an event bump, is delivered. -/
  | remoteEventBump (n : Nat)
  /-- MLDS_LOAD_DONE: R325: the load of stationary buffer n of braid b ends. -/
  | mldsLoadDone (b n : Nat)
  /-- KEY_INSTALL: R375: an SPDM key install message. -/
  | keyInstall (world region : Nat) (braids : BitVec 96) (key : BitVec 256)
  /-- PREEMPT_REQUEST: R348: a pre-emption request reaches the strand. -/
  | preemptRequest (b k : Nat)
  /-- PREEMPT_BUNDLE_LIMIT: R348: 4,096 bundles have issued since the request. -/
  | preemptBundleLimit (b k : Nat)
  /-- TRAPQ_HEAD_WRITE: R344: the halyard writes TRAPQ_HEAD. -/
  | trapqHeadWrite (p : Nat) (v : Word)
  /-- HANDLER_LAUNCH: R346: the halyard starts the handler launch of a frozen unit on strand k2 of braid b2, the record standing at page. -/
  | handlerLaunch (b k b2 k2 : Nat) (page : BitVec 48)
  /-- CONTEXT_SAVE: R352: the normal save engine saves the frozen strand. -/
  | contextSave (b k : Nat)
  /-- STREAMING_SAVE: R353: the streaming save engine saves the frozen strand. -/
  | streamingSave (b k : Nat)
  /-- CONTEXT_RESTORE: R354: the n-th saved image is restored into slot 0 of strand k of braid b. -/
  | contextRestore (n b k : Nat)
  /-- DBG_HALT: R358: debug command halt. -/
  | dbgHalt (b k : Nat)
  /-- DBG_STEP: R358: debug command step. -/
  | dbgStep (b k : Nat)
  /-- DBG_RESUME: R358: debug command resume. -/
  | dbgResume (b k : Nat)
  /-- TDISP_LOCK: R361: a TDISP LOCK request; ide: the selective IDE stream is established. -/
  | tdispLock (fn : Nat) (ide : Bool)
  /-- TDISP_RUN: R361: the function enters RUN. -/
  | tdispRun (fn : Nat)
  /-- TDISP_ERROR: R361: the function enters ERROR. -/
  | tdispError (fn : Nat)
  /-- IDE_INTEGRITY_FAIL: R366: received data of the function fails its check. -/
  | ideIntegrityFail (fn : Nat)
  /-- PART_ASSIGN_WRITE: R362: a write of PART_ASSIGN. -/
  | partAssignWrite (fn : Nat) (v : BitVec 8)
  /-- HOST_MEMORY_REQUEST: R365, R366: a host read (no data) or write of len bytes. -/
  | hostMemoryRequest (fn : Nat) (cxlMem : Bool) (addr : Nat) (len : Nat) (data : Option (List (BitVec 8)))
  /-- QCFG_WRITE: R367: a write of QCFG or JCFG. -/
  | qcfgWrite (fn : Nat) (journal : Bool) (v : Word)
  /-- QTAIL_WRITE: R367, R368: a write of QTAIL. -/
  | qtailWrite (fn : Nat) (v : Word)
  /-- HOST_LAUNCH: R370: the accepted host command LAUNCH with journal sequence seq begins. -/
  | hostLaunch (fn seq : Nat)
  /-- HOST_GIVE: R370: the accepted host command GIVE with journal sequence seq begins. -/
  | hostGive (fn seq : Nat)
  /-- HOST_QUIESCE: R370: the accepted host command QUIESCE with journal sequence seq begins. -/
  | hostQuiesce (fn seq : Nat)
  /-- HOST_RESUME: R370: the accepted host command RESUME with journal sequence seq begins. -/
  | hostResume (fn seq : Nat)
  /-- HOST_REPORT: R370: the accepted host command REPORT with journal sequence seq begins. -/
  | hostReport (fn seq : Nat)
  /-- HOST_TEARDOWN: R370: the accepted host command TEARDOWN with journal sequence seq begins. -/
  | hostTeardown (fn seq : Nat)
  /-- COMMAND_COMPLETE: R368: a host command whose outcome stands completes. -/
  | commandComplete (fn seq : Nat)
  /-- DECLASSIFY_ADD: R376: an addition to the declassify list. -/
  | declassifyAdd (world base log2 : Nat)
  /-- DECLASSIFY_REMOVE: R376: a removal from the declassify list. -/
  | declassifyRemove (world base log2 : Nat)
  /-- FLOOR_RAISE_DONE: R378: raised floors of a counter pair are in flash. -/
  | floorRaiseDone (world region : Nat)
  /-- SCRUB_PROG_START: R384: a SCRUB_PROG write with START. -/
  | scrubProgStart (p : Nat) (v : Word)
  /-- SCRUB_PROG_SELECT: R384: a SCRUB_PROG write without START. -/
  | scrubProgSelect (p : Nat) (v : Word)
  /-- TEARDOWN_PHASE2: R385: a teardown enters PHASE 2. -/
  | teardownPhase2 (w : Nat)
  /-- TEARDOWN_PHASE3: R385: a teardown enters PHASE 3. -/
  | teardownPhase3 (w : Nat)
  /-- PARTITION_RESET: R388: a partition reset. -/
  | partitionReset (p : Nat)
  /-- POWER_ON: R403, R421: power-on. -/
  | powerOn
  /-- CONFIG_UPDATE: R421: a new configuration blob is delivered. -/
  | configUpdate (verifies : Bool) (boot version : Nat)
  /-- AIDIN_LOAD: R213: the loader places an Aidin object for a world from virtual address base. -/
  | aidinLoad (p world base : Nat) (object : List (BitVec 8))
  /-- NATIVE_TRANSLATE: R200: a translated region is placed in the translation cache; entries give SAFE index and bundle. -/
  | nativeTranslate (p world : Nat) (code region : BitVec 48) (entries : List (Nat × Nat))
  /-- SPLICE_ANSWER: R397: the fid core answers the n-th splice request. -/
  | spliceAnswer (n : Nat)
  /-- IFT_SLICE: R408: a test slice runs on a unit; salvage names the token bases whose dirty lines are lost if it fails. -/
  | iftSlice (b unit : Nat) (pass : Bool) (salvage : List Nat)
  /-- IFT_GAP_TIMEOUT: R408: the slice at INDEX found no gap within 1 s. -/
  | iftGapTimeout (b : Nat)
  /-- SHADOW_DETECT: R404: a shadow latch detects a late transition. -/
  | shadowDetect (b unit : Nat)
  /-- SHADOW_CNT_CLR: R405: a window write of CLR. -/
  | shadowCntClr (b : Nat)
  /-- REPLICA_WARN: R406: a replica path warns. -/
  | replicaWarn (b : Nat)
  /-- SUPPLY_SAG: R407: a supply sag. -/
  | supplySag (b : Nat)
  /-- HBM_ECC_ERROR: R414: an HBM cell error in the granule of pa. -/
  | hbmEccError (pa beat bit : Nat) (unc : Bool) (agents : List (BitVec 24))
  /-- HBM_PARITY_FAIL: R415: a vertical-bus transfer fails parity on `fails` of its attempts; single: the lane test names one lane. -/
  | hbmParityFail (pa beat lane fails : Nat) (single : Bool) (agents : List (BitVec 24))
  /-- REGISTER_ECC_ERROR: R411: an uncorrectable error in a register word (file 0 s and o, 1 k, 2 tile row, 3 accumulator row). -/
  | registerEccError (b k : Nat) (file idx : Nat)
  /-- KEY_SLOT_PARITY_ERROR: R410: a parity error in a key slot. -/
  | keySlotParityError (b n : Nat)
  /-- ERR_LOG_CELL_CLR: R417: a write of CLR to ERR_LOG_CELL. -/
  | errLogCellClr
  /-- ERR_LOG_XFER_CLR: R418: a write of CLR to ERR_LOG_XFER. -/
  | errLogXferClr
  /-- REGISTER_WRITE: R245, R246, R357, R363: a write of a register with no row of its own; num names the register (log 5). -/
  | registerWrite (unit num : Nat) (v : Word)
  /-- PAGE_WALK_DONE: R83: the page walk the bundle of the strand waits on completes. -/
  | pageWalkDone (b k : Nat)
  /-- INSTRUCTION_FETCH_MISS_DONE: R63: the instruction fetch the strand waits on completes. -/
  | instructionFetchMissDone (b k : Nat)
  /-- LINK_MARK_UP: R127: the fid core marks a down link up. -/
  | linkMarkUp (link rankAB rankBA lanesAB lanesBA : Nat)
  /-- TDISP_UNLOCK: R361: the function returns to CONFIG_UNLOCKED. -/
  | tdispUnlock (fn : Nat)
  /-- SLAB_UNCORRECTABLE_ERROR: R72, R410: an uncorrectable error in a slab byte, or in an entry of a FIFO bank. -/
  | slabUncorrectableError (b : Nat) (fifo : Bool) (id : Nat)
  /-- TABLE_UNCORRECTABLE_ERROR: R410: an uncorrectable error in a table entry (table 0 owner tokens of slice b, 1 route book, 2 slab table, 3 timing table). -/
  | tableUncorrectableError (b table idx : Nat)
  /-- SUPPLY_RECOVERY: R407: the supply recovers. -/
  | supplyRecovery (b : Nat)
  /-- GRAPH_SUBMIT: R51: a graph is submitted under a phase. -/
  | graphSubmit (p parent : Nat) (nodes : List GraphNode)
  deriving DecidableEq, Repr

/-- The slot an operation stands in (R160); none for a step of the device. -/
def Instr.slot : Instr → Option Nat
  | .nopC => some 0
  | .br _ => some 0
  | .brn _ => some 0
  | .brL _ => some 0
  | .bri _ => some 0
  | .call _ => some 0
  | .callL _ => some 0
  | .calli _ => some 0
  | .ret _ => some 0
  | .loop _ => some 0
  | .loopr _ => some 0
  | .loopL _ => some 0
  | .leave _ => some 0
  | .safe _ => some 0
  | .yield _ => some 0
  | .halt _ => some 0
  | .trap _ => some 0
  | .brk _ => some 0
  | .barArr _ => some 0
  | .barWait _ => some 0
  | .barSync _ => some 0
  | .eret _ => some 0
  | .nop sl => some sl.num
  | .add f => some f.sl.num
  | .addi f => some f.sl.num
  | .sub f => some f.sl.num
  | .mul f => some f.sl.num
  | .mulhI f => some f.sl.num
  | .mulhW f => some f.sl.num
  | .divI f => some f.sl.num
  | .divW f => some f.sl.num
  | .remI f => some f.sl.num
  | .remW f => some f.sl.num
  | .and f => some f.sl.num
  | .or f => some f.sl.num
  | .xor f => some f.sl.num
  | .andn f => some f.sl.num
  | .andi f => some f.sl.num
  | .ori f => some f.sl.num
  | .xori f => some f.sl.num
  | .shl f => some f.sl.num
  | .shr f => some f.sl.num
  | .sar f => some f.sl.num
  | .rol f => some f.sl.num
  | .shli f => some f.sl.num
  | .shri f => some f.sl.num
  | .sari f => some f.sl.num
  | .clz f => some f.sl.num
  | .ctz f => some f.sl.num
  | .popc f => some f.sl.num
  | .minI f => some f.sl.num
  | .maxI f => some f.sl.num
  | .minW f => some f.sl.num
  | .maxW f => some f.sl.num
  | .cmp f => some f.sl.num
  | .cmpi f => some f.sl.num
  | .sel f => some f.sl.num
  | .extI f => some f.sl.num
  | .extW f => some f.sl.num
  | .ins f => some f.sl.num
  | .movl f => some f.sl.num
  | .movh f => some f.sl.num
  | .fadd f => some f.sl.num
  | .fsub f => some f.sl.num
  | .fmul f => some f.sl.num
  | .fmac f => some f.sl.num
  | .fmin f => some f.sl.num
  | .fmax f => some f.sl.num
  | .fcmp f => some f.sl.num
  | .fcvt f => some f.sl.num
  | .kw _ => some 2
  | .kr _ => some 2
  | .gsr _ => some 2
  | .ssr _ => some 2
  | .pand _ => some 2
  | .por _ => some 2
  | .pxor _ => some 2
  | .pnot _ => some 2
  | .pget _ => some 2
  | .pset _ => some 2
  | .rdcyc _ => some 2
  | .param _ => some 2
  | .nopM => some 3
  | .ldI8 _ => some 3
  | .ldW8 _ => some 3
  | .ldI16 _ => some 3
  | .ldW16 _ => some 3
  | .ldI32 _ => some 3
  | .ldW32 _ => some 3
  | .ld64 _ => some 3
  | .st8 _ => some 3
  | .st16 _ => some 3
  | .st32 _ => some 3
  | .st64 _ => some 3
  | .ldt _ => some 3
  | .stt _ => some 3
  | .ldtf _ => some 3
  | .sttf _ => some 3
  | .amoAdd _ => some 3
  | .amoMinI _ => some 3
  | .amoMaxI _ => some 3
  | .amoAnd _ => some 3
  | .amoOr _ => some 3
  | .amoXor _ => some 3
  | .amoSwp _ => some 3
  | .amoCas _ => some 3
  | .amoFadd _ => some 3
  | .pref _ => some 3
  | .fenceC _ => some 3
  | .fenceX _ => some 3
  | .fenceE _ => some 3
  | .ilock _ => some 3
  | .iunlk _ => some 3
  | .slabDef _ => some 3
  | .slabRel _ => some 3
  | .slabQry _ => some 3
  | .slabRdy _ => some 3
  | .slabEmp _ => some 3
  | .nopV => some 4
  | .vadd _ => some 4
  | .vsub _ => some 4
  | .vmul _ => some 4
  | .vfma _ => some 4
  | .vfms _ => some 4
  | .vmin _ => some 4
  | .vmax _ => some 4
  | .vabs _ => some 4
  | .vneg _ => some 4
  | .vand _ => some 4
  | .vor _ => some 4
  | .vxor _ => some 4
  | .vshl _ => some 4
  | .vshr _ => some 4
  | .vsar _ => some 4
  | .vcmpeq _ => some 4
  | .vcmpne _ => some 4
  | .vcmplt _ => some 4
  | .vcmple _ => some 4
  | .vsel _ => some 4
  | .vcvt _ => some 4
  | .vcvtn _ => some 4
  | .vcvtw _ => some 4
  | .vrotr _ => some 4
  | .vrotc _ => some 4
  | .vbcr _ => some 4
  | .vbcc _ => some 4
  | .vredrAdd _ => some 4
  | .vredrMax _ => some 4
  | .vredrMin _ => some 4
  | .vredcAdd _ => some 4
  | .vredcMax _ => some 4
  | .vredcMin _ => some 4
  | .vshuf _ => some 4
  | .vpatld _ => some 4
  | .vpatsw _ => some 4
  | .vpart _ => some 4
  | .vgath _ => some 4
  | .vscat _ => some 4
  | .vmov _ => some 4
  | .vmovPop _ => some 4
  | .vmovPush _ => some 4
  | .vsplat _ => some 4
  | .viota _ => some 4
  | .vmskAnd _ => some 4
  | .vmskOr _ => some 4
  | .vmskXor _ => some 4
  | .vmskAndn _ => some 4
  | .vmskCopy _ => some 4
  | .vmskNot _ => some 4
  | .vmskFirst _ => some 4
  | .vmcnt _ => some 4
  | .vacc _ => some 4
  | .vfree _ => some 4
  | .nopX => some 5
  | .mlease _ => some 5
  | .mrel _ => some 5
  | .mlds _ => some 5
  | .mma _ => some 5
  | .mmaAcc _ => some 5
  | .macr _ => some 5
  | .macw _ => some 5
  | .macz _ => some 5
  | .mkz _ => some 5
  | .mkzAll _ => some 5
  | .mcntLoads _ => some 5
  | .mcntSteps _ => some 5
  | .mstat _ => some 5
  | .nopE => some 6
  | .cpy _ => some 6
  | .cpy2d _ => some 6
  | .cpys _ => some 6
  | .cpyd _ => some 6
  | .gath _ => some 6
  | .scat _ => some 6
  | .bsld _ => some 6
  | .tnew _ => some 6
  | .tdel _ => some 6
  | .tlend _ => some 6
  | .tgive _ => some 6
  | .tret _ => some 6
  | .tsplit _ => some 6
  | .tmerge _ => some 6
  | .tshare _ => some 6
  | .tashr _ => some 6
  | .tunsh _ => some 6
  | .tacq _ => some 6
  | .trel _ => some 6
  | .trevive _ => some 6
  | .tqry _ => some 6
  | .send _ => some 6
  | .recv _ => some 6
  | .coll _ => some 6
  | .vfpush _ => some 6
  | .vfpop _ => some 6
  | .vfcnt _ => some 6
  | .ewait _ => some 6
  | .evr _ => some 6
  | .eset _ => some 6
  | .notify _ => some 6
  | .launch _ => some 6
  | .decide _ => some 6
  | .cancel _ => some 6
  | .scrub _ => some 6
  | .splreq _ => some 6
  | .rtset _ => some 6
  | .nopF => some 7
  | .scope _ => some 7
  | .scld _ => some 7
  | .fmtw _ => some 7
  | .fmtr _ => some 7
  | .fbx _ => some 7
  | .fexp2 _ => some 7
  | .flog2 _ => some 7
  | .frcp _ => some 7
  | .frsq _ => some 7
  | .fsqrt _ => some 7
  | .ftanh _ => some 7
  | .fsig _ => some 7
  | .ttrd _ => some 7
  | .hint _ => some 7
  | .seedw _ => some 7
  | .slotCommit _ _ _ _ => none
  | .slotWithdraw _ _ _ => none
  | .slotResume _ _ _ => none
  | .slotRerun _ _ _ => none
  | .slotCancel _ _ _ => none
  | .recordStart _ _ => none
  | .startTransferDone _ _ => none
  | .preloadBegin _ _ => none
  | .padPreloadBegin _ _ => none
  | .preloadDone _ _ => none
  | .budgetSpent _ _ => none
  | .haltComplete _ _ => none
  | .partModeWrite _ _ => none
  | .sliceEnd _ => none
  | .leaseGrant _ => none
  | .engineServiceGrant _ _ => none
  | .engineCommandEnd _ _ => none
  | .scoreboardArrival _ _ _ => none
  | .pairSyncWrite _ _ => none
  | .pwrGateApply _ _ => none
  | .pwrGateSelect _ _ => none
  | .domainWakeDone _ _ => none
  | .bankModeWrite _ _ => none
  | .bankSwitchDone _ _ => none
  | .tlbInvGo _ _ => none
  | .tlbInvDone _ => none
  | .tokenTransferComplete _ => none
  | .uncorrectableError _ _ _ => none
  | .packetRouterHop _ => none
  | .packetHubHop _ => none
  | .packetNodeArrive _ => none
  | .faultReturnArrive _ => none
  | .responseTimeout _ _ => none
  | .suspendTimeout _ _ => none
  | .userRouteLost _ _ => none
  | .flitCrcFail _ _ => none
  | .messageArrive _ => none
  | .remoteEventBump _ => none
  | .mldsLoadDone _ _ => none
  | .keyInstall _ _ _ _ => none
  | .preemptRequest _ _ => none
  | .preemptBundleLimit _ _ => none
  | .trapqHeadWrite _ _ => none
  | .handlerLaunch _ _ _ _ _ => none
  | .contextSave _ _ => none
  | .streamingSave _ _ => none
  | .contextRestore _ _ _ => none
  | .dbgHalt _ _ => none
  | .dbgStep _ _ => none
  | .dbgResume _ _ => none
  | .tdispLock _ _ => none
  | .tdispRun _ => none
  | .tdispError _ => none
  | .ideIntegrityFail _ => none
  | .partAssignWrite _ _ => none
  | .hostMemoryRequest _ _ _ _ _ => none
  | .qcfgWrite _ _ _ => none
  | .qtailWrite _ _ => none
  | .hostLaunch _ _ => none
  | .hostGive _ _ => none
  | .hostQuiesce _ _ => none
  | .hostResume _ _ => none
  | .hostReport _ _ => none
  | .hostTeardown _ _ => none
  | .commandComplete _ _ => none
  | .declassifyAdd _ _ _ => none
  | .declassifyRemove _ _ _ => none
  | .floorRaiseDone _ _ => none
  | .scrubProgStart _ _ => none
  | .scrubProgSelect _ _ => none
  | .teardownPhase2 _ => none
  | .teardownPhase3 _ => none
  | .partitionReset _ => none
  | .powerOn => none
  | .configUpdate _ _ _ => none
  | .aidinLoad _ _ _ _ => none
  | .nativeTranslate _ _ _ _ _ => none
  | .spliceAnswer _ => none
  | .iftSlice _ _ _ _ => none
  | .iftGapTimeout _ => none
  | .shadowDetect _ _ => none
  | .shadowCntClr _ => none
  | .replicaWarn _ => none
  | .supplySag _ => none
  | .hbmEccError _ _ _ _ _ => none
  | .hbmParityFail _ _ _ _ _ _ => none
  | .registerEccError _ _ _ _ => none
  | .keySlotParityError _ _ => none
  | .errLogCellClr => none
  | .errLogXferClr => none
  | .registerWrite _ _ _ => none
  | .pageWalkDone _ _ => none
  | .instructionFetchMissDone _ _ => none
  | .linkMarkUp _ _ _ _ _ => none
  | .tdispUnlock _ => none
  | .slabUncorrectableError _ _ _ => none
  | .tableUncorrectableError _ _ _ => none
  | .supplyRecovery _ => none
  | .graphSubmit _ _ _ => none

end Sys2Proof
end

