-- ==== Sys2Proof/WellFormed.lean ====
section
/-!
DEFINITION. Which instructions are well formed: the fields that the encodings of R163 to R181 and the per-operation
rules leave legal. An ill-formed word is an illegal bundle (cause 0x01, R182), save in slot E, whose reserved fields trap at issue (R266).
-/

namespace Sys2Proof

/-- Operand fields legal, and the field a long immediate replaces zero (R165, R168). -/
def FmtCO.wf (f : FmtCO) : Bool :=
  f.tgt.wf

/-- Operand fields legal, and the field a long immediate replaces zero (R165, R168). -/
def FmtCR.wf (f : FmtCR) : Bool :=
  f.cnt.wf

/-- Operand fields legal, and the field a long immediate replaces zero (R165, R168). -/
def FmtAR.wf (f : FmtAR) : Bool :=
  f.a.wf && f.b.wf && (f.lng.isNone || f.b == .reg 0)

/-- Operand fields legal, and the field a long immediate replaces zero (R165, R168). -/
def FmtAX.wf (f : FmtAX) : Bool :=
  f.a.wf && f.b.wf

/-- Operand fields legal, and the field a long immediate replaces zero (R165, R168). -/
def FmtAI.wf (f : FmtAI) : Bool :=
  f.a.wf && (f.lng.isNone || f.imm == 0)

/-- Operand fields legal, and the field a long immediate replaces zero (R165, R168). -/
def FmtAS.wf (f : FmtAS) : Bool :=
  f.a.wf

/-- Operand fields legal, and the field a long immediate replaces zero (R165, R168). -/
def FmtAU.wf (f : FmtAU) : Bool :=
  f.a.wf

/-- Operand fields legal, and the field a long immediate replaces zero (R165, R168). -/
def FmtAC.wf (f : FmtAC) : Bool :=
  f.a.wf && f.b.wf && (f.lng.isNone || f.b == .reg 0)

/-- Operand fields legal, and the field a long immediate replaces zero (R165, R168). -/
def FmtACI.wf (f : FmtACI) : Bool :=
  f.a.wf && (f.lng.isNone || f.imm == 0)

/-- Operand fields legal, and the field a long immediate replaces zero (R165, R168). -/
def FmtAV.wf (f : FmtAV) : Bool :=
  f.a.wf

/-- Operand fields legal, and the field a long immediate replaces zero (R165, R168). -/
def FmtBKw.wf (f : FmtBKw) : Bool :=
  f.b.wf && (f.lng.isNone || f.b == .reg 0)

/-- Operand fields legal, and the field a long immediate replaces zero (R165, R168). -/
def FmtBS.wf (f : FmtBS) : Bool :=
  f.b.wf

/-- Operand fields legal, and the field a long immediate replaces zero (R165, R168). -/
def FmtBPs.wf (f : FmtBPs) : Bool :=
  f.b.wf

/-- Operand fields legal, and the field a long immediate replaces zero (R165, R168). -/
def FmtBPm.wf (f : FmtBPm) : Bool :=
  f.a.wf

/-- Operand fields legal, and the field a long immediate replaces zero (R165, R168). -/
def FmtML.wf (f : FmtML) : Bool :=
  f.base.wf && (f.lng.isNone || f.off == 0)

/-- Operand fields legal, and the field a long immediate replaces zero (R165, R168). -/
def FmtMP.wf (f : FmtMP) : Bool :=
  f.base.wf && (f.lng.isNone || f.off == 0)

/-- Operand fields legal, and the field a long immediate replaces zero (R165, R168). -/
def FmtMS.wf (f : FmtMS) : Bool :=
  f.data.wf && f.base.wf && (f.lng.isNone || f.off == 0)

/-- Operand fields legal, and the field a long immediate replaces zero (R165, R168). -/
def FmtMT.wf (f : FmtMT) : Bool :=
  f.base.wf && (f.lng.isNone || f.off == 0)

/-- Operand fields legal, and the field a long immediate replaces zero (R165, R168). -/
def FmtMA.wf (f : FmtMA) : Bool :=
  f.base.wf

/-- Operand fields legal, and the field a long immediate replaces zero (R165, R168). -/
def FmtMIl.wf (f : FmtMIl) : Bool :=
  f.a.wf && f.n.wf

/-- Operand fields legal, and the field a long immediate replaces zero (R165, R168). -/
def FmtMIu.wf (f : FmtMIu) : Bool :=
  f.a.wf && f.n.wf

/-- Operand fields legal, and the field a long immediate replaces zero (R165, R168). -/
def FmtMSl.wf (f : FmtMSl) : Bool :=
  f.x.wf

/-- Operand fields legal, and the field a long immediate replaces zero (R165, R168). -/
def FmtVS.wf (f : FmtVS) : Bool :=
  (f.lng.isNone || f.tb == 0)

/-- Operand fields legal, and the field a long immediate replaces zero (R165, R168). -/
def FmtXD.wf (f : FmtXD) : Bool :=
  f.off.wf

/-- Operand fields legal, and the field a long immediate replaces zero (R165, R168). -/
def FmtXC.wf (f : FmtXC) : Bool :=
  f.reg.wf

/-- Operand fields legal, and the field a long immediate replaces zero (R165, R168). -/
def FmtFL.wf (f : FmtFL) : Bool :=
  f.base.wf

/-- Operand fields legal, and the field a long immediate replaces zero (R165, R168). -/
def FmtFW.wf (f : FmtFW) : Bool :=
  f.a.wf

/-- Operand fields legal, and the field a long immediate replaces zero (R165, R168). -/
def FmtFT.wf (f : FmtFT) : Bool :=
  f.a.wf

/-- Operand fields legal, and the field a long immediate replaces zero (R165, R168). -/
def FmtFD.wf (f : FmtFD) : Bool :=
  f.a.wf

/-- The reserved and restricted fields of each operation (R163 to R181, R295). -/
def Instr.wf : Instr → Bool
  | .nopC => true
  | .br _ => true
  | .brn _ => true
  | .brL _ => true
  | .bri f => f.wf
  | .call _ => true
  | .callL _ => true
  | .calli f => f.wf
  | .ret _ => true
  | .loop f => f.wf && f.len != 0
  | .loopr f => f.wf && f.len != 0
  | .loopL f => f.len != 0
  | .leave _ => true
  | .safe _ => true
  | .yield _ => true
  | .halt _ => true
  | .trap _ => true
  | .brk _ => true
  | .barArr _ => true
  | .barWait _ => true
  | .barSync _ => true
  | .eret _ => true
  | .nop _ => true
  | .add f => f.wf
  | .addi f => f.wf
  | .sub f => f.wf
  | .mul f => f.wf
  | .mulhI f => f.wf
  | .mulhW f => f.wf
  | .divI f => f.wf
  | .divW f => f.wf
  | .remI f => f.wf
  | .remW f => f.wf
  | .and f => f.wf
  | .or f => f.wf
  | .xor f => f.wf
  | .andn f => f.wf
  | .andi f => f.wf
  | .ori f => f.wf
  | .xori f => f.wf
  | .shl f => f.wf
  | .shr f => f.wf
  | .sar f => f.wf
  | .rol f => f.wf
  | .shli f => f.wf
  | .shri f => f.wf
  | .sari f => f.wf
  | .clz f => f.wf
  | .ctz f => f.wf
  | .popc f => f.wf
  | .minI f => f.wf
  | .maxI f => f.wf
  | .minW f => f.wf
  | .maxW f => f.wf
  | .cmp f => f.wf
  | .cmpi f => f.wf
  | .sel f => f.wf
  | .extI f => f.wf
  | .extW f => f.wf
  | .ins f => f.wf
  | .movl _ => true
  | .movh _ => true
  | .fadd f => f.wf
  | .fsub f => f.wf
  | .fmul f => f.wf
  | .fmac f => f.wf
  | .fmin f => f.wf
  | .fmax f => f.wf
  | .fcmp f => f.wf && f.cond.toNat < 6
  | .fcvt f => f.wf && f.cvTo.toNat < 7 && f.cvFrom.toNat < 7
  | .kw f => f.wf
  | .kr _ => true
  | .gsr _ => true
  | .ssr f => f.wf
  | .pand _ => true
  | .por _ => true
  | .pxor _ => true
  | .pnot _ => true
  | .pget _ => true
  | .pset f => f.wf
  | .rdcyc _ => true
  | .param f => f.wf
  | .nopM => true
  | .ldI8 f => f.wf
  | .ldW8 f => f.wf
  | .ldI16 f => f.wf
  | .ldW16 f => f.wf
  | .ldI32 f => f.wf
  | .ldW32 f => f.wf
  | .ld64 f => f.wf
  | .st8 f => f.wf
  | .st16 f => f.wf
  | .st32 f => f.wf
  | .st64 f => f.wf
  | .ldt f => f.wf && f.row.toNat < 22
  | .stt f => f.wf && f.row.toNat < 22
  | .ldtf f => f.wf && f.row.toNat < 22
  | .sttf f => f.wf && f.row.toNat < 22
  | .amoAdd f => f.wf
  | .amoMinI f => f.wf
  | .amoMaxI f => f.wf
  | .amoAnd f => f.wf
  | .amoOr f => f.wf
  | .amoXor f => f.wf
  | .amoSwp f => f.wf
  | .amoCas f => f.wf
  | .amoFadd f => f.wf
  | .pref f => f.wf
  | .fenceC _ => true
  | .fenceX _ => true
  | .fenceE _ => true
  | .ilock f => f.wf
  | .iunlk f => f.wf
  | .slabDef f => f.wf
  | .slabRel f => f.wf
  | .slabQry f => f.wf
  | .slabRdy f => f.wf
  | .slabEmp f => f.wf
  | .nopV => true
  | .vadd f => f.row.toNat < 22
  | .vsub f => f.row.toNat < 22
  | .vmul f => f.row.toNat < 22
  | .vfma f => f.row.toNat < 22
  | .vfms f => f.row.toNat < 22
  | .vmin f => f.row.toNat < 22
  | .vmax f => f.row.toNat < 22
  | .vabs f => f.row.toNat < 22 && f.tb == 0
  | .vneg f => f.row.toNat < 22 && f.tb == 0
  | .vand f => f.row.toNat < 22
  | .vor f => f.row.toNat < 22
  | .vxor f => f.row.toNat < 22
  | .vshl f => f.row.toNat < 22
  | .vshr f => f.row.toNat < 22
  | .vsar f => f.row.toNat < 22
  | .vcmpeq f => f.row.toNat < 22 && f.td != 0 && f.td.toNat < 4
  | .vcmpne f => f.row.toNat < 22 && f.td != 0 && f.td.toNat < 4
  | .vcmplt f => f.row.toNat < 22 && f.td != 0 && f.td.toNat < 4
  | .vcmple f => f.row.toNat < 22 && f.td != 0 && f.td.toNat < 4
  | .vsel f => f.row.toNat < 22 && f.msk != 0
  | .vcvt f => f.row.toNat < 22
  | .vcvtn f => f.row.toNat < 22 && f.tb.toNat < 8
  | .vcvtw f => f.row.toNat < 22 && f.tb.toNat < 8
  | .vrotr f => f.row.toNat < 22
  | .vrotc f => f.row == 0
  | .vbcr f => f.row.toNat < 22
  | .vbcc f => f.row.toNat < 22 && f.tb == 0
  | .vredrAdd f => f.row.toNat < 22 && f.tb == 0
  | .vredrMax f => f.row.toNat < 22 && f.tb == 0
  | .vredrMin f => f.row.toNat < 22 && f.tb == 0
  | .vredcAdd f => f.row.toNat < 22 && f.tb == 0
  | .vredcMax f => f.row.toNat < 22 && f.tb == 0
  | .vredcMin f => f.row.toNat < 22 && f.tb == 0
  | .vshuf f => f.row.toNat < 22
  | .vpatld f => f.row.toNat < 22 && f.td == 0 && f.tb == 0 && f.idx.toNat % 4 == 0
  | .vpatsw f => f.row == 0 && f.td == 0 && f.ta == 0 && f.tb == 0 && f.ty == 0 && f.msk == 0
  | .vpart f => f.row.toNat < 22 && f.ta == 0 && f.msk != 0
  | .vgath f => f.row.toNat < 22
  | .vscat f => f.row.toNat < 22
  | .vmov f => f.row.toNat < 22 && f.tb == 0
  | .vmovPop f => f.row.toNat < 22 && f.ta == 0 && 4 ≤ f.tb.toNat && f.tb.toNat < 8
  | .vmovPush f => f.row.toNat < 22 && f.td == 0 && 8 ≤ f.tb.toNat && f.tb.toNat < 12
  | .vsplat f => f.wf && f.row.toNat < 22
  | .viota f => f.row.toNat < 22 && f.ta == 0
  | .vmskAnd f => f.row.toNat == 0 && f.td != 0 && f.td.toNat < 4 && f.ta.toNat < 4 && f.tb.toNat < 4 && f.ty == 0 && f.msk == 0
  | .vmskOr f => f.row.toNat == 1 && f.td != 0 && f.td.toNat < 4 && f.ta.toNat < 4 && f.tb.toNat < 4 && f.ty == 0 && f.msk == 0
  | .vmskXor f => f.row.toNat == 2 && f.td != 0 && f.td.toNat < 4 && f.ta.toNat < 4 && f.tb.toNat < 4 && f.ty == 0 && f.msk == 0
  | .vmskAndn f => f.row.toNat == 3 && f.td != 0 && f.td.toNat < 4 && f.ta.toNat < 4 && f.tb.toNat < 4 && f.ty == 0 && f.msk == 0
  | .vmskCopy f => f.row.toNat == 4 && f.td != 0 && f.td.toNat < 4 && f.ta.toNat < 4 && f.tb == 0 && f.ty == 0 && f.msk == 0
  | .vmskNot f => f.row.toNat == 5 && f.td != 0 && f.td.toNat < 4 && f.ta.toNat < 4 && f.tb == 0 && f.ty == 0 && f.msk == 0
  | .vmskFirst f => f.row.toNat == 6 && f.td != 0 && f.td.toNat < 4 && f.ta == 0 && f.msk == 0
  | .vmcnt f => f.row.toNat < 22 && f.ta == 0 && f.tb == 0 && f.msk != 0
  | .vacc f => f.row.toNat < 22 && f.ta.toNat < 6
  | .vfree f => f.row == 0 && f.ta == 0 && f.tb == 0 && f.ty == 0 && f.msk == 0
  | .nopX => true
  | .mlease _ => true
  | .mrel _ => true
  | .mlds f => f.wf
  | .mma _ => true
  | .mmaAcc _ => true
  | .macr f => f.bank.toNat < 6
  | .macw f => f.bank.toNat < 6
  | .macz f => f.bank.toNat < 6
  | .mkz _ => true
  | .mkzAll _ => true
  | .mcntLoads f => f.wf
  | .mcntSteps f => f.wf
  | .mstat f => f.bank.toNat < 6
  | .nopE => true
  | .cpy _ => true
  | .cpy2d _ => true
  | .cpys _ => true
  | .cpyd _ => true
  | .gath _ => true
  | .scat _ => true
  | .bsld _ => true
  | .tnew _ => true
  | .tdel _ => true
  | .tlend _ => true
  | .tgive _ => true
  | .tret _ => true
  | .tsplit _ => true
  | .tmerge _ => true
  | .tshare _ => true
  | .tashr _ => true
  | .tunsh _ => true
  | .tacq _ => true
  | .trel _ => true
  | .trevive _ => true
  | .tqry _ => true
  | .send _ => true
  | .recv _ => true
  | .coll _ => true
  | .vfpush f => f.vrow.toNat < 22
  | .vfpop f => f.vrow.toNat < 22
  | .vfcnt _ => true
  | .ewait f => (Operand.ofBits f.val).isSome
  | .evr _ => true
  | .eset f => (Operand.ofBits f.val).isSome
  | .notify _ => true
  | .launch _ => true
  | .decide _ => true
  | .cancel _ => true
  | .scrub _ => true
  | .splreq _ => true
  | .rtset _ => true
  | .nopF => true
  | .scope f => f.scope.toNat < 5
  | .scld f => f.wf
  | .fmtw f => f.wf
  | .fmtr _ => true
  | .fbx f => f.row.toNat < 22
  | .fexp2 f => f.row.toNat < 22
  | .flog2 f => f.row.toNat < 22
  | .frcp f => f.row.toNat < 22
  | .frsq f => f.row.toNat < 22
  | .fsqrt f => f.row.toNat < 22
  | .ftanh f => f.row.toNat < 22
  | .fsig f => f.row.toNat < 22
  | .ttrd f => f.wf
  | .hint _ => true
  | .seedw f => f.wf
  | .slotCommit _ _ _ _ => true
  | .slotWithdraw _ _ _ => true
  | .slotResume _ _ _ => true
  | .slotRerun _ _ _ => true
  | .slotCancel _ _ _ => true
  | .recordStart _ _ => true
  | .startTransferDone _ _ => true
  | .preloadBegin _ _ => true
  | .padPreloadBegin _ _ => true
  | .preloadDone _ _ => true
  | .budgetSpent _ _ => true
  | .haltComplete _ _ => true
  | .partModeWrite _ _ => true
  | .sliceEnd _ => true
  | .leaseGrant _ => true
  | .engineServiceGrant _ _ => true
  | .engineCommandEnd _ _ => true
  | .scoreboardArrival _ _ _ => true
  | .pairSyncWrite _ _ => true
  | .pwrGateApply _ _ => true
  | .pwrGateSelect _ _ => true
  | .domainWakeDone _ _ => true
  | .bankModeWrite _ _ => true
  | .bankSwitchDone _ _ => true
  | .tlbInvGo _ _ => true
  | .tlbInvDone _ => true
  | .tokenTransferComplete _ => true
  | .uncorrectableError _ _ _ => true
  | .packetRouterHop _ => true
  | .packetHubHop _ => true
  | .packetNodeArrive _ => true
  | .faultReturnArrive _ => true
  | .responseTimeout _ _ => true
  | .suspendTimeout _ _ => true
  | .userRouteLost _ _ => true
  | .flitCrcFail _ _ => true
  | .messageArrive _ => true
  | .remoteEventBump _ => true
  | .mldsLoadDone _ _ => true
  | .keyInstall _ _ _ _ => true
  | .preemptRequest _ _ => true
  | .preemptBundleLimit _ _ => true
  | .trapqHeadWrite _ _ => true
  | .handlerLaunch _ _ _ _ _ => true
  | .contextSave _ _ => true
  | .streamingSave _ _ => true
  | .contextRestore _ _ _ => true
  | .dbgHalt _ _ => true
  | .dbgStep _ _ => true
  | .dbgResume _ _ => true
  | .tdispLock _ _ => true
  | .tdispRun _ => true
  | .tdispError _ => true
  | .ideIntegrityFail _ => true
  | .partAssignWrite _ _ => true
  | .hostMemoryRequest _ _ _ _ _ => true
  | .qcfgWrite _ _ _ => true
  | .qtailWrite _ _ => true
  | .hostLaunch _ _ => true
  | .hostGive _ _ => true
  | .hostQuiesce _ _ => true
  | .hostResume _ _ => true
  | .hostReport _ _ => true
  | .hostTeardown _ _ => true
  | .commandComplete _ _ => true
  | .declassifyAdd _ _ _ => true
  | .declassifyRemove _ _ _ => true
  | .floorRaiseDone _ _ => true
  | .scrubProgStart _ _ => true
  | .scrubProgSelect _ _ => true
  | .teardownPhase2 _ => true
  | .teardownPhase3 _ => true
  | .partitionReset _ => true
  | .powerOn => true
  | .configUpdate _ _ _ => true
  | .aidinLoad _ _ _ _ => true
  | .nativeTranslate _ _ _ _ _ => true
  | .spliceAnswer _ => true
  | .iftSlice _ _ _ _ => true
  | .iftGapTimeout _ => true
  | .shadowDetect _ _ => true
  | .shadowCntClr _ => true
  | .replicaWarn _ => true
  | .supplySag _ => true
  | .hbmEccError _ _ _ _ _ => true
  | .hbmParityFail _ _ _ _ _ _ => true
  | .registerEccError _ _ _ _ => true
  | .keySlotParityError _ _ => true
  | .errLogCellClr => true
  | .errLogXferClr => true
  | .registerWrite _ _ _ => true
  | .pageWalkDone _ _ => true
  | .instructionFetchMissDone _ _ => true
  | .linkMarkUp _ _ _ _ _ => true
  | .tdispUnlock _ => true
  | .slabUncorrectableError _ _ _ => true
  | .tableUncorrectableError _ _ _ => true
  | .supplyRecovery _ => true
  | .graphSubmit _ _ _ => true

end Sys2Proof
end

