-- ==== Sys2Proof/Decode.lean ====
section
/-!
DEFINITION. The decoder and the encoder, written from the same tables (R160 to R182, R192 to R199).
A word means different operations in different slots, so the decoder takes the slot; a bundle gives eight words, a dense block a tag and up to eight.
-/

namespace Sys2Proof

/-- n bits of w from bit lo up (R3). -/
def fld (w lo n : Nat) : BitVec n := BitVec.ofNat n (w / 2 ^ lo)

/-- A truth value as one bit. -/
def bit (b : Bool) : Nat := if b then 1 else 0

/-- Why a word is refused: an undefined opcode (cause 0x02) or an illegal form (cause 0x01), by R182. -/
inductive DecErr where
  | undefined
  | illegal
  deriving DecidableEq, Repr

/-- The fields of format CZ at their places. -/
def FmtCZ.pack (f : FmtCZ) : Nat :=
  f.pred.toNat * 2 ^ 15

/-- Format CZ read back from a word. -/
def FmtCZ.unpack (w : Nat) : Option FmtCZ :=
  some { pred := fld w 15 3 }

/-- The fields of format CB at their places. -/
def FmtCB.pack (f : FmtCB) : Nat :=
  f.pred.toNat * 2 ^ 15 + f.off.toNat

/-- Format CB read back from a word. -/
def FmtCB.unpack (w : Nat) : Option FmtCB :=
  some { pred := fld w 15 3, off := fld w 0 15 }

/-- The fields of format CL at their places. -/
def FmtCL.pack (f : FmtCL) : Nat :=
  f.pred.toNat * 2 ^ 15

/-- Format CL read back from a word and its neighbour. -/
def FmtCL.unpack (w : Nat) (lng : Option (BitVec 32)) : Option FmtCL :=
  lng.map fun lng =>
  { pred := fld w 15 3, lng := lng }

/-- The fields of format CO at their places. -/
def FmtCO.pack (f : FmtCO) : Nat :=
  f.pred.toNat * 2 ^ 15 + f.tgt.toBits * 2 ^ 7

/-- Format CO read back from a word. -/
def FmtCO.unpack (w : Nat) : Option FmtCO :=
  (Operand.ofBits (w / 2 ^ 7 % 256)).bind fun tgt =>
  some { pred := fld w 15 3, tgt := tgt }

/-- The fields of format CR at their places. -/
def FmtCR.pack (f : FmtCR) : Nat :=
  f.pred.toNat * 2 ^ 15 + f.cnt.toBits * 2 ^ 7 + f.len.toNat

/-- Format CR read back from a word. -/
def FmtCR.unpack (w : Nat) : Option FmtCR :=
  (Operand.ofBits (w / 2 ^ 7 % 256)).bind fun cnt =>
  some { pred := fld w 15 3, cnt := cnt, len := fld w 0 7 }

/-- The fields of format CRL at their places. -/
def FmtCRL.pack (f : FmtCRL) : Nat :=
  f.pred.toNat * 2 ^ 15 + f.len.toNat

/-- Format CRL read back from a word and its neighbour. -/
def FmtCRL.unpack (w : Nat) (lng : Option (BitVec 32)) : Option FmtCRL :=
  lng.map fun lng =>
  { pred := fld w 15 3, len := fld w 0 7, lng := lng }

/-- The fields of format CX at their places. -/
def FmtCX.pack (f : FmtCX) : Nat :=
  f.pred.toNat * 2 ^ 15 + f.code.toNat

/-- Format CX read back from a word. -/
def FmtCX.unpack (w : Nat) : Option FmtCX :=
  some { pred := fld w 15 3, code := fld w 0 15 }

/-- The fields of format CBar at their places. -/
def FmtCBar.pack (f : FmtCBar) : Nat :=
  f.pred.toNat * 2 ^ 15 + f.bar.toNat

/-- Format CBar read back from a word. -/
def FmtCBar.unpack (w : Nat) : Option FmtCBar :=
  some { pred := fld w 15 3, bar := fld w 0 3 }

/-- The fields of format AR at their places. -/
def FmtAR.pack (f : FmtAR) : Nat :=
  f.pred.toNat * 2 ^ 23 + bit f.ws * 2 ^ 22 + f.dst.toNat * 2 ^ 16 + f.a.toBits * 2 ^ 8 + f.b.toBits

/-- Format AR read back from a word and its neighbour. -/
def FmtAR.unpack (sl : ScalarSlot) (w : Nat) (lng : Option (BitVec 32)) : Option FmtAR :=
  (Operand.ofBits (w / 2 ^ 8 % 256)).bind fun a =>
  (Operand.ofBits (w / 2 ^ 0 % 256)).bind fun b =>
  some { sl := sl, pred := fld w 23 3, ws := w / 2 ^ 22 % 2 == 1, dst := fld w 16 6, a := a, b := b, lng := lng }

/-- The fields of format AX at their places. -/
def FmtAX.pack (f : FmtAX) : Nat :=
  f.pred.toNat * 2 ^ 23 + bit f.ws * 2 ^ 22 + f.dst.toNat * 2 ^ 16 + f.a.toBits * 2 ^ 8 + f.b.toBits

/-- Format AX read back from a word. -/
def FmtAX.unpack (sl : ScalarSlot) (w : Nat) : Option FmtAX :=
  (Operand.ofBits (w / 2 ^ 8 % 256)).bind fun a =>
  (Operand.ofBits (w / 2 ^ 0 % 256)).bind fun b =>
  some { sl := sl, pred := fld w 23 3, ws := w / 2 ^ 22 % 2 == 1, dst := fld w 16 6, a := a, b := b }

/-- The fields of format AI at their places. -/
def FmtAI.pack (f : FmtAI) : Nat :=
  f.pred.toNat * 2 ^ 23 + bit f.ws * 2 ^ 22 + f.dst.toNat * 2 ^ 16 + f.a.toBits * 2 ^ 8 + f.imm.toNat

/-- Format AI read back from a word and its neighbour. -/
def FmtAI.unpack (sl : ScalarSlot) (w : Nat) (lng : Option (BitVec 32)) : Option FmtAI :=
  (Operand.ofBits (w / 2 ^ 8 % 256)).bind fun a =>
  some { sl := sl, pred := fld w 23 3, ws := w / 2 ^ 22 % 2 == 1, dst := fld w 16 6, a := a, imm := fld w 0 8, lng := lng }

/-- The fields of format AS at their places. -/
def FmtAS.pack (f : FmtAS) : Nat :=
  f.pred.toNat * 2 ^ 23 + bit f.ws * 2 ^ 22 + f.dst.toNat * 2 ^ 16 + f.a.toBits * 2 ^ 8 + f.n.toNat

/-- Format AS read back from a word. -/
def FmtAS.unpack (sl : ScalarSlot) (w : Nat) : Option FmtAS :=
  (Operand.ofBits (w / 2 ^ 8 % 256)).bind fun a =>
  some { sl := sl, pred := fld w 23 3, ws := w / 2 ^ 22 % 2 == 1, dst := fld w 16 6, a := a, n := fld w 0 6 }

/-- The fields of format AU at their places. -/
def FmtAU.pack (f : FmtAU) : Nat :=
  f.pred.toNat * 2 ^ 23 + bit f.ws * 2 ^ 22 + f.dst.toNat * 2 ^ 16 + f.a.toBits * 2 ^ 8

/-- Format AU read back from a word. -/
def FmtAU.unpack (sl : ScalarSlot) (w : Nat) : Option FmtAU :=
  (Operand.ofBits (w / 2 ^ 8 % 256)).bind fun a =>
  some { sl := sl, pred := fld w 23 3, ws := w / 2 ^ 22 % 2 == 1, dst := fld w 16 6, a := a }

/-- The fields of format AC at their places. -/
def FmtAC.pack (f : FmtAC) : Nat :=
  f.pred.toNat * 2 ^ 23 + bit f.ws * 2 ^ 22 + f.cond.toNat * 2 ^ 19 + f.pd.toNat * 2 ^ 16 + f.a.toBits * 2 ^ 8 + f.b.toBits

/-- Format AC read back from a word and its neighbour. -/
def FmtAC.unpack (sl : ScalarSlot) (w : Nat) (lng : Option (BitVec 32)) : Option FmtAC :=
  (Operand.ofBits (w / 2 ^ 8 % 256)).bind fun a =>
  (Operand.ofBits (w / 2 ^ 0 % 256)).bind fun b =>
  some { sl := sl, pred := fld w 23 3, ws := w / 2 ^ 22 % 2 == 1, cond := fld w 19 3, pd := fld w 16 3, a := a, b := b, lng := lng }

/-- The fields of format ACI at their places. -/
def FmtACI.pack (f : FmtACI) : Nat :=
  f.pred.toNat * 2 ^ 23 + bit f.ws * 2 ^ 22 + f.cond.toNat * 2 ^ 19 + f.pd.toNat * 2 ^ 16 + f.a.toBits * 2 ^ 8 + f.imm.toNat

/-- Format ACI read back from a word and its neighbour. -/
def FmtACI.unpack (sl : ScalarSlot) (w : Nat) (lng : Option (BitVec 32)) : Option FmtACI :=
  (Operand.ofBits (w / 2 ^ 8 % 256)).bind fun a =>
  some { sl := sl, pred := fld w 23 3, ws := w / 2 ^ 22 % 2 == 1, cond := fld w 19 3, pd := fld w 16 3, a := a, imm := fld w 0 8, lng := lng }

/-- The fields of format AL at their places. -/
def FmtAL.pack (f : FmtAL) : Nat :=
  f.pred.toNat * 2 ^ 23 + bit f.ws * 2 ^ 22 + f.dst.toNat * 2 ^ 16

/-- Format AL read back from a word and its neighbour. -/
def FmtAL.unpack (sl : ScalarSlot) (w : Nat) (lng : Option (BitVec 32)) : Option FmtAL :=
  lng.map fun lng =>
  { sl := sl, pred := fld w 23 3, ws := w / 2 ^ 22 % 2 == 1, dst := fld w 16 6, lng := lng }

/-- The fields of format AV at their places. -/
def FmtAV.pack (f : FmtAV) : Nat :=
  f.pred.toNat * 2 ^ 23 + bit f.ws * 2 ^ 22 + f.dst.toNat * 2 ^ 16 + f.a.toBits * 2 ^ 8 + f.cvTo.toNat * 2 ^ 4 + f.cvFrom.toNat

/-- Format AV read back from a word. -/
def FmtAV.unpack (sl : ScalarSlot) (w : Nat) : Option FmtAV :=
  (Operand.ofBits (w / 2 ^ 8 % 256)).bind fun a =>
  some { sl := sl, pred := fld w 23 3, ws := w / 2 ^ 22 % 2 == 1, dst := fld w 16 6, a := a, cvTo := fld w 4 4, cvFrom := fld w 0 4 }

/-- The fields of format BKw at their places. -/
def FmtBKw.pack (f : FmtBKw) : Nat :=
  f.pred.toNat * 2 ^ 23 + bit f.ws * 2 ^ 22 + f.k.toNat * 2 ^ 16 + f.b.toBits

/-- Format BKw read back from a word and its neighbour. -/
def FmtBKw.unpack (w : Nat) (lng : Option (BitVec 32)) : Option FmtBKw :=
  (Operand.ofBits (w / 2 ^ 0 % 256)).bind fun b =>
  some { pred := fld w 23 3, ws := w / 2 ^ 22 % 2 == 1, k := fld w 16 4, b := b, lng := lng }

/-- The fields of format BKr at their places. -/
def FmtBKr.pack (f : FmtBKr) : Nat :=
  f.pred.toNat * 2 ^ 23 + bit f.ws * 2 ^ 22 + f.dst.toNat * 2 ^ 16 + f.k.toNat * 2 ^ 8

/-- Format BKr read back from a word. -/
def FmtBKr.unpack (w : Nat) : Option FmtBKr :=
  some { pred := fld w 23 3, ws := w / 2 ^ 22 % 2 == 1, dst := fld w 16 6, k := fld w 8 4 }

/-- The fields of format BG at their places. -/
def FmtBG.pack (f : FmtBG) : Nat :=
  f.pred.toNat * 2 ^ 23 + bit f.ws * 2 ^ 22 + f.dst.toNat * 2 ^ 16 + f.num.toNat * 2 ^ 8

/-- Format BG read back from a word. -/
def FmtBG.unpack (w : Nat) : Option FmtBG :=
  some { pred := fld w 23 3, ws := w / 2 ^ 22 % 2 == 1, dst := fld w 16 6, num := fld w 8 8 }

/-- The fields of format BS at their places. -/
def FmtBS.pack (f : FmtBS) : Nat :=
  f.pred.toNat * 2 ^ 23 + f.num.toNat * 2 ^ 8 + f.b.toBits

/-- Format BS read back from a word. -/
def FmtBS.unpack (w : Nat) : Option FmtBS :=
  (Operand.ofBits (w / 2 ^ 0 % 256)).bind fun b =>
  some { pred := fld w 23 3, num := fld w 8 8, b := b }

/-- The fields of format BP2 at their places. -/
def FmtBP2.pack (f : FmtBP2) : Nat :=
  f.pred.toNat * 2 ^ 23 + bit f.ws * 2 ^ 22 + f.pd.toNat * 2 ^ 16 + f.pa.toNat * 2 ^ 8 + f.pb.toNat

/-- Format BP2 read back from a word. -/
def FmtBP2.unpack (w : Nat) : Option FmtBP2 :=
  some { pred := fld w 23 3, ws := w / 2 ^ 22 % 2 == 1, pd := fld w 16 3, pa := fld w 8 3, pb := fld w 0 3 }

/-- The fields of format BP1 at their places. -/
def FmtBP1.pack (f : FmtBP1) : Nat :=
  f.pred.toNat * 2 ^ 23 + bit f.ws * 2 ^ 22 + f.pd.toNat * 2 ^ 16 + f.pa.toNat * 2 ^ 8

/-- Format BP1 read back from a word. -/
def FmtBP1.unpack (w : Nat) : Option FmtBP1 :=
  some { pred := fld w 23 3, ws := w / 2 ^ 22 % 2 == 1, pd := fld w 16 3, pa := fld w 8 3 }

/-- The fields of format BD at their places. -/
def FmtBD.pack (f : FmtBD) : Nat :=
  f.pred.toNat * 2 ^ 23 + bit f.ws * 2 ^ 22 + f.dst.toNat * 2 ^ 16

/-- Format BD read back from a word. -/
def FmtBD.unpack (w : Nat) : Option FmtBD :=
  some { pred := fld w 23 3, ws := w / 2 ^ 22 % 2 == 1, dst := fld w 16 6 }

/-- The fields of format BPs at their places. -/
def FmtBPs.pack (f : FmtBPs) : Nat :=
  f.pred.toNat * 2 ^ 23 + bit f.ws * 2 ^ 22 + f.msk.toNat * 2 ^ 8 + f.b.toBits

/-- Format BPs read back from a word. -/
def FmtBPs.unpack (w : Nat) : Option FmtBPs :=
  (Operand.ofBits (w / 2 ^ 0 % 256)).bind fun b =>
  some { pred := fld w 23 3, ws := w / 2 ^ 22 % 2 == 1, msk := fld w 8 8, b := b }

/-- The fields of format BPm at their places. -/
def FmtBPm.pack (f : FmtBPm) : Nat :=
  f.pred.toNat * 2 ^ 23 + bit f.ws * 2 ^ 22 + f.dst.toNat * 2 ^ 16 + f.a.toBits * 2 ^ 8

/-- Format BPm read back from a word. -/
def FmtBPm.unpack (w : Nat) : Option FmtBPm :=
  (Operand.ofBits (w / 2 ^ 8 % 256)).bind fun a =>
  some { pred := fld w 23 3, ws := w / 2 ^ 22 % 2 == 1, dst := fld w 16 6, a := a }

/-- The fields of format ML at their places. -/
def FmtML.pack (f : FmtML) : Nat :=
  f.pred.toNat * 2 ^ 24 + f.cls.toNat * 2 ^ 20 + f.dst.toNat * 2 ^ 14 + f.base.toBits * 2 ^ 6 + f.off.toNat

/-- Format ML read back from a word and its neighbour. -/
def FmtML.unpack (w : Nat) (lng : Option (BitVec 32)) : Option FmtML :=
  (Operand.ofBits (w / 2 ^ 6 % 256)).bind fun base =>
  some { pred := fld w 24 3, cls := fld w 20 4, dst := fld w 14 6, base := base, off := fld w 0 6, lng := lng }

/-- The fields of format MP at their places. -/
def FmtMP.pack (f : FmtMP) : Nat :=
  f.pred.toNat * 2 ^ 24 + f.cls.toNat * 2 ^ 20 + f.base.toBits * 2 ^ 6 + f.off.toNat

/-- Format MP read back from a word and its neighbour. -/
def FmtMP.unpack (w : Nat) (lng : Option (BitVec 32)) : Option FmtMP :=
  (Operand.ofBits (w / 2 ^ 6 % 256)).bind fun base =>
  some { pred := fld w 24 3, cls := fld w 20 4, base := base, off := fld w 0 6, lng := lng }

/-- The fields of format MS at their places. -/
def FmtMS.pack (f : FmtMS) : Nat :=
  f.pred.toNat * 2 ^ 24 + f.cls.toNat * 2 ^ 20 + f.data.toBits * 2 ^ 12 + f.base.toBits * 2 ^ 4 + f.off.toNat

/-- Format MS read back from a word and its neighbour. -/
def FmtMS.unpack (w : Nat) (lng : Option (BitVec 32)) : Option FmtMS :=
  (Operand.ofBits (w / 2 ^ 12 % 256)).bind fun data =>
  (Operand.ofBits (w / 2 ^ 4 % 256)).bind fun base =>
  some { pred := fld w 24 3, cls := fld w 20 4, data := data, base := base, off := fld w 0 4, lng := lng }

/-- The fields of format MT at their places. -/
def FmtMT.pack (f : FmtMT) : Nat :=
  f.pred.toNat * 2 ^ 24 + f.cls.toNat * 2 ^ 20 + f.tile.toNat * 2 ^ 16 + f.row.toNat * 2 ^ 11 + f.base.toBits * 2 ^ 3 + f.off.toNat

/-- Format MT read back from a word and its neighbour. -/
def FmtMT.unpack (w : Nat) (lng : Option (BitVec 32)) : Option FmtMT :=
  (Operand.ofBits (w / 2 ^ 3 % 256)).bind fun base =>
  some { pred := fld w 24 3, cls := fld w 20 4, tile := fld w 16 4, row := fld w 11 5, base := base, off := fld w 0 3, lng := lng }

/-- The fields of format MA at their places. -/
def FmtMA.pack (f : FmtMA) : Nat :=
  f.pred.toNat * 2 ^ 24 + f.cls.toNat * 2 ^ 20 + f.dst.toNat * 2 ^ 14 + f.base.toBits * 2 ^ 6 + f.data.toNat

/-- Format MA read back from a word. -/
def FmtMA.unpack (w : Nat) : Option FmtMA :=
  (Operand.ofBits (w / 2 ^ 6 % 256)).bind fun base =>
  some { pred := fld w 24 3, cls := fld w 20 4, dst := fld w 14 6, base := base, data := fld w 0 6 }

/-- The fields of format MFc at their places. -/
def FmtMFc.pack (f : FmtMFc) : Nat :=
  f.pred.toNat * 2 ^ 24 + f.msk.toNat * 2 ^ 8

/-- Format MFc read back from a word. -/
def FmtMFc.unpack (w : Nat) : Option FmtMFc :=
  some { pred := fld w 24 3, msk := fld w 8 16 }

/-- The fields of format MFx at their places. -/
def FmtMFx.pack (f : FmtMFx) : Nat :=
  f.pred.toNat * 2 ^ 24 + f.paths.toNat * 2 ^ 18

/-- Format MFx read back from a word. -/
def FmtMFx.unpack (w : Nat) : Option FmtMFx :=
  some { pred := fld w 24 3, paths := fld w 18 6 }

/-- The fields of format MZ at their places. -/
def FmtMZ.pack (f : FmtMZ) : Nat :=
  f.pred.toNat * 2 ^ 24

/-- Format MZ read back from a word. -/
def FmtMZ.unpack (w : Nat) : Option FmtMZ :=
  some { pred := fld w 24 3 }

/-- The fields of format MIl at their places. -/
def FmtMIl.pack (f : FmtMIl) : Nat :=
  f.pred.toNat * 2 ^ 24 + f.dst.toNat * 2 ^ 18 + f.a.toBits * 2 ^ 10 + f.n.toBits * 2 ^ 2

/-- Format MIl read back from a word. -/
def FmtMIl.unpack (w : Nat) : Option FmtMIl :=
  (Operand.ofBits (w / 2 ^ 10 % 256)).bind fun a =>
  (Operand.ofBits (w / 2 ^ 2 % 256)).bind fun n =>
  some { pred := fld w 24 3, dst := fld w 18 6, a := a, n := n }

/-- The fields of format MIu at their places. -/
def FmtMIu.pack (f : FmtMIu) : Nat :=
  f.pred.toNat * 2 ^ 24 + f.a.toBits * 2 ^ 16 + f.n.toBits * 2 ^ 8

/-- Format MIu read back from a word. -/
def FmtMIu.unpack (w : Nat) : Option FmtMIu :=
  (Operand.ofBits (w / 2 ^ 16 % 256)).bind fun a =>
  (Operand.ofBits (w / 2 ^ 8 % 256)).bind fun n =>
  some { pred := fld w 24 3, a := a, n := n }

/-- The fields of format MSl at their places. -/
def FmtMSl.pack (f : FmtMSl) : Nat :=
  f.pred.toNat * 2 ^ 24 + f.dst.toNat * 2 ^ 15 + f.x.toBits * 2 ^ 7

/-- Format MSl read back from a word. -/
def FmtMSl.unpack (w : Nat) : Option FmtMSl :=
  (Operand.ofBits (w / 2 ^ 7 % 256)).bind fun x =>
  some { pred := fld w 24 3, dst := fld w 15 6, x := x }

/-- The fields of format V at their places. -/
def FmtV.pack (f : FmtV) : Nat :=
  f.pred.toNat * 2 ^ 23 + f.row.toNat * 2 ^ 18 + f.td.toNat * 2 ^ 14 + f.ta.toNat * 2 ^ 10 + f.tb.toNat * 2 ^ 6 + f.ty.toNat * 2 ^ 3 + f.msk.toNat * 2 ^ 1

/-- Format V read back from a word. -/
def FmtV.unpack (w : Nat) : Option FmtV :=
  some { pred := fld w 23 3, row := fld w 18 5, td := fld w 14 4, ta := fld w 10 4, tb := fld w 6 4, ty := fld w 3 3, msk := fld w 1 2 }

/-- The fields of format VS at their places. -/
def FmtVS.pack (f : FmtVS) : Nat :=
  f.pred.toNat * 2 ^ 23 + f.row.toNat * 2 ^ 18 + f.td.toNat * 2 ^ 14 + f.tb.toNat * 2 ^ 6 + f.ty.toNat * 2 ^ 3 + f.msk.toNat * 2 ^ 1

/-- Format VS read back from a word and its neighbour. -/
def FmtVS.unpack (w : Nat) (lng : Option (BitVec 32)) : Option FmtVS :=
  some { pred := fld w 23 3, row := fld w 18 5, td := fld w 14 4, tb := fld w 6 4, ty := fld w 3 3, msk := fld w 1 2, lng := lng }

/-- The fields of format VF at their places. -/
def FmtVF.pack (f : FmtVF) : Nat :=
  f.pred.toNat * 2 ^ 23 + f.row.toNat * 2 ^ 18 + f.td.toNat * 2 ^ 14 + f.ta.toNat * 2 ^ 10 + f.tb.toNat * 2 ^ 6 + f.idx.toNat

/-- Format VF read back from a word. -/
def FmtVF.unpack (w : Nat) : Option FmtVF :=
  some { pred := fld w 23 3, row := fld w 18 5, td := fld w 14 4, ta := fld w 10 4, tb := fld w 6 4, idx := fld w 0 6 }

/-- The fields of format XL at their places. -/
def FmtXL.pack (f : FmtXL) : Nat :=
  f.pred.toNat * 2 ^ 24 + f.n.toNat * 2 ^ 18

/-- Format XL read back from a word. -/
def FmtXL.unpack (w : Nat) : Option FmtXL :=
  some { pred := fld w 24 3, n := fld w 18 6 }

/-- The fields of format XZ at their places. -/
def FmtXZ.pack (f : FmtXZ) : Nat :=
  f.pred.toNat * 2 ^ 24

/-- Format XZ read back from a word. -/
def FmtXZ.unpack (w : Nat) : Option FmtXZ :=
  some { pred := fld w 24 3 }

/-- The fields of format XD at their places. -/
def FmtXD.pack (f : FmtXD) : Nat :=
  f.pred.toNat * 2 ^ 24 + f.off.toBits * 2 ^ 16 + f.key.toNat * 2 ^ 11 + f.fb.toNat * 2 ^ 8 + f.sb.toNat * 2 ^ 7

/-- Format XD read back from a word. -/
def FmtXD.unpack (w : Nat) : Option FmtXD :=
  (Operand.ofBits (w / 2 ^ 16 % 256)).bind fun off =>
  some { pred := fld w 24 3, off := off, key := fld w 11 5, fb := fld w 8 3, sb := fld w 7 1 }

/-- The fields of format XM at their places. -/
def FmtXM.pack (f : FmtXM) : Nat :=
  f.pred.toNat * 2 ^ 24 + f.ta.toNat * 2 ^ 20 + f.g.toNat * 2 ^ 19 + f.sb.toNat * 2 ^ 18 + f.fa.toNat * 2 ^ 15 + f.za.toNat * 2 ^ 13

/-- Format XM read back from a word. -/
def FmtXM.unpack (w : Nat) : Option FmtXM :=
  some { pred := fld w 24 3, ta := fld w 20 4, g := fld w 19 1, sb := fld w 18 1, fa := fld w 15 3, za := fld w 13 2 }

/-- The fields of format XR at their places. -/
def FmtXR.pack (f : FmtXR) : Nat :=
  f.pred.toNat * 2 ^ 24 + f.bank.toNat * 2 ^ 21 + f.brow.toNat * 2 ^ 17 + f.tile.toNat * 2 ^ 13 + f.trow.toNat * 2 ^ 9 + f.ty.toNat * 2 ^ 6

/-- Format XR read back from a word. -/
def FmtXR.unpack (w : Nat) : Option FmtXR :=
  some { pred := fld w 24 3, bank := fld w 21 3, brow := fld w 17 4, tile := fld w 13 4, trow := fld w 9 4, ty := fld w 6 3 }

/-- The fields of format XB at their places. -/
def FmtXB.pack (f : FmtXB) : Nat :=
  f.pred.toNat * 2 ^ 24 + f.bank.toNat * 2 ^ 21

/-- Format XB read back from a word. -/
def FmtXB.unpack (w : Nat) : Option FmtXB :=
  some { pred := fld w 24 3, bank := fld w 21 3 }

/-- The fields of format XK at their places. -/
def FmtXK.pack (f : FmtXK) : Nat :=
  f.pred.toNat * 2 ^ 24 + f.key.toNat * 2 ^ 19

/-- Format XK read back from a word. -/
def FmtXK.unpack (w : Nat) : Option FmtXK :=
  some { pred := fld w 24 3, key := fld w 19 5 }

/-- The fields of format XC at their places. -/
def FmtXC.pack (f : FmtXC) : Nat :=
  f.pred.toNat * 2 ^ 24 + f.dst.toNat * 2 ^ 18 + f.reg.toBits * 2 ^ 10

/-- Format XC read back from a word. -/
def FmtXC.unpack (w : Nat) : Option FmtXC :=
  (Operand.ofBits (w / 2 ^ 10 % 256)).bind fun reg =>
  some { pred := fld w 24 3, dst := fld w 18 6, reg := reg }

/-- The fields of format XS at their places. -/
def FmtXS.pack (f : FmtXS) : Nat :=
  f.pred.toNat * 2 ^ 24 + f.dst.toNat * 2 ^ 18 + f.bank.toNat * 2 ^ 15

/-- Format XS read back from a word. -/
def FmtXS.unpack (w : Nat) : Option FmtXS :=
  some { pred := fld w 24 3, dst := fld w 18 6, bank := fld w 15 3 }

/-- The fields of format E at their places. -/
def FmtE.pack (f : FmtE) : Nat :=
  f.pred.toNat * 2 ^ 23 + f.cls.toNat * 2 ^ 19 + f.evt.toNat * 2 ^ 15 + f.kb.toNat * 2 ^ 11 + f.flags.toNat

/-- Format E read back from a word. -/
def FmtE.unpack (w : Nat) : Option FmtE :=
  some { pred := fld w 23 3, cls := fld w 19 4, evt := fld w 15 4, kb := fld w 11 4, flags := fld w 0 11 }

/-- The fields of format FS at their places. -/
def FmtFS.pack (f : FmtFS) : Nat :=
  f.scope.toNat

/-- Format FS read back from a word. -/
def FmtFS.unpack (w : Nat) : Option FmtFS :=
  some { scope := fld w 0 3 }

/-- The fields of format FL at their places. -/
def FmtFL.pack (f : FmtFL) : Nat :=
  f.pred.toNat * 2 ^ 24 + f.z.toNat * 2 ^ 22 + f.base.toBits * 2 ^ 14 + f.cls.toNat * 2 ^ 10

/-- Format FL read back from a word. -/
def FmtFL.unpack (w : Nat) : Option FmtFL :=
  (Operand.ofBits (w / 2 ^ 14 % 256)).bind fun base =>
  some { pred := fld w 24 3, z := fld w 22 2, base := base, cls := fld w 10 4 }

/-- The fields of format FW at their places. -/
def FmtFW.pack (f : FmtFW) : Nat :=
  f.pred.toNat * 2 ^ 24 + f.f.toNat * 2 ^ 21 + f.a.toBits * 2 ^ 13

/-- Format FW read back from a word. -/
def FmtFW.unpack (w : Nat) : Option FmtFW :=
  (Operand.ofBits (w / 2 ^ 13 % 256)).bind fun a =>
  some { pred := fld w 24 3, f := fld w 21 3, a := a }

/-- The fields of format FR at their places. -/
def FmtFR.pack (f : FmtFR) : Nat :=
  f.pred.toNat * 2 ^ 24 + f.f.toNat * 2 ^ 21 + f.dst.toNat * 2 ^ 15

/-- Format FR read back from a word. -/
def FmtFR.unpack (w : Nat) : Option FmtFR :=
  some { pred := fld w 24 3, f := fld w 21 3, dst := fld w 15 6 }

/-- The fields of format FB at their places. -/
def FmtFB.pack (f : FmtFB) : Nat :=
  f.pred.toNat * 2 ^ 24 + f.row.toNat * 2 ^ 19 + f.td.toNat * 2 ^ 15 + f.ta.toNat * 2 ^ 11 + f.id.toNat * 2 ^ 5

/-- Format FB read back from a word. -/
def FmtFB.unpack (w : Nat) : Option FmtFB :=
  some { pred := fld w 24 3, row := fld w 19 5, td := fld w 15 4, ta := fld w 11 4, id := fld w 5 6 }

/-- The fields of format FF at their places. -/
def FmtFF.pack (f : FmtFF) : Nat :=
  f.pred.toNat * 2 ^ 24 + f.row.toNat * 2 ^ 19 + f.td.toNat * 2 ^ 15 + f.ta.toNat * 2 ^ 11

/-- Format FF read back from a word. -/
def FmtFF.unpack (w : Nat) : Option FmtFF :=
  some { pred := fld w 24 3, row := fld w 19 5, td := fld w 15 4, ta := fld w 11 4 }

/-- The fields of format FT at their places. -/
def FmtFT.pack (f : FmtFT) : Nat :=
  f.pred.toNat * 2 ^ 24 + f.dst.toNat * 2 ^ 18 + f.a.toBits * 2 ^ 10

/-- Format FT read back from a word. -/
def FmtFT.unpack (w : Nat) : Option FmtFT :=
  (Operand.ofBits (w / 2 ^ 10 % 256)).bind fun a =>
  some { pred := fld w 24 3, dst := fld w 18 6, a := a }

/-- The fields of format FH at their places. -/
def FmtFH.pack (f : FmtFH) : Nat :=
  f.pred.toNat * 2 ^ 24 + f.pay.toNat

/-- Format FH read back from a word. -/
def FmtFH.unpack (w : Nat) : Option FmtFH :=
  some { pred := fld w 24 3, pay := fld w 0 24 }

/-- The fields of format FD at their places. -/
def FmtFD.pack (f : FmtFD) : Nat :=
  f.pred.toNat * 2 ^ 24 + f.a.toBits * 2 ^ 16

/-- Format FD read back from a word. -/
def FmtFD.unpack (w : Nat) : Option FmtFD :=
  (Operand.ofBits (w / 2 ^ 16 % 256)).bind fun a =>
  some { pred := fld w 24 3, a := a }

/-- The fixed bits of an encoding with its fields. -/
def place (op fields : Nat) : Nat := op + fields

/-- The 32 bits of a slot operation, SURR of slot 0 taken as zero; 0 for a step of the device (R163 to R182). -/
def encodeNat : Instr → Nat
  | .nopC => 0
  | .br f => place 262144 f.pack
  | .brn f => place 524288 f.pack
  | .brL f => place 786432 f.pack
  | .bri f => place 1048576 f.pack
  | .call f => place 1310720 f.pack
  | .callL f => place 1572864 f.pack
  | .calli f => place 1835008 f.pack
  | .ret f => place 2097152 f.pack
  | .loop f => place 2359296 f.pack
  | .loopr f => place 2621440 f.pack
  | .loopL f => place 2883584 f.pack
  | .leave f => place 3145728 f.pack
  | .safe f => place 3407872 f.pack
  | .yield f => place 3670016 f.pack
  | .halt f => place 3932160 f.pack
  | .trap f => place 4194304 f.pack
  | .brk f => place 4456448 f.pack
  | .barArr f => place 4718592 f.pack
  | .barWait f => place 4980736 f.pack
  | .barSync f => place 5242880 f.pack
  | .eret f => place 5505024 f.pack
  | .nop _ => 0
  | .add f => place 67108864 f.pack
  | .addi f => place 134217728 f.pack
  | .sub f => place 201326592 f.pack
  | .mul f => place 268435456 f.pack
  | .mulhI f => place 335544320 f.pack
  | .mulhW f => place 402653184 f.pack
  | .divI f => place 469762048 f.pack
  | .divW f => place 536870912 f.pack
  | .remI f => place 603979776 f.pack
  | .remW f => place 671088640 f.pack
  | .and f => place 738197504 f.pack
  | .or f => place 805306368 f.pack
  | .xor f => place 872415232 f.pack
  | .andn f => place 939524096 f.pack
  | .andi f => place 1006632960 f.pack
  | .ori f => place 1073741824 f.pack
  | .xori f => place 1140850688 f.pack
  | .shl f => place 1207959552 f.pack
  | .shr f => place 1275068416 f.pack
  | .sar f => place 1342177280 f.pack
  | .rol f => place 1409286144 f.pack
  | .shli f => place 1476395008 f.pack
  | .shri f => place 1543503872 f.pack
  | .sari f => place 1610612736 f.pack
  | .clz f => place 1677721600 f.pack
  | .ctz f => place 1744830464 f.pack
  | .popc f => place 1811939328 f.pack
  | .minI f => place 1879048192 f.pack
  | .maxI f => place 1946157056 f.pack
  | .minW f => place 2013265920 f.pack
  | .maxW f => place 2080374784 f.pack
  | .cmp f => place 2147483648 f.pack
  | .cmpi f => place 2214592512 f.pack
  | .sel f => place 2281701376 f.pack
  | .extI f => place 2348810240 f.pack
  | .extW f => place 2415919104 f.pack
  | .ins f => place 2483027968 f.pack
  | .movl f => place 2550136832 f.pack
  | .movh f => place 2617245696 f.pack
  | .fadd f => place 2684354560 f.pack
  | .fsub f => place 2751463424 f.pack
  | .fmul f => place 2818572288 f.pack
  | .fmac f => place 2885681152 f.pack
  | .fmin f => place 2952790016 f.pack
  | .fmax f => place 3019898880 f.pack
  | .fcmp f => place 3087007744 f.pack
  | .fcvt f => place 3154116608 f.pack
  | .kw f => place 3221225472 f.pack
  | .kr f => place 3288334336 f.pack
  | .gsr f => place 3355443200 f.pack
  | .ssr f => place 3422552064 f.pack
  | .pand f => place 3489660928 f.pack
  | .por f => place 3556769792 f.pack
  | .pxor f => place 3623878656 f.pack
  | .pnot f => place 3690987520 f.pack
  | .pget f => place 3758096384 f.pack
  | .pset f => place 3825205248 f.pack
  | .rdcyc f => place 3892314112 f.pack
  | .param f => place 3959422976 f.pack
  | .nopM => 0
  | .ldI8 f => place 134217728 f.pack
  | .ldW8 f => place 268435456 f.pack
  | .ldI16 f => place 402653184 f.pack
  | .ldW16 f => place 536870912 f.pack
  | .ldI32 f => place 671088640 f.pack
  | .ldW32 f => place 805306368 f.pack
  | .ld64 f => place 939524096 f.pack
  | .st8 f => place 1073741824 f.pack
  | .st16 f => place 1207959552 f.pack
  | .st32 f => place 1342177280 f.pack
  | .st64 f => place 1476395008 f.pack
  | .ldt f => place 1610612736 f.pack
  | .stt f => place 1744830464 f.pack
  | .ldtf f => place 1879048192 f.pack
  | .sttf f => place 2013265920 f.pack
  | .amoAdd f => place 2147483648 f.pack
  | .amoMinI f => place 2281701376 f.pack
  | .amoMaxI f => place 2415919104 f.pack
  | .amoAnd f => place 2550136832 f.pack
  | .amoOr f => place 2684354560 f.pack
  | .amoXor f => place 2818572288 f.pack
  | .amoSwp f => place 2952790016 f.pack
  | .amoCas f => place 3087007744 f.pack
  | .amoFadd f => place 3221225472 f.pack
  | .pref f => place 3355443200 f.pack
  | .fenceC f => place 3489660928 f.pack
  | .fenceX f => place 3623878656 f.pack
  | .fenceE f => place 3758096384 f.pack
  | .ilock f => place 3892314112 f.pack
  | .iunlk f => place 4026531840 f.pack
  | .slabDef f => place 4160749568 f.pack
  | .slabRel f => place 4162846720 f.pack
  | .slabQry f => place 4164943872 f.pack
  | .slabRdy f => place 4167041024 f.pack
  | .slabEmp f => place 4169138176 f.pack
  | .nopV => 0
  | .vadd f => place 67108864 f.pack
  | .vsub f => place 134217728 f.pack
  | .vmul f => place 201326592 f.pack
  | .vfma f => place 268435456 f.pack
  | .vfms f => place 335544320 f.pack
  | .vmin f => place 402653184 f.pack
  | .vmax f => place 469762048 f.pack
  | .vabs f => place 536870912 f.pack
  | .vneg f => place 603979776 f.pack
  | .vand f => place 671088640 f.pack
  | .vor f => place 738197504 f.pack
  | .vxor f => place 805306368 f.pack
  | .vshl f => place 872415232 f.pack
  | .vshr f => place 939524096 f.pack
  | .vsar f => place 1006632960 f.pack
  | .vcmpeq f => place 1073741824 f.pack
  | .vcmpne f => place 1140850688 f.pack
  | .vcmplt f => place 1207959552 f.pack
  | .vcmple f => place 1275068416 f.pack
  | .vsel f => place 1342177280 f.pack
  | .vcvt f => place 1409286144 f.pack
  | .vcvtn f => place 1476395008 f.pack
  | .vcvtw f => place 1543503872 f.pack
  | .vrotr f => place 1610612736 f.pack
  | .vrotc f => place 1677721600 f.pack
  | .vbcr f => place 1744830464 f.pack
  | .vbcc f => place 1811939328 f.pack
  | .vredrAdd f => place 1879048192 f.pack
  | .vredrMax f => place 1946157056 f.pack
  | .vredrMin f => place 2013265920 f.pack
  | .vredcAdd f => place 2080374784 f.pack
  | .vredcMax f => place 2147483648 f.pack
  | .vredcMin f => place 2214592512 f.pack
  | .vshuf f => place 2281701376 f.pack
  | .vpatld f => place 2348810240 f.pack
  | .vpatsw f => place 2415919104 f.pack
  | .vpart f => place 2483027968 f.pack
  | .vgath f => place 2550136832 f.pack
  | .vscat f => place 2617245696 f.pack
  | .vmov f => place 2684354560 f.pack
  | .vmovPop f => place 2684354560 f.pack
  | .vmovPush f => place 2684354560 f.pack
  | .vsplat f => place 2751463424 f.pack
  | .viota f => place 2818572288 f.pack
  | .vmskAnd f => place 2885681152 f.pack
  | .vmskOr f => place 2885681152 f.pack
  | .vmskXor f => place 2885681152 f.pack
  | .vmskAndn f => place 2885681152 f.pack
  | .vmskCopy f => place 2885681152 f.pack
  | .vmskNot f => place 2885681152 f.pack
  | .vmskFirst f => place 2885681152 f.pack
  | .vmcnt f => place 2952790016 f.pack
  | .vacc f => place 3019898880 f.pack
  | .vfree f => place 3087007744 f.pack
  | .nopX => 0
  | .mlease f => place 134217728 f.pack
  | .mrel f => place 268435456 f.pack
  | .mlds f => place 402653184 f.pack
  | .mma f => place 536870912 f.pack
  | .mmaAcc f => place 536875008 f.pack
  | .macr f => place 671088640 f.pack
  | .macw f => place 805306368 f.pack
  | .macz f => place 939524096 f.pack
  | .mkz f => place 1073741824 f.pack
  | .mkzAll f => place 1074003968 f.pack
  | .mcntLoads f => place 1207959552 f.pack
  | .mcntSteps f => place 1207960064 f.pack
  | .mstat f => place 1342177280 f.pack
  | .nopE => 0
  | .cpy f => place 67108864 f.pack
  | .cpy2d f => place 134217728 f.pack
  | .cpys f => place 201326592 f.pack
  | .cpyd f => place 268435456 f.pack
  | .gath f => place 335544320 f.pack
  | .scat f => place 402653184 f.pack
  | .bsld f => place 469762048 f.pack
  | .tnew f => place 536870912 f.pack
  | .tdel f => place 603979776 f.pack
  | .tlend f => place 671088640 f.pack
  | .tgive f => place 738197504 f.pack
  | .tret f => place 805306368 f.pack
  | .tsplit f => place 872415232 f.pack
  | .tmerge f => place 939524096 f.pack
  | .tshare f => place 1006632960 f.pack
  | .tashr f => place 1073741824 f.pack
  | .tunsh f => place 1140850688 f.pack
  | .tacq f => place 1207959552 f.pack
  | .trel f => place 1275068416 f.pack
  | .trevive f => place 1342177280 f.pack
  | .tqry f => place 1409286144 f.pack
  | .send f => place 1476395008 f.pack
  | .recv f => place 1543503872 f.pack
  | .coll f => place 1610612736 f.pack
  | .vfpush f => place 1677721600 f.pack
  | .vfpop f => place 1744830464 f.pack
  | .vfcnt f => place 1811939328 f.pack
  | .ewait f => place 1879048192 f.pack
  | .evr f => place 1946157056 f.pack
  | .eset f => place 2013265920 f.pack
  | .notify f => place 2080374784 f.pack
  | .launch f => place 2147483648 f.pack
  | .decide f => place 2214592512 f.pack
  | .cancel f => place 2281701376 f.pack
  | .scrub f => place 2348810240 f.pack
  | .splreq f => place 2415919104 f.pack
  | .rtset f => place 2483027968 f.pack
  | .nopF => 0
  | .scope f => place 134217728 f.pack
  | .scld f => place 268435456 f.pack
  | .fmtw f => place 402653184 f.pack
  | .fmtr f => place 536870912 f.pack
  | .fbx f => place 671088640 f.pack
  | .fexp2 f => place 805306368 f.pack
  | .flog2 f => place 939524096 f.pack
  | .frcp f => place 1073741824 f.pack
  | .frsq f => place 1207959552 f.pack
  | .fsqrt f => place 1342177280 f.pack
  | .ftanh f => place 1476395008 f.pack
  | .fsig f => place 1610612736 f.pack
  | .ttrd f => place 1744830464 f.pack
  | .hint f => place 1879048192 f.pack
  | .seedw f => place 2013265920 f.pack
  | .slotCommit _ _ _ _ => 0
  | .slotWithdraw _ _ _ => 0
  | .slotResume _ _ _ => 0
  | .slotRerun _ _ _ => 0
  | .slotCancel _ _ _ => 0
  | .recordStart _ _ => 0
  | .startTransferDone _ _ => 0
  | .preloadBegin _ _ => 0
  | .padPreloadBegin _ _ => 0
  | .preloadDone _ _ => 0
  | .budgetSpent _ _ => 0
  | .haltComplete _ _ => 0
  | .partModeWrite _ _ => 0
  | .sliceEnd _ => 0
  | .leaseGrant _ => 0
  | .engineServiceGrant _ _ => 0
  | .engineCommandEnd _ _ => 0
  | .scoreboardArrival _ _ _ => 0
  | .pairSyncWrite _ _ => 0
  | .pwrGateApply _ _ => 0
  | .pwrGateSelect _ _ => 0
  | .domainWakeDone _ _ => 0
  | .bankModeWrite _ _ => 0
  | .bankSwitchDone _ _ => 0
  | .tlbInvGo _ _ => 0
  | .tlbInvDone _ => 0
  | .tokenTransferComplete _ => 0
  | .uncorrectableError _ _ _ => 0
  | .packetRouterHop _ => 0
  | .packetHubHop _ => 0
  | .packetNodeArrive _ => 0
  | .faultReturnArrive _ => 0
  | .responseTimeout _ _ => 0
  | .suspendTimeout _ _ => 0
  | .userRouteLost _ _ => 0
  | .flitCrcFail _ _ => 0
  | .messageArrive _ => 0
  | .remoteEventBump _ => 0
  | .mldsLoadDone _ _ => 0
  | .keyInstall _ _ _ _ => 0
  | .preemptRequest _ _ => 0
  | .preemptBundleLimit _ _ => 0
  | .trapqHeadWrite _ _ => 0
  | .handlerLaunch _ _ _ _ _ => 0
  | .contextSave _ _ => 0
  | .streamingSave _ _ => 0
  | .contextRestore _ _ _ => 0
  | .dbgHalt _ _ => 0
  | .dbgStep _ _ => 0
  | .dbgResume _ _ => 0
  | .tdispLock _ _ => 0
  | .tdispRun _ => 0
  | .tdispError _ => 0
  | .ideIntegrityFail _ => 0
  | .partAssignWrite _ _ => 0
  | .hostMemoryRequest _ _ _ _ _ => 0
  | .qcfgWrite _ _ _ => 0
  | .qtailWrite _ _ => 0
  | .hostLaunch _ _ => 0
  | .hostGive _ _ => 0
  | .hostQuiesce _ _ => 0
  | .hostResume _ _ => 0
  | .hostReport _ _ => 0
  | .hostTeardown _ _ => 0
  | .commandComplete _ _ => 0
  | .declassifyAdd _ _ _ => 0
  | .declassifyRemove _ _ _ => 0
  | .floorRaiseDone _ _ => 0
  | .scrubProgStart _ _ => 0
  | .scrubProgSelect _ _ => 0
  | .teardownPhase2 _ => 0
  | .teardownPhase3 _ => 0
  | .partitionReset _ => 0
  | .powerOn => 0
  | .configUpdate _ _ _ => 0
  | .aidinLoad _ _ _ _ => 0
  | .nativeTranslate _ _ _ _ _ => 0
  | .spliceAnswer _ => 0
  | .iftSlice _ _ _ _ => 0
  | .iftGapTimeout _ => 0
  | .shadowDetect _ _ => 0
  | .shadowCntClr _ => 0
  | .replicaWarn _ => 0
  | .supplySag _ => 0
  | .hbmEccError _ _ _ _ _ => 0
  | .hbmParityFail _ _ _ _ _ _ => 0
  | .registerEccError _ _ _ _ => 0
  | .keySlotParityError _ _ => 0
  | .errLogCellClr => 0
  | .errLogXferClr => 0
  | .registerWrite _ _ _ => 0
  | .pageWalkDone _ _ => 0
  | .instructionFetchMissDone _ _ => 0
  | .linkMarkUp _ _ _ _ _ => 0
  | .tdispUnlock _ => 0
  | .slabUncorrectableError _ _ _ => 0
  | .tableUncorrectableError _ _ _ => 0
  | .supplyRecovery _ => 0
  | .graphSubmit _ _ _ => 0

/-- The long immediate an operation carries in its right neighbour's place (R164, R165). -/
def Instr.long : Instr → Option (BitVec 32)
  | .nopC => none
  | .br _ => none
  | .brn _ => none
  | .brL f => some f.lng
  | .bri _ => none
  | .call _ => none
  | .callL f => some f.lng
  | .calli _ => none
  | .ret _ => none
  | .loop _ => none
  | .loopr _ => none
  | .loopL f => some f.lng
  | .leave _ => none
  | .safe _ => none
  | .yield _ => none
  | .halt _ => none
  | .trap _ => none
  | .brk _ => none
  | .barArr _ => none
  | .barWait _ => none
  | .barSync _ => none
  | .eret _ => none
  | .nop _ => none
  | .add f => f.lng
  | .addi f => f.lng
  | .sub f => f.lng
  | .mul f => f.lng
  | .mulhI f => f.lng
  | .mulhW f => f.lng
  | .divI f => f.lng
  | .divW f => f.lng
  | .remI f => f.lng
  | .remW f => f.lng
  | .and f => f.lng
  | .or f => f.lng
  | .xor f => f.lng
  | .andn f => f.lng
  | .andi f => f.lng
  | .ori f => f.lng
  | .xori f => f.lng
  | .shl _ => none
  | .shr _ => none
  | .sar _ => none
  | .rol _ => none
  | .shli _ => none
  | .shri _ => none
  | .sari _ => none
  | .clz _ => none
  | .ctz _ => none
  | .popc _ => none
  | .minI f => f.lng
  | .maxI f => f.lng
  | .minW f => f.lng
  | .maxW f => f.lng
  | .cmp f => f.lng
  | .cmpi f => f.lng
  | .sel f => f.lng
  | .extI _ => none
  | .extW _ => none
  | .ins _ => none
  | .movl f => some f.lng
  | .movh f => some f.lng
  | .fadd f => f.lng
  | .fsub f => f.lng
  | .fmul f => f.lng
  | .fmac f => f.lng
  | .fmin f => f.lng
  | .fmax f => f.lng
  | .fcmp f => f.lng
  | .fcvt _ => none
  | .kw f => f.lng
  | .kr _ => none
  | .gsr _ => none
  | .ssr _ => none
  | .pand _ => none
  | .por _ => none
  | .pxor _ => none
  | .pnot _ => none
  | .pget _ => none
  | .pset _ => none
  | .rdcyc _ => none
  | .param _ => none
  | .nopM => none
  | .ldI8 f => f.lng
  | .ldW8 f => f.lng
  | .ldI16 f => f.lng
  | .ldW16 f => f.lng
  | .ldI32 f => f.lng
  | .ldW32 f => f.lng
  | .ld64 f => f.lng
  | .st8 f => f.lng
  | .st16 f => f.lng
  | .st32 f => f.lng
  | .st64 f => f.lng
  | .ldt f => f.lng
  | .stt f => f.lng
  | .ldtf f => f.lng
  | .sttf f => f.lng
  | .amoAdd _ => none
  | .amoMinI _ => none
  | .amoMaxI _ => none
  | .amoAnd _ => none
  | .amoOr _ => none
  | .amoXor _ => none
  | .amoSwp _ => none
  | .amoCas _ => none
  | .amoFadd _ => none
  | .pref f => f.lng
  | .fenceC _ => none
  | .fenceX _ => none
  | .fenceE _ => none
  | .ilock _ => none
  | .iunlk _ => none
  | .slabDef _ => none
  | .slabRel _ => none
  | .slabQry _ => none
  | .slabRdy _ => none
  | .slabEmp _ => none
  | .nopV => none
  | .vadd _ => none
  | .vsub _ => none
  | .vmul _ => none
  | .vfma _ => none
  | .vfms _ => none
  | .vmin _ => none
  | .vmax _ => none
  | .vabs _ => none
  | .vneg _ => none
  | .vand _ => none
  | .vor _ => none
  | .vxor _ => none
  | .vshl _ => none
  | .vshr _ => none
  | .vsar _ => none
  | .vcmpeq _ => none
  | .vcmpne _ => none
  | .vcmplt _ => none
  | .vcmple _ => none
  | .vsel _ => none
  | .vcvt _ => none
  | .vcvtn _ => none
  | .vcvtw _ => none
  | .vrotr _ => none
  | .vrotc _ => none
  | .vbcr _ => none
  | .vbcc _ => none
  | .vredrAdd _ => none
  | .vredrMax _ => none
  | .vredrMin _ => none
  | .vredcAdd _ => none
  | .vredcMax _ => none
  | .vredcMin _ => none
  | .vshuf _ => none
  | .vpatld _ => none
  | .vpatsw _ => none
  | .vpart _ => none
  | .vgath _ => none
  | .vscat _ => none
  | .vmov _ => none
  | .vmovPop _ => none
  | .vmovPush _ => none
  | .vsplat f => f.lng
  | .viota _ => none
  | .vmskAnd _ => none
  | .vmskOr _ => none
  | .vmskXor _ => none
  | .vmskAndn _ => none
  | .vmskCopy _ => none
  | .vmskNot _ => none
  | .vmskFirst _ => none
  | .vmcnt _ => none
  | .vacc _ => none
  | .vfree _ => none
  | .nopX => none
  | .mlease _ => none
  | .mrel _ => none
  | .mlds _ => none
  | .mma _ => none
  | .mmaAcc _ => none
  | .macr _ => none
  | .macw _ => none
  | .macz _ => none
  | .mkz _ => none
  | .mkzAll _ => none
  | .mcntLoads _ => none
  | .mcntSteps _ => none
  | .mstat _ => none
  | .nopE => none
  | .cpy _ => none
  | .cpy2d _ => none
  | .cpys _ => none
  | .cpyd _ => none
  | .gath _ => none
  | .scat _ => none
  | .bsld _ => none
  | .tnew _ => none
  | .tdel _ => none
  | .tlend _ => none
  | .tgive _ => none
  | .tret _ => none
  | .tsplit _ => none
  | .tmerge _ => none
  | .tshare _ => none
  | .tashr _ => none
  | .tunsh _ => none
  | .tacq _ => none
  | .trel _ => none
  | .trevive _ => none
  | .tqry _ => none
  | .send _ => none
  | .recv _ => none
  | .coll _ => none
  | .vfpush _ => none
  | .vfpop _ => none
  | .vfcnt _ => none
  | .ewait _ => none
  | .evr _ => none
  | .eset _ => none
  | .notify _ => none
  | .launch _ => none
  | .decide _ => none
  | .cancel _ => none
  | .scrub _ => none
  | .splreq _ => none
  | .rtset _ => none
  | .nopF => none
  | .scope _ => none
  | .scld _ => none
  | .fmtw _ => none
  | .fmtr _ => none
  | .fbx _ => none
  | .fexp2 _ => none
  | .flog2 _ => none
  | .frcp _ => none
  | .frsq _ => none
  | .fsqrt _ => none
  | .ftanh _ => none
  | .fsig _ => none
  | .ttrd _ => none
  | .hint _ => none
  | .seedw _ => none
  | .slotCommit _ _ _ _ => none
  | .slotWithdraw _ _ _ => none
  | .slotResume _ _ _ => none
  | .slotRerun _ _ _ => none
  | .slotCancel _ _ _ => none
  | .recordStart _ _ => none
  | .startTransferDone _ _ => none
  | .preloadBegin _ _ => none
  | .padPreloadBegin _ _ => none
  | .preloadDone _ _ => none
  | .budgetSpent _ _ => none
  | .haltComplete _ _ => none
  | .partModeWrite _ _ => none
  | .sliceEnd _ => none
  | .leaseGrant _ => none
  | .engineServiceGrant _ _ => none
  | .engineCommandEnd _ _ => none
  | .scoreboardArrival _ _ _ => none
  | .pairSyncWrite _ _ => none
  | .pwrGateApply _ _ => none
  | .pwrGateSelect _ _ => none
  | .domainWakeDone _ _ => none
  | .bankModeWrite _ _ => none
  | .bankSwitchDone _ _ => none
  | .tlbInvGo _ _ => none
  | .tlbInvDone _ => none
  | .tokenTransferComplete _ => none
  | .uncorrectableError _ _ _ => none
  | .packetRouterHop _ => none
  | .packetHubHop _ => none
  | .packetNodeArrive _ => none
  | .faultReturnArrive _ => none
  | .responseTimeout _ _ => none
  | .suspendTimeout _ _ => none
  | .userRouteLost _ _ => none
  | .flitCrcFail _ _ => none
  | .messageArrive _ => none
  | .remoteEventBump _ => none
  | .mldsLoadDone _ _ => none
  | .keyInstall _ _ _ _ => none
  | .preemptRequest _ _ => none
  | .preemptBundleLimit _ _ => none
  | .trapqHeadWrite _ _ => none
  | .handlerLaunch _ _ _ _ _ => none
  | .contextSave _ _ => none
  | .streamingSave _ _ => none
  | .contextRestore _ _ _ => none
  | .dbgHalt _ _ => none
  | .dbgStep _ _ => none
  | .dbgResume _ _ => none
  | .tdispLock _ _ => none
  | .tdispRun _ => none
  | .tdispError _ => none
  | .ideIntegrityFail _ => none
  | .partAssignWrite _ _ => none
  | .hostMemoryRequest _ _ _ _ _ => none
  | .qcfgWrite _ _ _ => none
  | .qtailWrite _ _ => none
  | .hostLaunch _ _ => none
  | .hostGive _ _ => none
  | .hostQuiesce _ _ => none
  | .hostResume _ _ => none
  | .hostReport _ _ => none
  | .hostTeardown _ _ => none
  | .commandComplete _ _ => none
  | .declassifyAdd _ _ _ => none
  | .declassifyRemove _ _ _ => none
  | .floorRaiseDone _ _ => none
  | .scrubProgStart _ _ => none
  | .scrubProgSelect _ _ => none
  | .teardownPhase2 _ => none
  | .teardownPhase3 _ => none
  | .partitionReset _ => none
  | .powerOn => none
  | .configUpdate _ _ _ => none
  | .aidinLoad _ _ _ _ => none
  | .nativeTranslate _ _ _ _ _ => none
  | .spliceAnswer _ => none
  | .iftSlice _ _ _ _ => none
  | .iftGapTimeout _ => none
  | .shadowDetect _ _ => none
  | .shadowCntClr _ => none
  | .replicaWarn _ => none
  | .supplySag _ => none
  | .hbmEccError _ _ _ _ _ => none
  | .hbmParityFail _ _ _ _ _ _ => none
  | .registerEccError _ _ _ _ => none
  | .keySlotParityError _ _ => none
  | .errLogCellClr => none
  | .errLogXferClr => none
  | .registerWrite _ _ _ => none
  | .pageWalkDone _ _ => none
  | .instructionFetchMissDone _ _ => none
  | .linkMarkUp _ _ _ _ _ => none
  | .tdispUnlock _ => none
  | .slabUncorrectableError _ _ _ => none
  | .tableUncorrectableError _ _ _ => none
  | .supplyRecovery _ => none
  | .graphSubmit _ _ _ => none

/-- The bits of an operation's encoding that its fields occupy, a measure of how much a row of the opcode table leaves free. -/
def Instr.freeBits : Instr → Nat
  | .nopC => 0
  | .br _ => 18
  | .brn _ => 18
  | .brL _ => 3
  | .bri _ => 11
  | .call _ => 18
  | .callL _ => 3
  | .calli _ => 11
  | .ret _ => 3
  | .loop _ => 18
  | .loopr _ => 18
  | .loopL _ => 10
  | .leave _ => 3
  | .safe _ => 18
  | .yield _ => 3
  | .halt _ => 3
  | .trap _ => 18
  | .brk _ => 18
  | .barArr _ => 6
  | .barWait _ => 6
  | .barSync _ => 6
  | .eret _ => 3
  | .nop _ => 0
  | .add _ => 26
  | .addi _ => 26
  | .sub _ => 26
  | .mul _ => 26
  | .mulhI _ => 26
  | .mulhW _ => 26
  | .divI _ => 26
  | .divW _ => 26
  | .remI _ => 26
  | .remW _ => 26
  | .and _ => 26
  | .or _ => 26
  | .xor _ => 26
  | .andn _ => 26
  | .andi _ => 26
  | .ori _ => 26
  | .xori _ => 26
  | .shl _ => 26
  | .shr _ => 26
  | .sar _ => 26
  | .rol _ => 26
  | .shli _ => 24
  | .shri _ => 24
  | .sari _ => 24
  | .clz _ => 18
  | .ctz _ => 18
  | .popc _ => 18
  | .minI _ => 26
  | .maxI _ => 26
  | .minW _ => 26
  | .maxW _ => 26
  | .cmp _ => 26
  | .cmpi _ => 26
  | .sel _ => 26
  | .extI _ => 26
  | .extW _ => 26
  | .ins _ => 26
  | .movl _ => 10
  | .movh _ => 10
  | .fadd _ => 26
  | .fsub _ => 26
  | .fmul _ => 26
  | .fmac _ => 26
  | .fmin _ => 26
  | .fmax _ => 26
  | .fcmp _ => 26
  | .fcvt _ => 26
  | .kw _ => 16
  | .kr _ => 14
  | .gsr _ => 18
  | .ssr _ => 19
  | .pand _ => 13
  | .por _ => 13
  | .pxor _ => 13
  | .pnot _ => 10
  | .pget _ => 10
  | .pset _ => 20
  | .rdcyc _ => 10
  | .param _ => 18
  | .nopM => 0
  | .ldI8 _ => 27
  | .ldW8 _ => 27
  | .ldI16 _ => 27
  | .ldW16 _ => 27
  | .ldI32 _ => 27
  | .ldW32 _ => 27
  | .ld64 _ => 27
  | .st8 _ => 27
  | .st16 _ => 27
  | .st32 _ => 27
  | .st64 _ => 27
  | .ldt _ => 27
  | .stt _ => 27
  | .ldtf _ => 27
  | .sttf _ => 27
  | .amoAdd _ => 27
  | .amoMinI _ => 27
  | .amoMaxI _ => 27
  | .amoAnd _ => 27
  | .amoOr _ => 27
  | .amoXor _ => 27
  | .amoSwp _ => 27
  | .amoCas _ => 27
  | .amoFadd _ => 27
  | .pref _ => 21
  | .fenceC _ => 19
  | .fenceX _ => 9
  | .fenceE _ => 3
  | .ilock _ => 25
  | .iunlk _ => 19
  | .slabDef _ => 17
  | .slabRel _ => 17
  | .slabQry _ => 17
  | .slabRdy _ => 17
  | .slabEmp _ => 17
  | .nopV => 0
  | .vadd _ => 25
  | .vsub _ => 25
  | .vmul _ => 25
  | .vfma _ => 25
  | .vfms _ => 25
  | .vmin _ => 25
  | .vmax _ => 25
  | .vabs _ => 25
  | .vneg _ => 25
  | .vand _ => 25
  | .vor _ => 25
  | .vxor _ => 25
  | .vshl _ => 25
  | .vshr _ => 25
  | .vsar _ => 25
  | .vcmpeq _ => 25
  | .vcmpne _ => 25
  | .vcmplt _ => 25
  | .vcmple _ => 25
  | .vsel _ => 25
  | .vcvt _ => 25
  | .vcvtn _ => 25
  | .vcvtw _ => 25
  | .vrotr _ => 25
  | .vrotc _ => 25
  | .vbcr _ => 25
  | .vbcc _ => 25
  | .vredrAdd _ => 25
  | .vredrMax _ => 25
  | .vredrMin _ => 25
  | .vredcAdd _ => 25
  | .vredcMax _ => 25
  | .vredcMin _ => 25
  | .vshuf _ => 26
  | .vpatld _ => 26
  | .vpatsw _ => 25
  | .vpart _ => 25
  | .vgath _ => 25
  | .vscat _ => 25
  | .vmov _ => 25
  | .vmovPop _ => 25
  | .vmovPush _ => 25
  | .vsplat _ => 21
  | .viota _ => 25
  | .vmskAnd _ => 25
  | .vmskOr _ => 25
  | .vmskXor _ => 25
  | .vmskAndn _ => 25
  | .vmskCopy _ => 25
  | .vmskNot _ => 25
  | .vmskFirst _ => 25
  | .vmcnt _ => 25
  | .vacc _ => 25
  | .vfree _ => 25
  | .nopX => 0
  | .mlease _ => 9
  | .mrel _ => 3
  | .mlds _ => 20
  | .mma _ => 14
  | .mmaAcc _ => 14
  | .macr _ => 21
  | .macw _ => 21
  | .macz _ => 6
  | .mkz _ => 8
  | .mkzAll _ => 3
  | .mcntLoads _ => 17
  | .mcntSteps _ => 17
  | .mstat _ => 12
  | .nopE => 0
  | .cpy _ => 26
  | .cpy2d _ => 26
  | .cpys _ => 26
  | .cpyd _ => 26
  | .gath _ => 26
  | .scat _ => 26
  | .bsld _ => 26
  | .tnew _ => 26
  | .tdel _ => 26
  | .tlend _ => 26
  | .tgive _ => 26
  | .tret _ => 26
  | .tsplit _ => 26
  | .tmerge _ => 26
  | .tshare _ => 26
  | .tashr _ => 26
  | .tunsh _ => 26
  | .tacq _ => 26
  | .trel _ => 26
  | .trevive _ => 26
  | .tqry _ => 26
  | .send _ => 26
  | .recv _ => 26
  | .coll _ => 26
  | .vfpush _ => 26
  | .vfpop _ => 26
  | .vfcnt _ => 26
  | .ewait _ => 26
  | .evr _ => 26
  | .eset _ => 26
  | .notify _ => 26
  | .launch _ => 26
  | .decide _ => 26
  | .cancel _ => 26
  | .scrub _ => 26
  | .splreq _ => 26
  | .rtset _ => 26
  | .nopF => 0
  | .scope _ => 3
  | .scld _ => 17
  | .fmtw _ => 14
  | .fmtr _ => 12
  | .fbx _ => 22
  | .fexp2 _ => 16
  | .flog2 _ => 16
  | .frcp _ => 16
  | .frsq _ => 16
  | .fsqrt _ => 16
  | .ftanh _ => 16
  | .fsig _ => 16
  | .ttrd _ => 17
  | .hint _ => 27
  | .seedw _ => 11
  | .slotCommit _ _ _ _ => 0
  | .slotWithdraw _ _ _ => 0
  | .slotResume _ _ _ => 0
  | .slotRerun _ _ _ => 0
  | .slotCancel _ _ _ => 0
  | .recordStart _ _ => 0
  | .startTransferDone _ _ => 0
  | .preloadBegin _ _ => 0
  | .padPreloadBegin _ _ => 0
  | .preloadDone _ _ => 0
  | .budgetSpent _ _ => 0
  | .haltComplete _ _ => 0
  | .partModeWrite _ _ => 0
  | .sliceEnd _ => 0
  | .leaseGrant _ => 0
  | .engineServiceGrant _ _ => 0
  | .engineCommandEnd _ _ => 0
  | .scoreboardArrival _ _ _ => 0
  | .pairSyncWrite _ _ => 0
  | .pwrGateApply _ _ => 0
  | .pwrGateSelect _ _ => 0
  | .domainWakeDone _ _ => 0
  | .bankModeWrite _ _ => 0
  | .bankSwitchDone _ _ => 0
  | .tlbInvGo _ _ => 0
  | .tlbInvDone _ => 0
  | .tokenTransferComplete _ => 0
  | .uncorrectableError _ _ _ => 0
  | .packetRouterHop _ => 0
  | .packetHubHop _ => 0
  | .packetNodeArrive _ => 0
  | .faultReturnArrive _ => 0
  | .responseTimeout _ _ => 0
  | .suspendTimeout _ _ => 0
  | .userRouteLost _ _ => 0
  | .flitCrcFail _ _ => 0
  | .messageArrive _ => 0
  | .remoteEventBump _ => 0
  | .mldsLoadDone _ _ => 0
  | .keyInstall _ _ _ _ => 0
  | .preemptRequest _ _ => 0
  | .preemptBundleLimit _ _ => 0
  | .trapqHeadWrite _ _ => 0
  | .handlerLaunch _ _ _ _ _ => 0
  | .contextSave _ _ => 0
  | .streamingSave _ _ => 0
  | .contextRestore _ _ _ => 0
  | .dbgHalt _ _ => 0
  | .dbgStep _ _ => 0
  | .dbgResume _ _ => 0
  | .tdispLock _ _ => 0
  | .tdispRun _ => 0
  | .tdispError _ => 0
  | .ideIntegrityFail _ => 0
  | .partAssignWrite _ _ => 0
  | .hostMemoryRequest _ _ _ _ _ => 0
  | .qcfgWrite _ _ _ => 0
  | .qtailWrite _ _ => 0
  | .hostLaunch _ _ => 0
  | .hostGive _ _ => 0
  | .hostQuiesce _ _ => 0
  | .hostResume _ _ => 0
  | .hostReport _ _ => 0
  | .hostTeardown _ _ => 0
  | .commandComplete _ _ => 0
  | .declassifyAdd _ _ _ => 0
  | .declassifyRemove _ _ _ => 0
  | .floorRaiseDone _ _ => 0
  | .scrubProgStart _ _ => 0
  | .scrubProgSelect _ _ => 0
  | .teardownPhase2 _ => 0
  | .teardownPhase3 _ => 0
  | .partitionReset _ => 0
  | .powerOn => 0
  | .configUpdate _ _ _ => 0
  | .aidinLoad _ _ _ _ => 0
  | .nativeTranslate _ _ _ _ _ => 0
  | .spliceAnswer _ => 0
  | .iftSlice _ _ _ _ => 0
  | .iftGapTimeout _ => 0
  | .shadowDetect _ _ => 0
  | .shadowCntClr _ => 0
  | .replicaWarn _ => 0
  | .supplySag _ => 0
  | .hbmEccError _ _ _ _ _ => 0
  | .hbmParityFail _ _ _ _ _ _ => 0
  | .registerEccError _ _ _ _ => 0
  | .keySlotParityError _ _ => 0
  | .errLogCellClr => 0
  | .errLogXferClr => 0
  | .registerWrite _ _ _ => 0
  | .pageWalkDone _ _ => 0
  | .instructionFetchMissDone _ _ => 0
  | .linkMarkUp _ _ _ _ _ => 0
  | .tdispUnlock _ => 0
  | .slabUncorrectableError _ _ _ => 0
  | .tableUncorrectableError _ _ _ => 0
  | .supplyRecovery _ => 0
  | .graphSubmit _ _ _ => 0

/-- Slot C (R182). -/
def decodeC (op w : Nat) (lng : Option (BitVec 32)) : Option (Option Instr) :=
  match op with
  | 0 => some (some .nopC)
  | 1 => some ((FmtCB.unpack w).map .br)
  | 2 => some ((FmtCB.unpack w).map .brn)
  | 3 => some ((FmtCL.unpack w lng).map .brL)
  | 4 => some ((FmtCO.unpack w).map .bri)
  | 5 => some ((FmtCB.unpack w).map .call)
  | 6 => some ((FmtCL.unpack w lng).map .callL)
  | 7 => some ((FmtCO.unpack w).map .calli)
  | 8 => some ((FmtCZ.unpack w).map .ret)
  | 9 => some ((FmtCR.unpack w).map .loop)
  | 10 => some ((FmtCR.unpack w).map .loopr)
  | 11 => some ((FmtCRL.unpack w lng).map .loopL)
  | 12 => some ((FmtCZ.unpack w).map .leave)
  | 13 => some ((FmtCX.unpack w).map .safe)
  | 14 => some ((FmtCZ.unpack w).map .yield)
  | 15 => some ((FmtCZ.unpack w).map .halt)
  | 16 => some ((FmtCX.unpack w).map .trap)
  | 17 => some ((FmtCX.unpack w).map .brk)
  | 18 => some ((FmtCBar.unpack w).map .barArr)
  | 19 => some ((FmtCBar.unpack w).map .barWait)
  | 20 => some ((FmtCBar.unpack w).map .barSync)
  | 21 => some ((FmtCZ.unpack w).map .eret)
  | _ => none

/-- Slots A and B, rows 0x0 to 0x2 (R182). -/
def decodeA (sl : ScalarSlot) (op w : Nat) (lng : Option (BitVec 32)) : Option (Option Instr) :=
  match op with
  | 0 => some (some (.nop sl))
  | 1 => some ((FmtAR.unpack sl w lng).map .add)
  | 2 => some ((FmtAI.unpack sl w lng).map .addi)
  | 3 => some ((FmtAR.unpack sl w lng).map .sub)
  | 4 => some ((FmtAR.unpack sl w lng).map .mul)
  | 5 => some ((FmtAR.unpack sl w lng).map .mulhI)
  | 6 => some ((FmtAR.unpack sl w lng).map .mulhW)
  | 7 => some ((FmtAR.unpack sl w lng).map .divI)
  | 8 => some ((FmtAR.unpack sl w lng).map .divW)
  | 9 => some ((FmtAR.unpack sl w lng).map .remI)
  | 10 => some ((FmtAR.unpack sl w lng).map .remW)
  | 11 => some ((FmtAR.unpack sl w lng).map .and)
  | 12 => some ((FmtAR.unpack sl w lng).map .or)
  | 13 => some ((FmtAR.unpack sl w lng).map .xor)
  | 14 => some ((FmtAR.unpack sl w lng).map .andn)
  | 15 => some ((FmtAI.unpack sl w lng).map .andi)
  | 16 => some ((FmtAI.unpack sl w lng).map .ori)
  | 17 => some ((FmtAI.unpack sl w lng).map .xori)
  | 18 => some ((FmtAX.unpack sl w).map .shl)
  | 19 => some ((FmtAX.unpack sl w).map .shr)
  | 20 => some ((FmtAX.unpack sl w).map .sar)
  | 21 => some ((FmtAX.unpack sl w).map .rol)
  | 22 => some ((FmtAS.unpack sl w).map .shli)
  | 23 => some ((FmtAS.unpack sl w).map .shri)
  | 24 => some ((FmtAS.unpack sl w).map .sari)
  | 25 => some ((FmtAU.unpack sl w).map .clz)
  | 26 => some ((FmtAU.unpack sl w).map .ctz)
  | 27 => some ((FmtAU.unpack sl w).map .popc)
  | 28 => some ((FmtAR.unpack sl w lng).map .minI)
  | 29 => some ((FmtAR.unpack sl w lng).map .maxI)
  | 30 => some ((FmtAR.unpack sl w lng).map .minW)
  | 31 => some ((FmtAR.unpack sl w lng).map .maxW)
  | 32 => some ((FmtAC.unpack sl w lng).map .cmp)
  | 33 => some ((FmtACI.unpack sl w lng).map .cmpi)
  | 34 => some ((FmtAR.unpack sl w lng).map .sel)
  | 35 => some ((FmtAX.unpack sl w).map .extI)
  | 36 => some ((FmtAX.unpack sl w).map .extW)
  | 37 => some ((FmtAX.unpack sl w).map .ins)
  | 38 => some ((FmtAL.unpack sl w lng).map .movl)
  | 39 => some ((FmtAL.unpack sl w lng).map .movh)
  | 40 => some ((FmtAR.unpack sl w lng).map .fadd)
  | 41 => some ((FmtAR.unpack sl w lng).map .fsub)
  | 42 => some ((FmtAR.unpack sl w lng).map .fmul)
  | 43 => some ((FmtAR.unpack sl w lng).map .fmac)
  | 44 => some ((FmtAR.unpack sl w lng).map .fmin)
  | 45 => some ((FmtAR.unpack sl w lng).map .fmax)
  | 46 => some ((FmtAC.unpack sl w lng).map .fcmp)
  | 47 => some ((FmtAV.unpack sl w).map .fcvt)
  | _ => none

/-- Slot B, row 0x3 (R182). -/
def decodeB (op w : Nat) (lng : Option (BitVec 32)) : Option (Option Instr) :=
  match op with
  | 48 => some ((FmtBKw.unpack w lng).map .kw)
  | 49 => some ((FmtBKr.unpack w).map .kr)
  | 50 => some ((FmtBG.unpack w).map .gsr)
  | 51 => some ((FmtBS.unpack w).map .ssr)
  | 52 => some ((FmtBP2.unpack w).map .pand)
  | 53 => some ((FmtBP2.unpack w).map .por)
  | 54 => some ((FmtBP2.unpack w).map .pxor)
  | 55 => some ((FmtBP1.unpack w).map .pnot)
  | 56 => some ((FmtBD.unpack w).map .pget)
  | 57 => some ((FmtBPs.unpack w).map .pset)
  | 58 => some ((FmtBD.unpack w).map .rdcyc)
  | 59 => some ((FmtBPm.unpack w).map .param)
  | _ => none

/-- Slot M (R182). -/
def decodeM (op w : Nat) (lng : Option (BitVec 32)) : Option (Option Instr) :=
  match op with
  | 0 => some (some .nopM)
  | 1 => some ((FmtML.unpack w lng).map .ldI8)
  | 2 => some ((FmtML.unpack w lng).map .ldW8)
  | 3 => some ((FmtML.unpack w lng).map .ldI16)
  | 4 => some ((FmtML.unpack w lng).map .ldW16)
  | 5 => some ((FmtML.unpack w lng).map .ldI32)
  | 6 => some ((FmtML.unpack w lng).map .ldW32)
  | 7 => some ((FmtML.unpack w lng).map .ld64)
  | 8 => some ((FmtMS.unpack w lng).map .st8)
  | 9 => some ((FmtMS.unpack w lng).map .st16)
  | 10 => some ((FmtMS.unpack w lng).map .st32)
  | 11 => some ((FmtMS.unpack w lng).map .st64)
  | 12 => some ((FmtMT.unpack w lng).map .ldt)
  | 13 => some ((FmtMT.unpack w lng).map .stt)
  | 14 => some ((FmtMT.unpack w lng).map .ldtf)
  | 15 => some ((FmtMT.unpack w lng).map .sttf)
  | 16 => some ((FmtMA.unpack w).map .amoAdd)
  | 17 => some ((FmtMA.unpack w).map .amoMinI)
  | 18 => some ((FmtMA.unpack w).map .amoMaxI)
  | 19 => some ((FmtMA.unpack w).map .amoAnd)
  | 20 => some ((FmtMA.unpack w).map .amoOr)
  | 21 => some ((FmtMA.unpack w).map .amoXor)
  | 22 => some ((FmtMA.unpack w).map .amoSwp)
  | 23 => some ((FmtMA.unpack w).map .amoCas)
  | 24 => some ((FmtMA.unpack w).map .amoFadd)
  | 25 => some ((FmtMP.unpack w lng).map .pref)
  | 26 => some ((FmtMFc.unpack w).map .fenceC)
  | 27 => some ((FmtMFx.unpack w).map .fenceX)
  | 28 => some ((FmtMZ.unpack w).map .fenceE)
  | 29 => some ((FmtMIl.unpack w).map .ilock)
  | 30 => some ((FmtMIu.unpack w).map .iunlk)
  | 31 => some (match w / 2 ^ 21 % 8 with
    | 0 => (FmtMSl.unpack w).map .slabDef
    | 1 => (FmtMSl.unpack w).map .slabRel
    | 2 => (FmtMSl.unpack w).map .slabQry
    | 3 => (FmtMSl.unpack w).map .slabRdy
    | 4 => (FmtMSl.unpack w).map .slabEmp
    | _ => none)
  | _ => none

/-- Slot V (R182). -/
def decodeV (op w : Nat) (lng : Option (BitVec 32)) : Option (Option Instr) :=
  match op with
  | 0 => some (some .nopV)
  | 1 => some ((FmtV.unpack w).map .vadd)
  | 2 => some ((FmtV.unpack w).map .vsub)
  | 3 => some ((FmtV.unpack w).map .vmul)
  | 4 => some ((FmtV.unpack w).map .vfma)
  | 5 => some ((FmtV.unpack w).map .vfms)
  | 6 => some ((FmtV.unpack w).map .vmin)
  | 7 => some ((FmtV.unpack w).map .vmax)
  | 8 => some ((FmtV.unpack w).map .vabs)
  | 9 => some ((FmtV.unpack w).map .vneg)
  | 10 => some ((FmtV.unpack w).map .vand)
  | 11 => some ((FmtV.unpack w).map .vor)
  | 12 => some ((FmtV.unpack w).map .vxor)
  | 13 => some ((FmtV.unpack w).map .vshl)
  | 14 => some ((FmtV.unpack w).map .vshr)
  | 15 => some ((FmtV.unpack w).map .vsar)
  | 16 => some ((FmtV.unpack w).map .vcmpeq)
  | 17 => some ((FmtV.unpack w).map .vcmpne)
  | 18 => some ((FmtV.unpack w).map .vcmplt)
  | 19 => some ((FmtV.unpack w).map .vcmple)
  | 20 => some ((FmtV.unpack w).map .vsel)
  | 21 => some ((FmtV.unpack w).map .vcvt)
  | 22 => some ((FmtV.unpack w).map .vcvtn)
  | 23 => some ((FmtV.unpack w).map .vcvtw)
  | 24 => some ((FmtV.unpack w).map .vrotr)
  | 25 => some ((FmtV.unpack w).map .vrotc)
  | 26 => some ((FmtV.unpack w).map .vbcr)
  | 27 => some ((FmtV.unpack w).map .vbcc)
  | 28 => some ((FmtV.unpack w).map .vredrAdd)
  | 29 => some ((FmtV.unpack w).map .vredrMax)
  | 30 => some ((FmtV.unpack w).map .vredrMin)
  | 31 => some ((FmtV.unpack w).map .vredcAdd)
  | 32 => some ((FmtV.unpack w).map .vredcMax)
  | 33 => some ((FmtV.unpack w).map .vredcMin)
  | 34 => some ((FmtVF.unpack w).map .vshuf)
  | 35 => some ((FmtVF.unpack w).map .vpatld)
  | 36 => some ((FmtV.unpack w).map .vpatsw)
  | 37 => some ((FmtV.unpack w).map .vpart)
  | 38 => some ((FmtV.unpack w).map .vgath)
  | 39 => some ((FmtV.unpack w).map .vscat)
  | 40 => some (if w / 2 ^ 6 % 16 = 0 then (FmtV.unpack w).map .vmov else if w / 2 ^ 6 % 16 < 8 then (FmtV.unpack w).map .vmovPop else (FmtV.unpack w).map .vmovPush)
  | 41 => some ((FmtVS.unpack w lng).map .vsplat)
  | 42 => some ((FmtV.unpack w).map .viota)
  | 43 => some (match w / 2 ^ 18 % 32 with
    | 0 => (FmtV.unpack w).map .vmskAnd
    | 1 => (FmtV.unpack w).map .vmskOr
    | 2 => (FmtV.unpack w).map .vmskXor
    | 3 => (FmtV.unpack w).map .vmskAndn
    | 4 => (FmtV.unpack w).map .vmskCopy
    | 5 => (FmtV.unpack w).map .vmskNot
    | 6 => (FmtV.unpack w).map .vmskFirst
    | _ => none)
  | 44 => some ((FmtV.unpack w).map .vmcnt)
  | 45 => some ((FmtV.unpack w).map .vacc)
  | 46 => some ((FmtV.unpack w).map .vfree)
  | _ => none

/-- Slot X (R182). -/
def decodeX (op w : Nat) (_lng : Option (BitVec 32)) : Option (Option Instr) :=
  match op with
  | 0 => some (some .nopX)
  | 1 => some ((FmtXL.unpack w).map .mlease)
  | 2 => some ((FmtXZ.unpack w).map .mrel)
  | 3 => some ((FmtXD.unpack w).map .mlds)
  | 4 => some (if w / 2 ^ 12 % 2 = 0 then (FmtXM.unpack w).map .mma else (FmtXM.unpack w).map .mmaAcc)
  | 5 => some ((FmtXR.unpack w).map .macr)
  | 6 => some ((FmtXR.unpack w).map .macw)
  | 7 => some ((FmtXB.unpack w).map .macz)
  | 8 => some (if w / 2 ^ 18 % 2 = 0 then (FmtXK.unpack w).map .mkz else (FmtXZ.unpack w).map .mkzAll)
  | 9 => some (if w / 2 ^ 9 % 2 = 0 then (FmtXC.unpack w).map .mcntLoads else (FmtXC.unpack w).map .mcntSteps)
  | 10 => some ((FmtXS.unpack w).map .mstat)
  | _ => none

/-- Slot E (R182). -/
def decodeE (op w : Nat) (_lng : Option (BitVec 32)) : Option (Option Instr) :=
  match op with
  | 0 => some (some .nopE)
  | 1 => some ((FmtE.unpack w).map .cpy)
  | 2 => some ((FmtE.unpack w).map .cpy2d)
  | 3 => some ((FmtE.unpack w).map .cpys)
  | 4 => some ((FmtE.unpack w).map .cpyd)
  | 5 => some ((FmtE.unpack w).map .gath)
  | 6 => some ((FmtE.unpack w).map .scat)
  | 7 => some ((FmtE.unpack w).map .bsld)
  | 8 => some ((FmtE.unpack w).map .tnew)
  | 9 => some ((FmtE.unpack w).map .tdel)
  | 10 => some ((FmtE.unpack w).map .tlend)
  | 11 => some ((FmtE.unpack w).map .tgive)
  | 12 => some ((FmtE.unpack w).map .tret)
  | 13 => some ((FmtE.unpack w).map .tsplit)
  | 14 => some ((FmtE.unpack w).map .tmerge)
  | 15 => some ((FmtE.unpack w).map .tshare)
  | 16 => some ((FmtE.unpack w).map .tashr)
  | 17 => some ((FmtE.unpack w).map .tunsh)
  | 18 => some ((FmtE.unpack w).map .tacq)
  | 19 => some ((FmtE.unpack w).map .trel)
  | 20 => some ((FmtE.unpack w).map .trevive)
  | 21 => some ((FmtE.unpack w).map .tqry)
  | 22 => some ((FmtE.unpack w).map .send)
  | 23 => some ((FmtE.unpack w).map .recv)
  | 24 => some ((FmtE.unpack w).map .coll)
  | 25 => some ((FmtE.unpack w).map .vfpush)
  | 26 => some ((FmtE.unpack w).map .vfpop)
  | 27 => some ((FmtE.unpack w).map .vfcnt)
  | 28 => some ((FmtE.unpack w).map .ewait)
  | 29 => some ((FmtE.unpack w).map .evr)
  | 30 => some ((FmtE.unpack w).map .eset)
  | 31 => some ((FmtE.unpack w).map .notify)
  | 32 => some ((FmtE.unpack w).map .launch)
  | 33 => some ((FmtE.unpack w).map .decide)
  | 34 => some ((FmtE.unpack w).map .cancel)
  | 35 => some ((FmtE.unpack w).map .scrub)
  | 36 => some ((FmtE.unpack w).map .splreq)
  | 37 => some ((FmtE.unpack w).map .rtset)
  | _ => none

/-- Slot F (R182). -/
def decodeF (op w : Nat) (_lng : Option (BitVec 32)) : Option (Option Instr) :=
  match op with
  | 0 => some (some .nopF)
  | 1 => some ((FmtFS.unpack w).map .scope)
  | 2 => some ((FmtFL.unpack w).map .scld)
  | 3 => some ((FmtFW.unpack w).map .fmtw)
  | 4 => some ((FmtFR.unpack w).map .fmtr)
  | 5 => some ((FmtFB.unpack w).map .fbx)
  | 6 => some ((FmtFF.unpack w).map .fexp2)
  | 7 => some ((FmtFF.unpack w).map .flog2)
  | 8 => some ((FmtFF.unpack w).map .frcp)
  | 9 => some ((FmtFF.unpack w).map .frsq)
  | 10 => some ((FmtFF.unpack w).map .fsqrt)
  | 11 => some ((FmtFF.unpack w).map .ftanh)
  | 12 => some ((FmtFF.unpack w).map .fsig)
  | 13 => some ((FmtFT.unpack w).map .ttrd)
  | 14 => some ((FmtFH.unpack w).map .hint)
  | 15 => some ((FmtFD.unpack w).map .seedw)
  | _ => none

/-- An operand that reads a bypass latch. -/
def Operand.isLatch : Operand → Bool
  | .latch _ => true
  | _ => false

/-- The operation reads a latch operand, which a dense block may not (R199). -/
def Instr.usesLatch : Instr → Bool
  | .nopC => false
  | .br _ => false
  | .brn _ => false
  | .brL _ => false
  | .bri f => f.tgt.isLatch
  | .call _ => false
  | .callL _ => false
  | .calli f => f.tgt.isLatch
  | .ret _ => false
  | .loop f => f.cnt.isLatch
  | .loopr f => f.cnt.isLatch
  | .loopL _ => false
  | .leave _ => false
  | .safe _ => false
  | .yield _ => false
  | .halt _ => false
  | .trap _ => false
  | .brk _ => false
  | .barArr _ => false
  | .barWait _ => false
  | .barSync _ => false
  | .eret _ => false
  | .nop _ => false
  | .add f => f.a.isLatch || f.b.isLatch
  | .addi f => f.a.isLatch
  | .sub f => f.a.isLatch || f.b.isLatch
  | .mul f => f.a.isLatch || f.b.isLatch
  | .mulhI f => f.a.isLatch || f.b.isLatch
  | .mulhW f => f.a.isLatch || f.b.isLatch
  | .divI f => f.a.isLatch || f.b.isLatch
  | .divW f => f.a.isLatch || f.b.isLatch
  | .remI f => f.a.isLatch || f.b.isLatch
  | .remW f => f.a.isLatch || f.b.isLatch
  | .and f => f.a.isLatch || f.b.isLatch
  | .or f => f.a.isLatch || f.b.isLatch
  | .xor f => f.a.isLatch || f.b.isLatch
  | .andn f => f.a.isLatch || f.b.isLatch
  | .andi f => f.a.isLatch
  | .ori f => f.a.isLatch
  | .xori f => f.a.isLatch
  | .shl f => f.a.isLatch || f.b.isLatch
  | .shr f => f.a.isLatch || f.b.isLatch
  | .sar f => f.a.isLatch || f.b.isLatch
  | .rol f => f.a.isLatch || f.b.isLatch
  | .shli f => f.a.isLatch
  | .shri f => f.a.isLatch
  | .sari f => f.a.isLatch
  | .clz f => f.a.isLatch
  | .ctz f => f.a.isLatch
  | .popc f => f.a.isLatch
  | .minI f => f.a.isLatch || f.b.isLatch
  | .maxI f => f.a.isLatch || f.b.isLatch
  | .minW f => f.a.isLatch || f.b.isLatch
  | .maxW f => f.a.isLatch || f.b.isLatch
  | .cmp f => f.a.isLatch || f.b.isLatch
  | .cmpi f => f.a.isLatch
  | .sel f => f.a.isLatch || f.b.isLatch
  | .extI f => f.a.isLatch || f.b.isLatch
  | .extW f => f.a.isLatch || f.b.isLatch
  | .ins f => f.a.isLatch || f.b.isLatch
  | .movl _ => false
  | .movh _ => false
  | .fadd f => f.a.isLatch || f.b.isLatch
  | .fsub f => f.a.isLatch || f.b.isLatch
  | .fmul f => f.a.isLatch || f.b.isLatch
  | .fmac f => f.a.isLatch || f.b.isLatch
  | .fmin f => f.a.isLatch || f.b.isLatch
  | .fmax f => f.a.isLatch || f.b.isLatch
  | .fcmp f => f.a.isLatch || f.b.isLatch
  | .fcvt f => f.a.isLatch
  | .kw f => f.b.isLatch
  | .kr _ => false
  | .gsr _ => false
  | .ssr f => f.b.isLatch
  | .pand _ => false
  | .por _ => false
  | .pxor _ => false
  | .pnot _ => false
  | .pget _ => false
  | .pset f => f.b.isLatch
  | .rdcyc _ => false
  | .param f => f.a.isLatch
  | .nopM => false
  | .ldI8 f => f.base.isLatch
  | .ldW8 f => f.base.isLatch
  | .ldI16 f => f.base.isLatch
  | .ldW16 f => f.base.isLatch
  | .ldI32 f => f.base.isLatch
  | .ldW32 f => f.base.isLatch
  | .ld64 f => f.base.isLatch
  | .st8 f => f.data.isLatch || f.base.isLatch
  | .st16 f => f.data.isLatch || f.base.isLatch
  | .st32 f => f.data.isLatch || f.base.isLatch
  | .st64 f => f.data.isLatch || f.base.isLatch
  | .ldt f => f.base.isLatch
  | .stt f => f.base.isLatch
  | .ldtf f => f.base.isLatch
  | .sttf f => f.base.isLatch
  | .amoAdd f => f.base.isLatch
  | .amoMinI f => f.base.isLatch
  | .amoMaxI f => f.base.isLatch
  | .amoAnd f => f.base.isLatch
  | .amoOr f => f.base.isLatch
  | .amoXor f => f.base.isLatch
  | .amoSwp f => f.base.isLatch
  | .amoCas f => f.base.isLatch
  | .amoFadd f => f.base.isLatch
  | .pref f => f.base.isLatch
  | .fenceC _ => false
  | .fenceX _ => false
  | .fenceE _ => false
  | .ilock f => f.a.isLatch || f.n.isLatch
  | .iunlk f => f.a.isLatch || f.n.isLatch
  | .slabDef f => f.x.isLatch
  | .slabRel f => f.x.isLatch
  | .slabQry f => f.x.isLatch
  | .slabRdy f => f.x.isLatch
  | .slabEmp f => f.x.isLatch
  | .nopV => false
  | .vadd _ => false
  | .vsub _ => false
  | .vmul _ => false
  | .vfma _ => false
  | .vfms _ => false
  | .vmin _ => false
  | .vmax _ => false
  | .vabs _ => false
  | .vneg _ => false
  | .vand _ => false
  | .vor _ => false
  | .vxor _ => false
  | .vshl _ => false
  | .vshr _ => false
  | .vsar _ => false
  | .vcmpeq _ => false
  | .vcmpne _ => false
  | .vcmplt _ => false
  | .vcmple _ => false
  | .vsel _ => false
  | .vcvt _ => false
  | .vcvtn _ => false
  | .vcvtw _ => false
  | .vrotr _ => false
  | .vrotc _ => false
  | .vbcr _ => false
  | .vbcc _ => false
  | .vredrAdd _ => false
  | .vredrMax _ => false
  | .vredrMin _ => false
  | .vredcAdd _ => false
  | .vredcMax _ => false
  | .vredcMin _ => false
  | .vshuf _ => false
  | .vpatld _ => false
  | .vpatsw _ => false
  | .vpart _ => false
  | .vgath _ => false
  | .vscat _ => false
  | .vmov _ => false
  | .vmovPop _ => false
  | .vmovPush _ => false
  | .vsplat _ => false
  | .viota _ => false
  | .vmskAnd _ => false
  | .vmskOr _ => false
  | .vmskXor _ => false
  | .vmskAndn _ => false
  | .vmskCopy _ => false
  | .vmskNot _ => false
  | .vmskFirst _ => false
  | .vmcnt _ => false
  | .vacc _ => false
  | .vfree _ => false
  | .nopX => false
  | .mlease _ => false
  | .mrel _ => false
  | .mlds f => f.off.isLatch
  | .mma _ => false
  | .mmaAcc _ => false
  | .macr _ => false
  | .macw _ => false
  | .macz _ => false
  | .mkz _ => false
  | .mkzAll _ => false
  | .mcntLoads f => f.reg.isLatch
  | .mcntSteps f => f.reg.isLatch
  | .mstat _ => false
  | .nopE => false
  | .cpy _ => false
  | .cpy2d _ => false
  | .cpys _ => false
  | .cpyd _ => false
  | .gath _ => false
  | .scat _ => false
  | .bsld _ => false
  | .tnew _ => false
  | .tdel _ => false
  | .tlend _ => false
  | .tgive _ => false
  | .tret _ => false
  | .tsplit _ => false
  | .tmerge _ => false
  | .tshare _ => false
  | .tashr _ => false
  | .tunsh _ => false
  | .tacq _ => false
  | .trel _ => false
  | .trevive _ => false
  | .tqry _ => false
  | .send _ => false
  | .recv _ => false
  | .coll _ => false
  | .vfpush _ => false
  | .vfpop _ => false
  | .vfcnt _ => false
  | .ewait f => (match Operand.ofBits f.val with | some o => o.isLatch | none => false)
  | .evr _ => false
  | .eset f => (match Operand.ofBits f.val with | some o => o.isLatch | none => false)
  | .notify _ => false
  | .launch _ => false
  | .decide _ => false
  | .cancel _ => false
  | .scrub _ => false
  | .splreq _ => false
  | .rtset _ => false
  | .nopF => false
  | .scope _ => false
  | .scld f => f.base.isLatch
  | .fmtw f => f.a.isLatch
  | .fmtr _ => false
  | .fbx _ => false
  | .fexp2 _ => false
  | .flog2 _ => false
  | .frcp _ => false
  | .frsq _ => false
  | .fsqrt _ => false
  | .ftanh _ => false
  | .fsig _ => false
  | .ttrd f => f.a.isLatch
  | .hint _ => false
  | .seedw f => f.a.isLatch
  | .slotCommit _ _ _ _ => false
  | .slotWithdraw _ _ _ => false
  | .slotResume _ _ _ => false
  | .slotRerun _ _ _ => false
  | .slotCancel _ _ _ => false
  | .recordStart _ _ => false
  | .startTransferDone _ _ => false
  | .preloadBegin _ _ => false
  | .padPreloadBegin _ _ => false
  | .preloadDone _ _ => false
  | .budgetSpent _ _ => false
  | .haltComplete _ _ => false
  | .partModeWrite _ _ => false
  | .sliceEnd _ => false
  | .leaseGrant _ => false
  | .engineServiceGrant _ _ => false
  | .engineCommandEnd _ _ => false
  | .scoreboardArrival _ _ _ => false
  | .pairSyncWrite _ _ => false
  | .pwrGateApply _ _ => false
  | .pwrGateSelect _ _ => false
  | .domainWakeDone _ _ => false
  | .bankModeWrite _ _ => false
  | .bankSwitchDone _ _ => false
  | .tlbInvGo _ _ => false
  | .tlbInvDone _ => false
  | .tokenTransferComplete _ => false
  | .uncorrectableError _ _ _ => false
  | .packetRouterHop _ => false
  | .packetHubHop _ => false
  | .packetNodeArrive _ => false
  | .faultReturnArrive _ => false
  | .responseTimeout _ _ => false
  | .suspendTimeout _ _ => false
  | .userRouteLost _ _ => false
  | .flitCrcFail _ _ => false
  | .messageArrive _ => false
  | .remoteEventBump _ => false
  | .mldsLoadDone _ _ => false
  | .keyInstall _ _ _ _ => false
  | .preemptRequest _ _ => false
  | .preemptBundleLimit _ _ => false
  | .trapqHeadWrite _ _ => false
  | .handlerLaunch _ _ _ _ _ => false
  | .contextSave _ _ => false
  | .streamingSave _ _ => false
  | .contextRestore _ _ _ => false
  | .dbgHalt _ _ => false
  | .dbgStep _ _ => false
  | .dbgResume _ _ => false
  | .tdispLock _ _ => false
  | .tdispRun _ => false
  | .tdispError _ => false
  | .ideIntegrityFail _ => false
  | .partAssignWrite _ _ => false
  | .hostMemoryRequest _ _ _ _ _ => false
  | .qcfgWrite _ _ _ => false
  | .qtailWrite _ _ => false
  | .hostLaunch _ _ => false
  | .hostGive _ _ => false
  | .hostQuiesce _ _ => false
  | .hostResume _ _ => false
  | .hostReport _ _ => false
  | .hostTeardown _ _ => false
  | .commandComplete _ _ => false
  | .declassifyAdd _ _ _ => false
  | .declassifyRemove _ _ _ => false
  | .floorRaiseDone _ _ => false
  | .scrubProgStart _ _ => false
  | .scrubProgSelect _ _ => false
  | .teardownPhase2 _ => false
  | .teardownPhase3 _ => false
  | .partitionReset _ => false
  | .powerOn => false
  | .configUpdate _ _ _ => false
  | .aidinLoad _ _ _ _ => false
  | .nativeTranslate _ _ _ _ _ => false
  | .spliceAnswer _ => false
  | .iftSlice _ _ _ _ => false
  | .iftGapTimeout _ => false
  | .shadowDetect _ _ => false
  | .shadowCntClr _ => false
  | .replicaWarn _ => false
  | .supplySag _ => false
  | .hbmEccError _ _ _ _ _ => false
  | .hbmParityFail _ _ _ _ _ _ => false
  | .registerEccError _ _ _ _ => false
  | .keySlotParityError _ _ => false
  | .errLogCellClr => false
  | .errLogXferClr => false
  | .registerWrite _ _ _ => false
  | .pageWalkDone _ _ => false
  | .instructionFetchMissDone _ _ => false
  | .linkMarkUp _ _ _ _ _ => false
  | .tdispUnlock _ => false
  | .slabUncorrectableError _ _ _ => false
  | .tableUncorrectableError _ _ _ => false
  | .supplyRecovery _ => false
  | .graphSubmit _ _ _ => false

/-- The raw reading of a word in a slot: none is an undefined opcode, some none an illegal one (R182). -/
def decodeRaw (slot w : Nat) (lng : Option (BitVec 32)) : Option (Option Instr) :=
  match slot with
  | 0 => decodeC (w / 2 ^ 18 % 64) w lng
  | 1 => decodeA .A (w / 2 ^ 26) w lng
  | 2 => if w / 2 ^ 26 < 48 then decodeA .B (w / 2 ^ 26) w lng else decodeB (w / 2 ^ 26) w lng
  | 3 => decodeM (w / 2 ^ 27) w lng
  | 4 => decodeV (w / 2 ^ 26) w lng
  | 5 => decodeX (w / 2 ^ 27) w lng
  | 6 => decodeE (w / 2 ^ 26) w lng
  | 7 => decodeF (w / 2 ^ 27) w lng
  | _ => none

/-- The words of an operation: its own and, where it has one, its long immediate (R164). A step of the device has none. -/
def encode (i : Instr) : List (BitVec 32) :=
  match i.slot with
  | none => []
  | some _ => BitVec.ofNat 32 (encodeNat i) :: i.long.toList

/-- An operation read from its slot's word and the long immediate of its surrendered neighbour. A reserved field that is not
zero, a restricted field out of its range, a long immediate not taken or missing: illegal (R165, R166, R182). -/
def decodeSlot (slot : Nat) (w : BitVec 32) (lng : Option (BitVec 32)) : Except DecErr Instr :=
  match decodeRaw slot w.toNat lng with
  | none => .error .undefined
  | some none => .error .illegal
  | some (some i) =>
    if i.wf && encodeNat i == w.toNat && i.long == lng && i.slot == some slot then .ok i else .error .illegal

/-- A decoded bundle or dense block: its operations in slot order, without the no-ops' effect being lost, and the length of a
dense block in words (R160, R197). -/
structure Bundle where
  ops : List Instr
  /-- Words of the dense block, tag included; 8 for a native bundle. -/
  words : Nat
  deriving DecidableEq, Repr

/-- The bundle that holds one operation alone: in dense form its tag and its words (R197). -/
def Bundle.single (i : Instr) : Bundle := { ops := [i], words := 1 + (encode i).length }

/-- The refusals among the readings of a bundle's words, with their slots. -/
def readErrs (rs : List (Nat × Except DecErr Instr)) : List (DecErr × Nat) :=
  rs.filterMap fun r => match r.2 with | .ok _ => none | .error e => some (e, r.1)

/-- The operations of a list of readings that were accepted. -/
def okInstrs (rs : List (Nat × Except DecErr Instr)) : List Instr :=
  rs.filterMap fun r => match r.2 with | .ok i => some i | .error _ => none

/-- The bank slot X names through its port (R179), as bank numbers. -/
def Instr.xBanks : Instr → List Nat
  | .mma f => [3 * f.g.toNat, 3 * f.g.toNat + 1, 3 * f.g.toNat + 2]
  | .mmaAcc f => [3 * f.g.toNat, 3 * f.g.toNat + 1, 3 * f.g.toNat + 2]
  | .macr f => [f.bank.toNat]
  | .macw f => [f.bank.toNat]
  | .macz f => [f.bank.toNat]
  | .mstat f => [f.bank.toNat]
  | _ => []

/-- The bank slot V names through its port (R179). -/
def Instr.vBanks : Instr → List Nat
  | .vacc f => [f.ta.toNat]
  | _ => []

/-- Both accumulator ports name one bank: the bundle is illegal, slot V being the lower of the two (R179, R184). -/
def portClash (ops : List Instr) : List (DecErr × Nat) :=
  if (ops.flatMap Instr.xBanks).any fun b => (ops.flatMap Instr.vBanks).contains b then [(.illegal, 4)] else []

/-- Word k of a native bundle (R160). -/
def slotWord (v : BitVec 256) (k : Nat) : BitVec 32 := v.extractLsb' (32 * k) 32

/-- Slot k is surrendered (R163, R164). -/
def surrendered (v : BitVec 256) (k : Nat) : Bool := 1 ≤ k && k ≤ 7 && v.getLsbD (24 + k)

/-- The slots of a native bundle that are not surrendered, with their words. -/
def nativeWords (v : BitVec 256) : List (Nat × BitVec 32) :=
  ((List.range 8).filter fun k => !surrendered v k).map fun k => (k, if k = 0 then slotWord v 0 &&& 0x01FFFFFF#32 else slotWord v k)

/-- The readings of the slots of a native bundle that are not surrendered. -/
def nativeReadings (v : BitVec 256) : List (Nat × Except DecErr Instr) :=
  (nativeWords v).map fun (k, w) => (k, decodeSlot k w (if surrendered v (k + 1) then some (slotWord v (k + 1)) else none))

/-- A slot surrendered whose left neighbour is surrendered too (R166). -/
def doubleSurrender (v : BitVec 256) : List (DecErr × Nat) :=
  ((List.range 8).filter fun k => surrendered v k && surrendered v (k - 1)).map fun k => (.illegal, k)

/-- A native bundle (R160 to R166, R179), or everything decoding refuses of it, by slot (R184). -/
def decodeNative (v : BitVec 256) : Except (List (DecErr × Nat)) Bundle :=
  let rs := nativeReadings v
  match readErrs rs ++ doubleSurrender v ++ portClash (okInstrs rs) with
  | [] => .ok { ops := okInstrs rs, words := 8 }
  | es => .error es

/-- Slot number of word i of a dense block (R197). -/
def tagSlot (tag : BitVec 32) (i : Nat) : Nat := tag.toNat / 2 ^ (3 * i) % 8

/-- Word i is the long immediate of word i - 1 (R197). -/
def tagLong (tag : BitVec 32) (i : Nat) : Bool := tag.getLsbD (24 + i)

/-- How many words the tag gives its block: up to the first position whose slot number does not rise (R197). -/
def tagCount (tag : BitVec 32) : Nat :=
  1 + ((List.range 7).takeWhile fun i => tagSlot tag i < tagSlot tag (i + 1)).length

/-- The words of a dense block that are operations, with their slots (R197). -/
def denseWords (tag : BitVec 32) (ws : List (BitVec 32)) : List (Nat × BitVec 32) :=
  ((List.range (tagCount tag)).filter fun i => !tagLong tag i).map fun i => (tagSlot tag i, ws.getD i 0#32)

/-- The readings of a dense block's words (R198, R199): a latch operand and a SURR field are illegal. -/
def denseReadings (tag : BitVec 32) (ws : List (BitVec 32)) : List (Nat × Except DecErr Instr) :=
  ((List.range (tagCount tag)).filter fun i => !tagLong tag i).map fun i =>
    let k := tagSlot tag i
    let lng := if i + 1 < tagCount tag && tagLong tag (i + 1) then some (ws.getD (i + 1) 0#32) else none
    (k, match decodeSlot k (ws.getD i 0#32) lng with
        | .ok op => if op.usesLatch then .error .illegal else .ok op
        | .error e => .error e)

/-- A LONG flag on word 0, on a word past the block, or on a word whose slot is not one above its predecessor's, by the slot of the word (R199). -/
def badLong (tag : BitVec 32) : List (DecErr × Nat) :=
  ((List.range 8).filter fun i => tagLong tag i &&
    (i = 0 || tagCount tag ≤ i || tagSlot tag i != tagSlot tag (i - 1) + 1 || tagLong tag (i - 1))).map fun i => (.illegal, tagSlot tag i)

/-- A dense block from its tag and the words that follow (R197 to R199), or everything decoding refuses of it. -/
def decodeDense (tag : BitVec 32) (ws : List (BitVec 32)) : Except (List (DecErr × Nat)) Bundle :=
  let rs := denseReadings tag ws
  match readErrs rs ++ badLong tag ++ portClash (okInstrs rs) with
  | [] => .ok { ops := okInstrs rs, words := 1 + tagCount tag }
  | es => .error es

/-- The bit of FEAT_MASK that masks a slot's word by its opcode, whatever its other fields hold (R183). -/
def wordFeature (slot : Nat) (w : BitVec 32) : Option Nat :=
  match slot, w.toNat / 2 ^ 27, w.toNat / 2 ^ 26 with
  | 3, 24, _ => some 6
  | 4, _, 34 | 4, _, 35 | 4, _, 36 => some 7
  | 4, _, 37 | 4, _, 38 | 4, _, 39 => some 8
  | 5, 9, _ => some 9
  | 6, _, 22 | 6, _, 23 => some 4
  | 6, _, 24 => some 3
  | 6, _, 25 | 6, _, 26 | 6, _, 27 => some 2
  | 6, _, 33 => some 5
  | 7, 5, _ => some 0
  | 7, n, _ => if 6 ≤ n && n ≤ 12 then some 1 else none
  | _, _, _ => none

/-- The operation a word means in a slot, its long immediate, where it needs one, being zero. -/
def readAlone (slot : Nat) (w : BitVec 32) : Option Instr :=
  match decodeSlot slot w none with
  | .ok i => some i
  | .error _ =>
    match decodeSlot slot w (some 0#32) with
    | .ok i => some i
    | .error _ => none

/-- The one of two readings that leaves fewer bits free, the first where they tie. -/
def tighter (a b : Option Instr) : Option Instr :=
  match a, b with
  | some x, some y => if y.freeBits < x.freeBits then some y else some x
  | some x, none => some x
  | none, y => y

/-- The opcode table gives a row a 32-bit word and no slot, and one word may be an operation of several slots: of the slots
that accept the word, the reading whose row leaves the fewest bits free (log 6). -/
def decodeTableWord (nbits w : Nat) : Option Instr :=
  if nbits ≠ 32 then none
  else
    let v := BitVec.ofNat 32 w
    match [1, 2, 3, 4, 5, 6, 7, 0].foldl (fun a k => tighter a (readAlone k v)) none with
    | some i => some i
    | none => readAlone 0 (v &&& 0x01FFFFFF#32)

/-- The eight words of the native bundle that holds operation i alone, with its word as given: its slot's word, its long immediate
and the SURR bit that surrenders the neighbour (R163, R164). -/
def bundleOf (i : Instr) (w : BitVec 32) : BitVec 256 :=
  match i.slot with
  | none => 0
  | some k =>
    let base : Nat := w.toNat * 2 ^ (32 * k)
    match i.long with
    | none => BitVec.ofNat 256 base
    | some l => BitVec.ofNat 256 (base + l.toNat * 2 ^ (32 * (k + 1)) + (if w.getLsbD (25 + k) && k = 0 then 0 else 2 ^ (25 + k)))

end Sys2Proof
end

