-- ==== Sys2Proof/Config.lean ====
section
/-!
DEFINITION. What one implementation fixes and the specification leaves open: free values. Each is an opaque constant, so
no proof can see a value of it. (Log 4.)
-/

namespace Sys2Proof.Config

/-- A free 64-bit value, one for each count of State.freeCtr: RDCYC after a resume (R249). -/
opaque freeWord : Nat → Word

/-- The code a converter image chooses for a lane's bit pattern (R394: a fixed function of the pattern, chosen by the image). -/
opaque converterCode : (image : Nat) → (pattern : Nat) → Nat

/-- A context key the thimble core generates, one for each count of State.freeCtr (R361). -/
opaque contextKey : Nat → BitVec 256

/-- The device identity key's digest, DEVICE_ID of reports (R380). -/
opaque deviceId : BitVec 384

/-- The digest of the signed configuration blob, CONFIG of reports (R380). -/
opaque configDigest : Nat → BitVec 384

/-- A signature of the identity key over a digest, r then s (R380). -/
opaque signature : (digest : Nat) → BitVec 768

/-- The public key of the signed configuration against which splice images are verified (R393, R421), as its point (x, y). -/
opaque spliceKey : Nat × Nat

/-- Node id of the port across lanyard link n, on the peer device (R131). -/
opaque peerPort : Nat → BitVec 16

/-- Unit id tested by slice i of the structural pattern set (R408, R409). -/
opaque sliceUnit : Nat → BitVec 8

end Sys2Proof.Config
end

