-- ==== Sys2Proof/Machine/Float.lean ====
section
/-!
DEFINITION. Number formats and arithmetic (R139 to R159): exact values, rounding into any format, conversions, and the
special functions rounded once from an enclosure far narrower than any rounding interval of binary32 (log 10).
-/

namespace Sys2Proof.Machine

/-- A value of a floating format: NaN, an infinity, or (-1)^neg * m * 2^e. -/
inductive Num where
  | nan
  | inf (neg : Bool)
  | fin (neg : Bool) (m : Nat) (e : Int)
  deriving DecidableEq, Repr

/-- A floating format by the fields of R141: sign bit, exponent bits, mantissa bits, bias, SPEC, OVF. The wide types are SPEC 1 with OVF 1. -/
structure FFmt where
  sgn : Bool
  eb : Nat
  mb : Nat
  bias : Int
  spec : Nat
  ovf : Nat
  deriving DecidableEq, Repr

/-- The wide types (R139). -/
def f32 : FFmt := ⟨true, 8, 23, 127, 1, 1⟩
def bf16 : FFmt := ⟨true, 8, 7, 127, 1, 1⟩
def f16 : FFmt := ⟨true, 5, 10, 15, 1, 1⟩

/-- Bits of a code of the format. -/
def FFmt.width (f : FFmt) : Nat := (if f.sgn then 1 else 0) + f.eb + f.mb

/-- The magnitude part of the all-ones code. -/
def FFmt.allOnes (f : FFmt) : Nat := 2 ^ (f.eb + f.mb) - 1

/-- The largest finite magnitude code (R143). -/
def FFmt.maxMag (f : FFmt) : Nat :=
  match f.spec with
  | 1 => (2 ^ f.eb - 1) * 2 ^ f.mb - 1
  | 2 => f.allOnes - 1
  | _ => f.allOnes

/-- Negative sign at the sign bit. -/
def FFmt.signed (f : FFmt) (neg : Bool) (mag : Nat) : Nat := if f.sgn && neg then 2 ^ (f.eb + f.mb) + mag else mag

/-- The NaN code, or the zero code where the format has none (R153). -/
def FFmt.nanCode (f : FFmt) : Nat :=
  match f.spec with
  | 1 => (2 ^ f.eb - 1) * 2 ^ f.mb + 2 ^ (f.mb - 1)
  | 2 => f.allOnes
  | _ => 0

/-- The value of a code (R143). -/
def FFmt.decode (f : FFmt) (code : Nat) : Num :=
  let mag := code % 2 ^ (f.eb + f.mb)
  let neg := f.sgn && code / 2 ^ (f.eb + f.mb) % 2 == 1
  let e := mag / 2 ^ f.mb
  let m := mag % 2 ^ f.mb
  if f.spec = 1 ∧ e = 2 ^ f.eb - 1 then (if m = 0 then .inf neg else .nan)
  else if f.spec = 2 ∧ mag = f.allOnes then .nan
  else if f.eb = 0 then .fin neg m (-f.bias)
  else if e = 0 then .fin neg m (1 - f.bias - f.mb)
  else .fin neg (2 ^ f.mb + m) ((e : Int) - f.bias - f.mb)

/-- How a value is rounded (R152, R154): STOCH carries its 24 random bits. -/
inductive Rnd where
  | rne
  | rtz
  | rup
  | rdn
  | stoch (u : Nat)
  deriving DecidableEq, Repr

/-- Arithmetic rounds under MODE and treats STOCH as RNE (R152). -/
def Rnd.ofArith (frm : BitVec 3) : Rnd :=
  match frm.toNat with
  | 1 => .rtz
  | 2 => .rup
  | 3 => .rdn
  | _ => .rne

/-- The exponent of the leading one. -/
def leadExp (m : Nat) (e : Int) : Int := (Nat.log2 m : Int) + e

/-- floor(m * 2^e / 2^q) and whether that is exact. -/
def scaleDown (m : Nat) (e q : Int) : Nat × Bool :=
  if q ≤ e then (m * 2 ^ (e - q).toNat, true)
  else
    let d := 2 ^ (q - e).toNat
    (m / d, m % d == 0)

/-- Whether a floor n of a magnitude is stepped up: `exact` no remainder, `cmp` the remainder against one half, `odd` the code's last bit. -/
def roundUp (r : Rnd) (neg exact : Bool) (cmp : Ordering) (odd : Bool) : Bool :=
  if exact then false
  else match r with
    | .rne => cmp == .gt || (cmp == .eq && odd)
    | .rup => !neg
    | .rdn => neg
    | _ => false

/-- The remainder of m * 2^e over the step 2^q, against one half. -/
def remCmp (m : Nat) (e q : Int) : Ordering :=
  if q ≤ e then .lt else compare (2 * (m % 2 ^ (q - e).toNat)) (2 ^ (q - e).toNat)

/-- The exponent of the last place of the format at a magnitude (R154). -/
def FFmt.place (f : FFmt) (m : Nat) (e : Int) : Int :=
  if f.eb = 0 then -f.bias else max (leadExp m e) (1 - f.bias) - f.mb

/-- The magnitude code, of unbounded size, whose value a rounded magnitude has. -/
def FFmt.magCode (f : FFmt) (m : Nat) (e : Int) (n : Nat) : Nat :=
  if f.eb = 0 then n else ((max (leadExp m e) (1 - f.bias) + f.bias - 1) * 2 ^ f.mb + n).toNat

/-- A nonzero magnitude rounded to a code of unbounded size (R153, R154). A tie of a format with no mantissa bit goes to the even code, whose last bit is
an exponent bit (log 59, DESIGN CHOICE). -/
def FFmt.roundMag (f : FFmt) (r : Rnd) (neg : Bool) (m : Nat) (e : Int) : Nat :=
  match r with
  | .stoch u =>
    let q := f.place m e
    -- |v| + u * 2^(q - 24), exactly
    let lo := min e (q - 24)
    let s := m * 2 ^ (e - lo).toNat + u * 2 ^ (q - 24 - lo).toNat
    if s = 0 then 0 else f.magCode s lo (scaleDown s lo (f.place s lo)).1
  | _ =>
    let q := f.place m e
    let (n, ex) := scaleDown m e q
    f.magCode m e (if roundUp r neg ex (remCmp m e q) (f.magCode m e n % 2 == 1) then n + 1 else n)

/-- A magnitude code beyond the largest finite one (R153, step 3): of an infinite source, or of a rounded finite value. -/
def FFmt.overflow (f : FFmt) (r : Rnd) (neg infinite : Bool) : Nat :=
  let toZero := match r with | .rtz => true | .rup => neg | .rdn => !neg | _ => false
  if f.ovf = 0 then f.signed neg f.maxMag
  else if f.spec = 2 then f.nanCode
  else if !infinite && toZero then f.signed neg f.maxMag
  else f.signed neg (f.maxMag + 1)

/-- The code a value is converted to (R153). -/
def FFmt.encode (f : FFmt) (r : Rnd) : Num → Nat
  | .nan => f.nanCode
  | .inf neg => if neg && !f.sgn then 0 else f.overflow r neg true
  | .fin neg m e =>
    if m = 0 || (neg && !f.sgn) then f.signed neg 0
    else
      let c := f.roundMag r neg m e
      if c ≤ f.maxMag then f.signed neg c else f.overflow r neg false

/-- A value rounded to an integer: exact sign and magnitude, then R153. -/
def roundInt (r : Rnd) (neg : Bool) (m : Nat) (e : Int) : Int :=
  let n := match r with
    | .stoch u =>
      let lo := min e (-24)
      (scaleDown (m * 2 ^ (e - lo).toNat + u * 2 ^ (-24 - lo).toNat) lo 0).1
    | _ =>
      let (n, ex) := scaleDown m e 0
      if roundUp r neg ex (remCmp m e 0) (n % 2 == 1) then n + 1 else n
  if neg then -(n : Int) else n

/-- The range of an integer type of a width (R140). -/
def intMin (sgn : Bool) (w : Nat) : Int := if sgn then -(2 ^ (w - 1)) else 0
def intMax (sgn : Bool) (w : Nat) : Int := if sgn then 2 ^ (w - 1) - 1 else 2 ^ w - 1

/-- Saturation into an integer type (R140). -/
def saturate (sgn : Bool) (w : Nat) (v : Int) : Int := max (intMin sgn w) (min (intMax sgn w) v)

/-- A conversion into an integer type (R140, R153). -/
def toIntSat (sgn : Bool) (w : Nat) (r : Rnd) : Num → Int
  | .nan => 0
  | .inf neg => if neg then intMin sgn w else intMax sgn w
  | .fin neg m e => saturate sgn w (roundInt r neg m e)

/-- An integer as a value. -/
def Num.ofInt (v : Int) : Num := .fin (v < 0) v.natAbs 0

/-- The exact sum of two finite values, as a signed multiple of a power of two. -/
def sumFin (n1 : Bool) (m1 : Nat) (e1 : Int) (n2 : Bool) (m2 : Nat) (e2 : Int) : Int × Int :=
  let lo := min e1 e2
  let a : Int := m1 * 2 ^ (e1 - lo).toNat
  let b : Int := m2 * 2 ^ (e2 - lo).toNat
  ((if n1 then -a else a) + (if n2 then -b else b), lo)

/-- An exact sum. A zero sum of opposite signs is +0, and -0 toward minus infinity (IEEE 754, R139). -/
def Num.add (r : Rnd) : Num → Num → Num
  | .nan, _ => .nan
  | _, .nan => .nan
  | .inf a, .inf b => if a = b then .inf a else .nan
  | .inf a, _ => .inf a
  | _, .inf b => .inf b
  | .fin n1 m1 e1, .fin n2 m2 e2 =>
    let (s, lo) := sumFin n1 m1 e1 n2 m2 e2
    if s = 0 then .fin (if m1 = 0 ∧ m2 = 0 ∧ n1 = n2 then n1 else r == .rdn) 0 0
    else .fin (s < 0) s.natAbs lo

/-- An exact product (R139). -/
def Num.mul : Num → Num → Num
  | .nan, _ => .nan
  | _, .nan => .nan
  | .inf a, .inf b => .inf (a != b)
  | .inf a, .fin n m _ => if m = 0 then .nan else .inf (a != n)
  | .fin n m _, .inf b => if m = 0 then .nan else .inf (n != b)
  | .fin n1 m1 e1, .fin n2 m2 e2 => .fin (n1 != n2) (m1 * m2) (e1 + e2)

/-- The opposite. -/
def Num.neg : Num → Num
  | .nan => .nan
  | .inf a => .inf (!a)
  | .fin n m e => .fin (!n) m e

/-- Signed comparison of finite values and infinities; -0 equals +0. -/
def Num.cmp : Num → Num → Ordering
  | .inf a, .inf b => if a = b then .eq else if a then .lt else .gt
  | .inf a, _ => if a then .lt else .gt
  | _, .inf b => if b then .gt else .lt
  | .fin n1 m1 e1, .fin n2 m2 e2 =>
    let lo := min e1 e2
    let a : Int := m1 * 2 ^ (e1 - lo).toNat
    let b : Int := m2 * 2 ^ (e2 - lo).toNat
    compare (if n1 then -a else a) (if n2 then -b else b)
  | _, _ => .eq

def Num.isNan : Num → Bool
  | .nan => true
  | _ => false

def Num.isNeg : Num → Bool
  | .nan => false
  | .inf n => n
  | .fin n _ _ => n

/-- An order in which -0 stands below +0 (R157). -/
def Num.le0 (a b : Num) : Bool :=
  match Num.cmp a b with
  | .lt => true
  | .gt => false
  | .eq => a.isNeg || !b.isNeg

/-- The lesser and the greater of two codes (R157): a NaN gives the canonical NaN. -/
def FFmt.min (f : FFmt) (a b : Nat) : Nat :=
  let x := f.decode a
  let y := f.decode b
  if x.isNan || y.isNan then f.nanCode else if x.le0 y then a else b

def FFmt.max (f : FFmt) (a b : Nat) : Nat :=
  let x := f.decode a
  let y := f.decode b
  if x.isNan || y.isNan then f.nanCode else if x.le0 y then b else a

/-- Correctly rounded sum, difference, product and fused product and sum (R157). -/
def FFmt.add (f : FFmt) (r : Rnd) (a b : Nat) : Nat := f.encode r (Num.add r (f.decode a) (f.decode b))
def FFmt.sub (f : FFmt) (r : Rnd) (a b : Nat) : Nat := f.encode r (Num.add r (f.decode a) (f.decode b).neg)
def FFmt.mul (f : FFmt) (r : Rnd) (a b : Nat) : Nat := f.encode r (Num.mul (f.decode a) (f.decode b))
def FFmt.fma (f : FFmt) (r : Rnd) (d a b : Nat) : Nat :=
  f.encode r (Num.add r (f.decode d) (Num.mul (f.decode a) (f.decode b)))
/-- d - a * b, rounded once (R296). -/
def FFmt.fms (f : FFmt) (r : Rnd) (d a b : Nat) : Nat :=
  f.encode r (Num.add r (f.decode d) (Num.mul (f.decode a) (f.decode b)).neg)

/-- Compare a with b: equal, less, unordered otherwise (R157). -/
def FFmt.eqv (f : FFmt) (a b : Nat) : Bool :=
  let x := f.decode a
  let y := f.decode b
  !x.isNan && !y.isNan && Num.cmp x y == .eq

def FFmt.lt (f : FFmt) (a b : Nat) : Bool :=
  let x := f.decode a
  let y := f.decode b
  !x.isNan && !y.isNan && Num.cmp x y == .lt

def FFmt.le (f : FFmt) (a b : Nat) : Bool := f.eqv a b || f.lt a b

/-- round_f32 under RNE (R149, R214). -/
def roundF32 (v : Num) : BitVec 32 := BitVec.ofNat 32 (f32.encode .rne v)

/-- One draw of the stochastic generator: the new state and the 24 bits (R154). -/
def stochStep (x : BitVec 32) : BitVec 32 :=
  let x := x ^^^ (x <<< 13)
  let x := x ^^^ (x >>> 17)
  x ^^^ (x <<< 5)

def stochBits (x : BitVec 32) : Nat := x.toNat / 256

/-- The rounding of a conversion under FRM with generator state x, and the state after it (R152, R154). -/
def Rnd.ofConv (frm : BitVec 3) (x : BitVec 32) : Rnd × BitVec 32 :=
  if frm = 4 then (.stoch (stochBits (stochStep x)), stochStep x) else (Rnd.ofArith frm, x)

/-- The narrow format of a format register of kind 0 (R141). -/
def narrowFmt (f : BitVec 32) : FFmt where
  sgn := f.getLsbD 8
  eb := (f.extractLsb' 9 3).toNat
  mb := (f.extractLsb' 4 4).toNat - (if f.getLsbD 8 then 1 else 0) - (f.extractLsb' 9 3).toNat
  bias := (f.extractLsb' 12 8).toInt
  spec := (f.extractLsb' 20 2).toNat
  ovf := (f.extractLsb' 22 2).toNat

/-- Fields of a format register (R141). -/
def fmtKind (f : BitVec 32) : Nat := f.toNat % 16
def fmtW (f : BitVec 32) : Nat := f.toNat / 16 % 16
def fmtScale (f : BitVec 32) : Nat := f.toNat / 2 ^ 24 % 4
def fmtConv (f : BitVec 32) : Nat := f.toNat / 2 ^ 26

/-- A format register is valid (R142). -/
def fmtValid (f : BitVec 32) : Bool :=
  let kind := fmtKind f
  let s := if f.getLsbD 8 then 1 else 0
  let eb := (f.extractLsb' 9 3).toNat
  let spec := (f.extractLsb' 20 2).toNat
  let ovf := (f.extractLsb' 22 2).toNat
  if 1 ≤ kind ∧ kind ≤ 4 then true
  else if kind = 0 ∨ kind = 15 then
    4 ≤ fmtW f && fmtW f ≤ 8 && s + eb ≤ fmtW f && spec != 3 &&
      !(spec == 1 && (eb < 2 || fmtW f < s + eb + 1)) && ovf < 2 && !(ovf == 1 && spec == 0)
  else false

/-! Special functions (R158, R159). Fixed-point numbers have 640 fraction bits. -/

def fxP : Nat := 640
def fxOne : Nat := 2 ^ fxP

/-- ln 2 = 2 artanh(1/3) = 2 Σ 1 / ((2i+1) 3^(2i+1)): `n` terms more from power p = 2^P / 3^(2i+1). -/
def lnSeries (z2n z2d : Nat) : Nat → Nat → Nat → Nat
  | 0, _, _ => 0
  | n + 1, i, p => p / (2 * i + 1) + lnSeries z2n z2d n (i + 1) (p * z2n / z2d)

/-- 2 artanh(a / b) for a < b / 2. -/
def fxArtanh2 (a b : Nat) : Nat := 2 * lnSeries (a * a) (b * b) 420 0 (fxOne * a / b)

def fxLn2 : Nat := fxArtanh2 1 3

/-- Σ y^i / i! from term t of index i, for 0 ≤ y < 1. -/
def expSeries (y : Nat) : Nat → Nat → Nat → Nat
  | 0, _, _ => 0
  | n + 1, i, t => t + expSeries y n (i + 1) (t * y / fxOne / (i + 1))

def fxExp (y : Nat) : Nat := expSeries y 160 0 fxOne

/-- A positive fixed-point value with 2^n and a sticky last bit, rounded to binary32 under RNE: the true value is not representable. -/
def fxRound (neg : Bool) (v : Nat) (n : Int) : Nat := f32.encode .rne (.fin neg (v / 2 ^ 64 * 2 + 1) (n - fxP + 63))

/-- A finite value as a fixed-point magnitude; exact for exponents from -600 up. -/
def fxOf (m : Nat) (e : Int) : Nat := (scaleDown m e (-(fxP : Int))).1

/-- e^y for y ≥ 0 in fixed point as v * 2^n. -/
def fxExpBig (y : Nat) : Nat × Nat :=
  let n := y / fxLn2
  (fxExp (y - n * fxLn2), n)

/-- 2^x. -/
def fexp2 (c : Nat) : Nat :=
  match f32.decode c with
  | .nan => f32.nanCode
  | .inf neg => if neg then 0 else 0x7F800000
  | .fin neg m e =>
    if m = 0 then 0x3F800000
    else if !neg && leadExp m e ≥ 7 then 0x7F800000
    else if neg && leadExp m e ≥ 8 then 0
    else
      let v := fxOf m e
      let i : Int := if neg then -((v + fxOne - 1) / fxOne : Nat) else (v / fxOne : Nat)
      let f := if neg then (fxOne - v % fxOne) % fxOne else v % fxOne
      if f = 0 then f32.encode .rne (.fin false 1 i)
      else fxRound false (fxExp (f * fxLn2 / fxOne)) i

/-- log2 x. -/
def flog2 (c : Nat) : Nat :=
  match f32.decode c with
  | .nan => f32.nanCode
  | .inf neg => if neg then f32.nanCode else 0x7F800000
  | .fin neg m e =>
    if m = 0 then 0xFF800000
    else if neg then f32.nanCode
    else
      let h := Nat.log2 m
      let n := leadExp m e
      if m = 2 ^ h then f32.encode .rne (Num.ofInt n)
      else
        let l := fxArtanh2 (m - 2 ^ h) (m + 2 ^ h) * fxOne / fxLn2
        if n ≥ 0 then fxRound false (n.toNat * fxOne + l) 0
        else fxRound true (n.natAbs * fxOne - l) 0

/-- 1 / x: quotient to 80 bits beyond the point of the larger of both, with a sticky bit. -/
def frcp (c : Nat) : Nat :=
  match f32.decode c with
  | .nan => f32.nanCode
  | .inf neg => f32.signed neg 0
  | .fin neg m e =>
    if m = 0 then f32.signed neg 0x7F800000
    else
      let q := 2 ^ 80 / m
      f32.encode .rne (.fin neg (q * 2 + (if 2 ^ 80 % m = 0 then 0 else 1)) (-81 - e))

/-- Integer square root by bisection over `n` bits, from the root so far. -/
def isqrtGo (x : Nat) : Nat → Nat → Nat
  | 0, r => r
  | n + 1, r => isqrtGo x n (if (r + 2 ^ n) * (r + 2 ^ n) ≤ x then r + 2 ^ n else r)

def isqrt (x : Nat) : Nat := isqrtGo x (Nat.log2 x / 2 + 1) 0

/-- The square root. -/
def fsqrt (c : Nat) : Nat :=
  match f32.decode c with
  | .nan => f32.nanCode
  | .inf neg => if neg then f32.nanCode else 0x7F800000
  | .fin neg m e =>
    if m = 0 then f32.signed neg 0
    else if neg then f32.nanCode
    else
      let odd : Int := e % 2
      let x := m * 2 ^ (60 + odd.toNat)
      let r := isqrt x
      f32.encode .rne (.fin false (r * 2 + (if r * r = x then 0 else 1)) ((e - odd - 60) / 2 - 1))

/-- 1 / sqrt x. -/
def frsq (c : Nat) : Nat :=
  match f32.decode c with
  | .nan => f32.nanCode
  | .inf neg => if neg then f32.nanCode else 0
  | .fin neg m e =>
    if m = 0 then f32.signed neg 0x7F800000
    else if neg then f32.nanCode
    else
      let odd : Int := e % 2
      -- 1 / sqrt(m 2^e) = sqrt(2^(160 - odd) / m) * 2^(-(160 + e - odd) / 2) with m 2^odd under the root
      let d := m * 2 ^ odd.toNat
      let r := isqrt (2 ^ 160 / d)
      f32.encode .rne (.fin false (r * 2 + (if r * r * d = 2 ^ 160 then 0 else 1)) (-80 - (e - odd) / 2 - 1))

/-- tanh x. -/
def ftanh (c : Nat) : Nat :=
  match f32.decode c with
  | .nan => f32.nanCode
  | .inf neg => f32.signed neg 0x3F800000
  | .fin neg m e =>
    if m = 0 then f32.signed neg 0
    else if leadExp m e ≥ 6 then f32.signed neg 0x3F800000
    else
      let (v, n) := fxExpBig (2 * fxOf m e)
      let t := v * 2 ^ n
      fxRound neg ((t - fxOne) * fxOne / (t + fxOne)) 0

/-- 1 / (1 + e^(-x)). -/
def fsig (c : Nat) : Nat :=
  match f32.decode c with
  | .nan => f32.nanCode
  | .inf neg => if neg then 0 else 0x3F800000
  | .fin neg m e =>
    if m = 0 then 0x3F000000
    else if leadExp m e ≥ 7 then (if neg then 0 else 0x3F800000)
    else
      let (v, n) := fxExpBig (fxOf m e)
      let t := v * 2 ^ n
      -- x < 0: 1 / (1 + t); x > 0: t / (1 + t)
      fxRound false ((if neg then fxOne else t) * fxOne / (t + fxOne)) 0

end Sys2Proof.Machine
end

