-- ==== Sys2Proof/Machine/Crypto.lean ====
section
/-!
DEFINITION. The algorithms the specification names: SHA-384 (R190, R212, R381), AES-256-GCM (R322) and ECDSA over P-384
(R212, R393, R421), written from their public standards. Constants of SHA-384 are computed from their definitions.
-/

namespace Sys2Proof.Machine

/-- Bytes as a big-endian number. -/
def beNat (bs : List Byte) : Nat := bs.foldl (fun a b => a * 256 + b.toNat) 0

/-- Bytes as a little-endian number (R3). -/
def leNat (bs : List Byte) : Nat := bs.foldr (fun b a => a * 256 + b.toNat) 0

/-- The n low bytes of a number, least significant first (R3). -/
def leBytes : Nat → Nat → List Byte
  | 0, _ => []
  | n + 1, v => BitVec.ofNat 8 v :: leBytes n (v / 256)

/-- The n low bytes of a number, most significant first. -/
def beBytes (n v : Nat) : List Byte := (leBytes n v).reverse

/-- The first 80 primes. -/
def primes80 : List Nat :=
  (List.range 410).filter fun n => 2 ≤ n && (List.range 21).all fun d => d < 2 || n ≤ d || n % d != 0

/-- Integer cube root by bisection. -/
def icbrtGo (x : Nat) : Nat → Nat → Nat
  | 0, r => r
  | n + 1, r => icbrtGo x n (if (r + 2 ^ n) * (r + 2 ^ n) * (r + 2 ^ n) ≤ x then r + 2 ^ n else r)

/-- The round constants: fraction bits of the cube roots of the first 80 primes. -/
def shaK : List Word := primes80.map fun p => BitVec.ofNat 64 (icbrtGo (p * 2 ^ 192) 68 0)

/-- The initial state: fraction bits of the square roots of the ninth to sixteenth primes. -/
def shaInit : List Word := ((primes80.drop 8).take 8).map fun p => BitVec.ofNat 64 (isqrt (p * 2 ^ 128))

/-- The message schedule, newest word first. -/
def shaSchedule : Nat → List Word → List Word
  | 0, ws => ws
  | n + 1, ws =>
    let w2 := ws.getD 1 0
    let w7 := ws.getD 6 0
    let w15 := ws.getD 14 0
    let w16 := ws.getD 15 0
    let s0 := w15.rotateRight 1 ^^^ w15.rotateRight 8 ^^^ (w15 >>> 7)
    let s1 := w2.rotateRight 19 ^^^ w2.rotateRight 61 ^^^ (w2 >>> 6)
    shaSchedule n ((s1 + w7 + s0 + w16) :: ws)

/-- One round over the eight working words. -/
def shaRound (v : List Word) (kw : Word × Word) : List Word :=
  match v with
  | [a, b, c, d, e, f, g, h] =>
    let s1 := e.rotateRight 14 ^^^ e.rotateRight 18 ^^^ e.rotateRight 41
    let ch := (e &&& f) ^^^ (~~~e &&& g)
    let t1 := h + s1 + ch + kw.1 + kw.2
    let s0 := a.rotateRight 28 ^^^ a.rotateRight 34 ^^^ a.rotateRight 39
    let mj := (a &&& b) ^^^ (a &&& c) ^^^ (b &&& c)
    [t1 + s0 + mj, a, b, c, d + t1, e, f, g]
  | _ => v

/-- One block of 128 bytes. -/
def shaBlock (h : List Word) (bs : List Byte) : List Word :=
  let ws := (List.range 16).map fun i => BitVec.ofNat 64 (beNat ((bs.drop (8 * i)).take 8))
  let sch := (shaSchedule 64 ws.reverse).reverse
  List.zipWith (· + ·) h ((shaK.zip sch).foldl shaRound h)

/-- Blocks of a padded message. -/
def shaBlocks : Nat → List Word → List Byte → List Word
  | 0, h, _ => h
  | n + 1, h, bs => shaBlocks n (shaBlock h (bs.take 128)) (bs.drop 128)

/-- SHA-384 of a byte string, as a number read big-endian. -/
def sha384 (msg : List Byte) : BitVec 384 :=
  let l := msg.length
  let z := (128 - (l + 17) % 128) % 128
  let m := msg ++ [0x80#8] ++ List.replicate z 0#8 ++ beBytes 16 (8 * l)
  BitVec.ofNat 384 (((shaBlocks (m.length / 128) shaInit m).take 6).foldl (fun a w => a * 2 ^ 64 + w.toNat) 0)

/-! AES-256 -/

/-- Multiplication by x in the field of AES. -/
def aesX (a : Byte) : Byte := (a <<< 1) ^^^ (if a.getLsbD 7 then 0x1B#8 else 0#8)

/-- Product in the field of AES, over `n` bits of b. -/
def aesMul : Nat → Byte → Byte → Byte
  | 0, _, _ => 0#8
  | n + 1, a, b => (if b.getLsbD 0 then a else 0#8) ^^^ aesMul n (aesX a) (b >>> 1)

/-- a^254, the inverse. -/
def aesInv (a : Byte) : Byte :=
  let m := aesMul 8
  let a2 := m a a
  let a3 := m a2 a
  let a6 := m a3 a3
  let a12 := m a6 a6
  let a15 := m a12 a3
  let a30 := m a15 a15
  let a60 := m a30 a30
  let a120 := m a60 a60
  let a126 := m a120 a6
  let a127 := m a126 a
  m a127 a127

def aesSub (a : Byte) : Byte :=
  let b := aesInv a
  b ^^^ b.rotateLeft 1 ^^^ b.rotateLeft 2 ^^^ b.rotateLeft 3 ^^^ b.rotateLeft 4 ^^^ 0x63#8

/-- The substitution box. -/
def aesBox : List Byte := (List.range 256).map fun i => aesSub (BitVec.ofNat 8 i)

def sbox (box : List Byte) (a : Byte) : Byte := box.getD a.toNat 0#8

def xorBytes (a b : List Byte) : List Byte := List.zipWith (· ^^^ ·) a b

/-- The key schedule, words of four bytes, newest first. -/
def aesExpand (box : List Byte) : Nat → Nat → Byte → List (List Byte) → List (List Byte)
  | 0, _, _, ws => ws
  | n + 1, i, rc, ws =>
    let prev := ws.getD 0 []
    let t :=
      if i % 8 = 0 then xorBytes ((prev.drop 1 ++ prev.take 1).map (sbox box)) [rc, 0#8, 0#8, 0#8]
      else if i % 8 = 4 then prev.map (sbox box) else prev
    aesExpand box n (i + 1) (if i % 8 = 0 then aesX rc else rc) (xorBytes (ws.getD 7 []) t :: ws)

/-- The fifteen round keys of a 32-byte key. -/
def aesKeys (box : List Byte) (key : List Byte) : List (List Byte) :=
  let ws := (aesExpand box 52 8 1#8 ((List.range 8).map fun i => (key.drop (4 * i)).take 4).reverse).reverse
  (List.range 15).map fun r => ((ws.drop (4 * r)).take 4).flatten

/-- Rows shifted: byte i of the result is byte 5 i mod 16 (column order). -/
def aesShift (s : List Byte) : List Byte := (List.range 16).map fun i => s.getD (5 * i % 16) 0#8

/-- One column mixed. -/
def aesMix (c : List Byte) : List Byte :=
  match c with
  | [a, b, c, d] =>
    [aesX a ^^^ aesX b ^^^ b ^^^ c ^^^ d, a ^^^ aesX b ^^^ aesX c ^^^ c ^^^ d,
     a ^^^ b ^^^ aesX c ^^^ aesX d ^^^ d, aesX a ^^^ a ^^^ b ^^^ c ^^^ aesX d]
  | _ => c

/-- One block enciphered. -/
def aesBlock (box : List Byte) (keys : List (List Byte)) (b : List Byte) : List Byte :=
  let s := xorBytes b (keys.getD 0 [])
  let s := ((keys.drop 1).take 13).foldl (fun s k =>
    let t := aesShift (s.map (sbox box))
    xorBytes ((List.range 4).flatMap fun c => aesMix ((t.drop (4 * c)).take 4)) k) s
  xorBytes (aesShift (s.map (sbox box))) (keys.getD 14 [])

/-- Product in the field of GCM, most significant bit first: z + x v over the n low bits of x. -/
def gcmMul : Nat → Nat → Nat → Nat → Nat
  | 0, _, _, z => z
  | n + 1, x, v, z =>
    gcmMul n x (if v % 2 = 1 then (v / 2) ^^^ (0xE1 * 2 ^ 120) else v / 2) (if x / 2 ^ n % 2 = 1 then z ^^^ v else z)

/-- The blocks of 16 bytes of a string. -/
def blocks16 : Nat → List Byte → List (List Byte)
  | 0, _ => []
  | n + 1, bs => bs.take 16 :: blocks16 n (bs.drop 16)

/-- A sector of 512 bytes under AES-256-GCM with no associated data: the plaintext where the tag verifies (R322). -/
def gcmOpen (key : BitVec 256) (iv : Nat) (ct : List Byte) (tag : Nat) : Option (List Byte) :=
  let box := aesBox
  let ks := aesKeys box (beBytes 32 key.toNat)
  let h := beNat (aesBlock box ks (List.replicate 16 0#8))
  let ctr := fun i => aesBlock box ks (beBytes 12 iv ++ beBytes 4 i)
  let bs := blocks16 (ct.length / 16) ct
  let g := bs.foldl (fun y b => gcmMul 128 (y ^^^ beNat b) h 0) 0
  let g := gcmMul 128 (g ^^^ (8 * ct.length)) h 0
  if g ^^^ beNat (ctr 1) = tag then
    some ((bs.zip (List.range bs.length)).flatMap fun (b, i) => xorBytes b (ctr (i + 2)))
  else none

/-! ECDSA over P-384 -/

def p384 : Nat := 2 ^ 384 - 2 ^ 128 - 2 ^ 96 + 2 ^ 32 - 1
def p384n : Nat := 0xffffffffffffffffffffffffffffffffffffffffffffffffc7634d81f4372ddf581a0db248b0a77aecec196accc52973
def p384b : Nat := 0xb3312fa7e23ee7e4988e056be3f82d19181d9c6efe8141120314088f5013875ac656398d8a2ed19d2a85c8edd3ec2aef
def p384G : Nat × Nat :=
  (0xaa87ca22be8b05378eb1c71ef320ad746e1d3b628ba79b9859f741e082542a385502f25dbf55296c3a545e3872760ab7,
   0x3617de4a96262c6f5d9e98bf9292dc29f8f41dbd289a147ce9da3113b5f0b8c00a60b1ce1d7e819d7a431d7c90ea0e5f)

/-- b^e mod m over n bits of e. -/
def powMod (m : Nat) : Nat → Nat → Nat → Nat
  | 0, _, _ => 1 % m
  | n + 1, b, e => (if e % 2 = 1 then b else 1) * powMod m n (b * b % m) (e / 2) % m

/-- Inverse modulo a prime. -/
def invMod (m a : Nat) : Nat := powMod m 384 (a % m) (m - 2)

/-- Sum of two points; none is the point at infinity. -/
def ecAdd (a b : Option (Nat × Nat)) : Option (Nat × Nat) :=
  match a, b with
  | none, q => q
  | q, none => q
  | some (x1, y1), some (x2, y2) =>
    if x1 = x2 ∧ (y1 + y2) % p384 = 0 then none
    else
      let l :=
        if x1 = x2 then (3 * x1 * x1 + (p384 - 3)) * invMod p384 (2 * y1) % p384
        else (y2 + p384 - y1) * invMod p384 (x2 + p384 - x1) % p384
      let x3 := (l * l + 2 * p384 - x1 - x2) % p384
      some (x3, (l * (x1 + p384 - x3) + p384 - y1) % p384)

/-- k times a point over n bits of k. -/
def ecMul : Nat → Nat → Option (Nat × Nat) → Option (Nat × Nat)
  | 0, _, _ => none
  | n + 1, k, q => ecAdd (if k % 2 = 1 then q else none) (ecMul n (k / 2) (ecAdd q q))

/-- The point lies on the curve. -/
def onCurve (q : Nat × Nat) : Bool :=
  q.1 < p384 && q.2 < p384 && q.2 * q.2 % p384 == (q.1 * q.1 * q.1 + (p384 - 3) * q.1 + p384b) % p384

/-- The ECDSA P-384 signature (r, s) over a digest verifies under a public point. -/
def ecdsaVerify (key : Nat × Nat) (digest : BitVec 384) (sig : Nat × Nat) : Bool :=
  let (r, s) := sig
  if r = 0 || p384n ≤ r || s = 0 || p384n ≤ s || !onCurve key then false
  else
    let w := invMod p384n s
    match ecAdd (ecMul 384 (digest.toNat * w % p384n) (some p384G)) (ecMul 384 (r * w % p384n) (some key)) with
    | none => false
    | some (x, _) => x % p384n == r

end Sys2Proof.Machine
end

