-- ==== Sys2Proof/Machine/State.lean ====
section
/-!
DEFINITION. The state of the machine as plain data: strands, braids, partitions and the device, and the state after reset.
Sparse files are lists of key and value in rising key order; what a key that is not listed reads as is said at each field.
-/

namespace Sys2Proof.Machine

/-- A sparse file: values by rising key. -/
abbrev Store (V : Type) := List (Nat × V)

namespace Store

/-- The value at key k; d where none is listed. -/
def get {V : Type} (m : Store V) (k : Nat) (d : V) : V :=
  match m with
  | [] => d
  | (j, v) :: t => if j = k then v else get t k d

/-- Key k is listed. -/
def has {V : Type} (m : Store V) (k : Nat) : Bool := m.any fun e => e.1 == k

/-- Lists value v at key k, in key order. -/
def put {V : Type} (m : Store V) (k : Nat) (v : V) : Store V :=
  match m with
  | [] => [(k, v)]
  | (j, w) :: t => if j = k then (k, v) :: t else if k < j then (k, v) :: (j, w) :: t else (j, w) :: put t k v

/-- Takes key k off the list. -/
def del {V : Type} (m : Store V) (k : Nat) : Store V := m.filter fun e => e.1 != k

/-- Writes v at key k of a file whose unlisted keys read d: the value d is never listed. -/
def set {V : Type} [DecidableEq V] (m : Store V) (k : Nat) (v d : V) : Store V :=
  if v = d then m.del k else m.put k v

end Store

/-- An entry of the loop stack (R222): addresses carry the form bit. -/
structure LoopEntry where
  first : Nat
  last : Nat
  /-- The address after the body. -/
  exit : Nat
  count : Nat
  /-- N of LOOPR (R223). -/
  n : Nat
  idx : BitVec 32
  depth : Nat
  rot : Bool
  deriving DecidableEq, Repr

/-- An entry of the link stack (R217). -/
structure LinkEntry where
  ret : BitVec 48
  depth : BitVec 3
  deriving DecidableEq, Repr

/-- One register write, with every value it needs (R185, R214). Scalar and predicate names are mapped to cells at issue (R226). -/
inductive Eff where
  /-- Scalar cell 0 to 63. -/
  | x (cell : Nat) (v : Word)
  /-- Predicate cell 0 to 7. -/
  | p (cell : Nat) (v : Bool)
  /-- The bits of a tile row that m enables. -/
  | tile (t r : Nat) (v m : Row)
  /-- The bits of a mask register that m enables. -/
  | mask (i : Nat) (v m : BitVec 256)
  | k (i : Nat) (v : Word)
  | zbuf (i : Nat) (v : Row)
  /-- The bits of entry i of a pattern bank that m enables. -/
  | pat (bank i : Nat) (v m : Rec)
  /-- A row of an accumulator bank; a bank not in use takes the type (R329). -/
  | acc (a r : Nat) (v : Row) (int : Bool)
  /-- MMA: row r of tile ta enters the array for bank group g; its products land `lat` cycles later (R327). -/
  | mmaIn (g ta r lat : Nat) (accum int : Bool) (fa fb : BitVec 32) (tab : Nat) (zs : Row) (set : Nat)
  /-- MMA: row r of the three banks of group g is written, from the row arow read at its cycle (R327). -/
  | mmaOut (g r : Nat) (accum int : Bool) (arow : Row) (fa fb : BitVec 32) (tab : Nat) (zs : Row) (set : Nat)
  /-- The latch of a slot takes a value, unless a group switch has come between (R169, R170). -/
  | latch (slot : Nat) (v : Word) (gen : Nat)
  deriving DecidableEq, Repr

/-- A register an operation reads or writes, for the scoreboard and the dense interlock (R75, R198). -/
inductive Res where
  | x (cell : Nat)
  | p (cell : Nat)
  | row (t r : Nat)
  | mask (i : Nat)
  | k (i : Nat)
  | fmt (i : Nat)
  | zbuf (i : Nat)
  | bank (a r : Nat)
  | pat
  | latch (slot : Nat)
  /-- A system register, the seed among them (number of R245). -/
  | sys (num : Nat)
  deriving DecidableEq, Repr

/-- A fixed-latency result in flight: the cycle of its write and its place among writes of that cycle (R173, R185). -/
structure Pend where
  due : Nat
  ord : Nat
  eff : Eff
  deriving DecidableEq, Repr

/-- A memory access of slot M or F with the values it needs, so that it can be performed when its request is served (R135, R254 to R258). -/
structure Req where
  /-- 0 load, 1 store, 2 atomic. -/
  kind : Nat
  /-- Opcode of slot M; 32 for SCLD, 33 for PARAM, 34 for the refill of RET. -/
  op : Nat
  /-- Physical address; a slab byte is bank * 65536 + offset. -/
  addr : Nat
  slab : Bool
  size : Nat
  /-- Store data; AMO operand and comparand. -/
  data : Row
  cmp : Word
  /-- Destination cell or tile row or scale buffer. -/
  cell : Nat
  tile : Nat
  row : Nat
  slot : Nat
  gen : Nat
  /-- The arm of a buffered unit (R52). -/
  arm : Option Nat
  /-- Virtual address and ordering class (R82, R106). -/
  va : Nat
  cls : Nat
  /-- Serial number of its issue, the order of R135. -/
  seq : Nat := 0
  /-- An invalidation has removed the translation it used (R82). -/
  afresh : Bool := false
  deriving DecidableEq, Repr

/-- A scoreboarded result in flight (R75): its writes once known. `tok` names the token operation it waits for; `req` the entry and
request held on a suspended route or behind another held one (R107, R135); `dests` the registers it will write. -/
structure Sbd where
  dests : List Res
  effs : List Eff
  tok : Option Nat
  req : Option (Nat × Req)
  /-- The request is at its home, its response lost on the return route (R135). -/
  lost : Bool := false
  /-- SCLD: the cycle of its write, from which the strand stalls until it arrives (R335). -/
  due : Option Nat
  /-- The earliest cycle of its write (R316). -/
  early : Nat := 0
  /-- A pop of this FIFO bank (R69). -/
  fifo : Option Nat := none
  /-- Virtual address, size and kind of a slot M access, for data breakpoints (R356). -/
  acc : Option (Nat × Nat × Nat) := none
  deriving DecidableEq, Repr

/-- A trap found at a bundle: cause, the step of R184, its place within the step, slot, ADDR, DETAIL, CODE. -/
structure Trap where
  cause : Nat
  step : Nat
  sub : Nat := 0
  slot : Nat := 0
  addr : Nat := 0
  detail : Nat := 0
  code : Nat := 0
  /-- A BRK instruction, which may be taken in-strand (R231). -/
  brk : Bool := false
  /-- Hardware breakpoints that matched (R357). -/
  bp : BitVec 4 := 0
  deriving DecidableEq, Repr

/-- A freeze under way that waits for the value of a held load (R350): cause, SAFE index, and the trap whose record it will write. -/
structure Frz where
  cause : Nat
  atSafe : Option Nat
  trap : Option Trap
  deriving DecidableEq, Repr

/-- A stall on a FIFO, a pop or a push, since a cycle (R257): bank n is at n, outbound vertical FIFO f at 64 + f, inbound f at 96 + f. -/
structure FifoWait where
  at_ : Nat
  pop : Bool
  since : Nat
  deriving DecidableEq, Repr

/-- What a strand waits for before its bundle can be fetched or checked (R63, R83). -/
inductive Hold where
  /-- An instruction fetch that missed: the virtual line address. -/
  | fetch (line : Nat)
  /-- A page walk for a virtual address. -/
  | walk (va : Nat)
  deriving DecidableEq, Repr

/-- The state of a bind slot (R40). -/
inductive SlotState where
  | empty
  | waiting
  | preloading
  | ready
  | running
  | frozen
  | ending
  deriving DecidableEq, Repr

/-- A bind slot: record, status and what dispatch keeps for it (R38 to R43); HOLD follows from the rest (State.holdOf). -/
structure Slot where
  st : SlotState := .empty
  bind : Rec := 0
  desc : Option Rec := none
  predone : Bool := false
  refused : Bool := false
  invalid : Bool := false
  reason : Nat := 0
  cause : Nat := 0
  /-- Start-time transfers made and slab-list entries defined. -/
  xfers : Nat := 0
  slabs : Nat := 0
  /-- Start-time transfers made, newest first: kind, lender, physical base, log2 of the size (R42). -/
  made : List (Nat × BitVec 24 × Nat × Nat) := []
  /-- Lines the code preload locked (R43). -/
  lines : List Nat := []
  /-- The bytes of bank PBANK hold a pad preload from its start on; the bank is reserved (R43). -/
  pad : Bool := false
  /-- Not preloaded until the rerun's HALT, and then afresh (R44). -/
  blocked : Bool := false
  /-- PARAMS of a handler launch (R346). -/
  params : Option (BitVec 48) := none
  /-- The record's strand context stands in a saved image and not on the strand (R351). -/
  saved : Bool := false
  deriving DecidableEq, Repr

/-- An engine command accepted and not ended (R267), a posted receive (R279), or one held until a decision (R52). -/
structure Cmd where
  /-- Serial number of the issue, the order of R110. -/
  seq : Nat
  strand : Nat
  world : Nat
  /-- Opcode of slot E. -/
  op : Nat
  cls : Nat
  scope : Nat
  evt : Nat
  flags : Nat
  /-- The staging block as read at issue. -/
  blk : List Word
  /-- The tokens the strand held at acceptance: base, log2, whole tokens 0, tickets 1, participations 2 (R87, R267). -/
  held : List (Nat × Nat × Nat)
  /-- Service has begun. -/
  begun : Bool := false
  /-- Bytes or elements already performed (R270). -/
  done : Nat := 0
  /-- The route book entry that holds its requests (R135). -/
  entry : Option Nat := none
  /-- A message or event bump has been injected and its outcome is awaited. -/
  sent : Bool := false
  /-- The unit is buffered: held at issue until the decision (R52). -/
  buffered : Bool := false
  /-- The engine has accepted it (R267, R272). -/
  acc : Bool := false
  /-- It has put the slab it writes in state filling, the slab it reads in state draining (R72). -/
  fills : Bool := false
  drained : Bool := false
  /-- A supervisor unit of the launch with this level index issued it (R288). -/
  launch : Nat := 0
  supv : Bool := false
  deriving DecidableEq, Repr

/-- A translation held (R81): the leaf found for a 64 KiB page of a world. -/
structure TlbEntry where
  world : Nat
  vpage : Nat
  /-- The physical base of the 64 KiB page; the leaf's VIS, SEALED, X, W. -/
  page : Nat
  vis : Nat
  isSealed : Bool
  x : Bool
  w : Bool
  deriving DecidableEq, Repr

/-- The registers of a strand (R13, R36, R171). -/
structure Regs where
  /-- Cells 0 to 31 are s0 to s31, 32 to 47 the ring of s32 to s47, 48 to 63 o0 to o15; unlisted cells read 0. -/
  x : Store Word := []
  /-- Predicate cells: bit 0 is p0, bits 4 to 7 the ring of p4 to p7. -/
  pr : BitVec 8 := 1
  ringS : BitVec 4 := 0
  ringP : BitVec 2 := 0
  /-- Row r of tile t at key 16 t + r; unlisted rows read 0. -/
  tile : Store Row := []
  tUse : BitVec 16 := 0
  tDirty : BitVec 16 := 0
  /-- Row r of bank a at key 16 a + r. -/
  acc : Store Row := []
  aUse : BitVec 6 := 0
  aDirty : BitVec 6 := 0
  /-- Type of each bank: 1 for i32 (R331). -/
  aInt : BitVec 6 := 0
  /-- XRANGE, FOVF, IOVF of bank a at bits 3 a + 2 to 3 a (R151). -/
  aFlag : BitVec 18 := 0
  mask : Store (BitVec 256) := []
  k : Store Word := []
  ecnt : Store (BitVec 32) := []
  estat : Store (BitVec 32) := []
  fmt : Store (BitVec 32) := []
  zbuf : Store Row := []
  /-- Entry i of pattern bank b at key 64 b + i (R312). -/
  pat : Store Rec := []
  patBank : Bool := false
  frm : BitVec 3 := 0
  stoch : BitVec 32 := 0x6D2B79F5
  deriving DecidableEq, Repr

/-- The control state of a strand (R35, R170, R217 to R233). -/
structure Ctl where
  /-- Code address with its form bit (R193, R215). -/
  pc : Word := 0
  /-- Innermost first. -/
  loops : List LoopEntry := []
  /-- Newest first. -/
  links : List LinkEntry := []
  callDepth : Nat := 0
  linkBase : Word := 0
  linkLimit : Word := 0
  linkTop : Word := 0
  leaseRun : Nat := 0
  trapCtl : BitVec 4 := 0
  trapVec : BitVec 48 := 0
  trapEpc : BitVec 48 := 0
  trapCause : BitVec 23 := 0
  /-- The bundle whose TRAP or BRK was last taken in-strand (R232). -/
  localPc : Word := 0
  /-- The strand holds the lease, or its run is arbitrated again (R58, R60). -/
  leaseHas : Bool := false
  /-- An MLEASE has made its request and waits for the grant (R58). -/
  leaseAsked : Bool := false
  /-- Latches by slot and their valid bits. -/
  latch : Store Word := []
  latchOk : BitVec 8 := 0
  /-- Group switches so far (own). -/
  gen : Nat := 0
  /-- Barriers at which the strand's arrival is recorded, with the generation (R233). -/
  barArr : Store Bool := []
  syncArr : Bool := false
  deriving DecidableEq, Repr

/-- A strand: registers, control state, what is in flight and the conditions of its unit. -/
structure Strand where
  r : Regs := {}
  c : Ctl := {}
  clk : Nat := 0
  clkFree : Bool := false
  pend : List Pend := []
  sbd : List Sbd := []
  /-- Earliest next issue of a class in a slot, at key 64 slot + class (R187). -/
  nextIss : Store Nat := []
  hold : Option Hold := none
  /-- Pages the bundle's walks have resolved to a fault (own, R83). -/
  walked : List Nat := []
  /-- One cycle after the last bundle to issue (R350). -/
  lastClk : Nat := 0
  /-- Pre-emption request: its stop code and the bundles issued since (R348). -/
  preempt : Option (Nat × Nat) := none
  /-- The strand froze after a SAFE bundle with this live-map index (R345). -/
  atSafe : Option Nat := none
  skip0 : Bool := false
  skipRest : Bool := false
  haltWait : Bool := false
  pendErr : List Nat := []
  dbgAddr : Store Word := []
  dbgCtl : Store Word := []
  stepOnce : Bool := false
  /-- Breakpoints suppressed for the next issue (R357). -/
  bpSkip : BitVec 4 := 0
  /-- A breakpoint met during a freeze: those that matched, and the address (R356). -/
  pendBrk : Option (BitVec 4 × Nat) := none
  /-- A freeze that waits for a load (R350). -/
  frz : Option Frz := none
  /-- The last try of a bundle ended in a wait of R63 (R348). -/
  stalled : Bool := false
  /-- The last cycle wrote a fixed-latency result (R345, R350). -/
  landed : Bool := false
  ilockLost : Bool := false
  rtTimeout : Option Nat := none
  /-- The FIFO on which the bundle is stalled (R257, R284). -/
  fifoWait : Option FifoWait := none
  savedCmds : List Cmd := []
  runCyc : Nat := 0
  /-- World of the strand's previous unit in the braid (R36). -/
  lastWorld : Option Nat := none
  /-- DECIDE, transfers and other commands of a buffered unit held until the decision, oldest first (R52, R100). -/
  heldOps : List Cmd := []
  /-- YIELD: the next grant of each resource is forgone (R228). -/
  yielded : List Nat := []
  slot : Store Slot := []
  /-- Lines of the L1 data cache, by physical address, oldest first (R66). -/
  l1 : List Nat := []
  /-- The micro-TLB, oldest first (R81). -/
  mtlb : List TlbEntry := []
  deriving DecidableEq, Repr

/-- A place of the held-token cache (R90): kind 0 token, 1 ticket, 2 participation, 3 token lent out. -/
structure Held where
  agent : BitVec 24
  world : Nat
  kind : Nat
  base : Nat
  log2 : Nat
  deriving DecidableEq, Repr

/-- A barrier (R61): its launch, the counts, the generation. -/
structure Bar where
  launch : Option Nat := none
  expected : Nat := 0
  arrived : Nat := 0
  gen : Bool := false
  deriving DecidableEq, Repr

/-- A stationary buffer (R320): STATE 0 empty, 1 loading, 2 valid, 3 failed; the set, its elements and scales by column. -/
structure SBuf where
  st : Nat := 0
  world : Nat := 0
  slot : Nat := 0
  region : Nat := 0
  fmt : BitVec 32 := 0
  /-- The decrypted 50,688 bytes as one number, least significant byte first (R322). -/
  set : Nat := 0
  /-- Every tag of the load verifies. -/
  good : Bool := false
  /-- Strand and cycle of the end of the load (R325). -/
  strand : Nat := 0
  due : Nat := 0
  /-- MMAs in flight read the buffer up to this cycle of the array. -/
  busy : Nat := 0
  deriving DecidableEq, Repr

/-- A key slot (R321). -/
structure KeySlot where
  valid : Bool := false
  key : BitVec 256 := 0
  region : Nat := 0
  world : Nat := 0
  deriving DecidableEq, Repr

/-- A route book entry (R133). -/
structure RbEntry where
  ctl : Word := 0
  route : Word := 0
  ext : Word := 0
  deriving DecidableEq, Repr

/-- A request for the lease (R58): the strand and the run. -/
structure LeaseReq where
  strand : Nat
  n : Nat
  /-- Order of the request. -/
  seq : Nat
  deriving DecidableEq, Repr

/-- A table pointer of a die's walk cache (R81): the level-4 table found for a 2 MiB region of a world. -/
structure WalkPtr where
  world : Nat
  region : Nat
  table : Nat
  deriving DecidableEq, Repr

/-- A line of 128 bytes in a braid cache or a slice (R67, R76). Memory itself holds the newest bytes of every line (log 7). -/
structure CLine where
  /-- Physical address of its first byte. -/
  line : Nat
  /-- The bank that holds it; 0 in a slice. -/
  bank : Nat := 0
  dirty : Bool := false
  /-- The agents whose stores since its last write-back are in it, with their ordering classes (R104, R107). -/
  who : List (BitVec 24 × Nat) := []
  /-- A buffered line of an arm (R52). -/
  arm : Option Nat := none
  deriving DecidableEq, Repr

/-- A pending switch of a bank (R69): bank, mode, and the strand and counter to bump. -/
structure BankSwitch where
  bank : Nat
  mode : Nat
  evt : Option (Nat × Nat)
  deriving DecidableEq, Repr

/-- A byte of a buffered line (R52): arm, physical address, value. -/
structure BufByte where
  arm : Nat
  addr : Nat
  val : Byte
  deriving DecidableEq, Repr

/-- A braid (R12). -/
structure Braid where
  /-- Mode of bank n; unlisted banks are in CACHE mode. -/
  bankMode : Store Nat := []
  bankTag : Store Nat := []
  bankLast : Store Nat := []
  /-- Byte o of PAD bank n at key 65536 n + o. -/
  pad : Store Byte := []
  fifo : Store (List Row) := []
  bankSw : List BankSwitch := []
  /-- Last request and its RESULT by writer: strand 0 to 3, window 4 (R68). -/
  bmReq : Store Word := []
  slab : Store Word := []
  /-- B-store sectors and tags; a sector with no tag listed verifies nothing (R28, R322). -/
  bst : Store (BitVec 4096) := []
  bstTag : Store (BitVec 128) := []
  sbuf : Store SBuf := []
  keys : Store KeySlot := []
  held : List Held := []
  bars : Store Bar := []
  /-- Entries that differ from the values at manufacture (R189). -/
  timing : Store (BitVec 32) := []
  rb : Store RbEntry := []
  holder : Option Nat := none
  left : Nat := 0
  leaseReqs : List LeaseReq := []
  leaseWorld : Option Nat := none
  /-- Deficit of world w at resource r (0 lease, 1 copy, 2 gather, 3 collective, 4 injection) at key 256 r + w (R57). -/
  dc : Store Int := []
  /-- Grants to others that a waiting strand has seen, at key 4 r + strand (R57). -/
  passed : Store Nat := []
  mldsAt : Nat := 0
  mmaAt : Nat := 0
  cmds : List Cmd := []
  recvs : List Cmd := []
  /-- Entries of outbound FIFO f, oldest first, with their world and cycle of push (R11, R284). -/
  vf : Store (List (Nat × Row × Nat)) := []
  /-- Instruction cache lines held and locks by strand, as virtual line addresses with their world (R261). -/
  icLines : List (Nat × Nat) := []
  icLocks : List (Nat × Nat × Nat) := []
  tlb : List TlbEntry := []
  sync : Bool := false
  /-- The braid's cycle at which same-frequency mode was entered, from which the two clocks count together (own, R23). -/
  syncAt : Nat := 0
  syncRefused : Bool := false
  /-- TARGET of PWR_GATE; none is the own braid id (R26). -/
  pwrTarget : Option Nat := none
  pwrResult : Nat := 0
  pwrReq : BitVec 8 := 0xFF
  logicOn : Bool := true
  logicWaking : Bool := false
  bstOn : Bool := true
  bstWaking : Bool := false
  fabOn : BitVec 6 := 0x3F
  fabWaking : BitVec 6 := 0
  laneSel : BitVec 8 := 0
  shTotal : BitVec 32 := 0
  shLast : BitVec 8 := 0
  shNom : BitVec 8 := 0xFF
  /-- Braid cycles of the last 64 detections of each unit since its count last started, newest first (R405). -/
  shCount : Store (List Nat) := []
  iftPasses : BitVec 16 := 0
  iftNextUnit : BitVec 8 := 0
  /-- Nominated units not yet tested, the one under test first (R405, R409). -/
  noms : List Nat := []
  iftIndex : Nat := 0
  mhz : Nat := 1600
  sag : Bool := false
  /-- The 32-bit word of block i of the splice allocation map (R392). -/
  blocks : Store (BitVec 32) := []
  /-- 0 in service, 1 transit only, 2 removed (R131). -/
  status : Nat := 0
  condemned : List Nat := []
  /-- Condemned units whose repair is not done, the strands it froze, and the image to load again for a unit whose block failed (R399, R401). -/
  underRepair : List Nat := []
  repairHeld : List Nat := []
  reload : Store Nat := []
  /-- Bases of tokens whose dirty lines a salvage would lose (R103). -/
  lostBases : List Nat := []
  /-- FIFO banks whose oldest entry has an uncorrectable error, with the index of its log entry (R410). -/
  fifoBad : Store Nat := []
  buf : List BufByte := []
  /-- Lines of the braid cache, oldest first (R67). -/
  cache : List CLine := []
  deriving DecidableEq, Repr

/-- A saved image of a strand (R351): the strand as captured, and what identifies it. -/
structure Image where
  part : Nat
  braid : Nat
  strand : Nat
  world : Nat
  /-- The bind slot's record and status. -/
  slot : Slot
  /-- The strand with the registers the save did not write reading zero. -/
  body : Strand
  held : List Held
  locks : List Nat
  /-- Live-map entry's dense position, where the freeze has one (R196). -/
  densePos : Option Nat
  /-- The seal of an image of a protected world: the key it was made under, and its IV (R355). -/
  sealBy : Option (BitVec 256 × BitVec 96)
  /-- The bind slot the record stood in; above 0 it has no context (R55). -/
  slotNo : Nat
  /-- The record itself is out of the slot table, its world switched out (R55). -/
  evicted : Bool
  deriving DecidableEq, Repr

/-- A node of a route or a packet's place (R19, R120). -/
inductive Node where
  | router (b : Nat)
  | hub
  | slice (n : Nat)
  | host
  | lanyard (n : Nat)
  | thimble
  | fid
  | halyard (p : Nat)
  /-- Across a lanyard link, on a peer device. -/
  | peer (n : Nat)
  deriving DecidableEq, Repr

/-- A packet in flight (R123, R124). -/
structure Packet where
  kind : Nat
  net : Bool
  route : List Word
  ret : List Word
  consumed : Nat
  lastRank : Nat
  lane : Nat
  fault : Nat
  faultHop : Nat
  tag : Nat
  scope : Nat
  cls : Nat
  world : Nat
  src : Nat
  dest : Nat
  /-- The node it stands at, the code of the port it arrived by, and whether it crossed from a link side. -/
  at_ : Node
  arrived : Nat
  delivered : Bool
  /-- Payload bytes, and the words of a bump or message: target strand and counter, channel, OP, COLL. -/
  data : List Byte
  strand : Nat
  counter : Nat
  channel : Nat
  op : Nat
  coll : Bool
  /-- The command that awaits the outcome: braid and serial number. -/
  owner : Option (Nat × Nat)
  /-- The address and size of a request for memory; the payload is marked poisoned (R420). -/
  addr : Nat := 0
  len : Nat := 0
  bad : Bool := false
  deriving DecidableEq, Repr

/-- A partition (R16, R54 to R56, R344). -/
structure Part where
  share : Bool := false
  modeRefused : Bool := false
  quantum : Store (BitVec 32) := []
  weight : Store (BitVec 32) := []
  budget : Store (BitVec 32) := []
  /-- Level table entries by index (R47). -/
  level : Store (BitVec 256) := []
  /-- Predecessors not yet ended of a node of a graph, by index (R33, R48). -/
  preds : Store (List Nat) := []
  /-- The trap queue: its records by place; TRAPQ_HEAD and TRAPQ_TAIL (R344). -/
  ring : Store Rec := []
  head : BitVec 9 := 0
  tail : BitVec 9 := 0
  seq : BitVec 32 := 0
  heldRecs : List Rec := []
  /-- Route fault records: braid, entry, FAULT, FAULT_HOP (R135). -/
  routeFaults : List (Nat × Nat × Nat × Nat) := []
  tlbInv : Word := 0x8000000000000000
  /-- The fields of the write that started the invalidation under way (R82). -/
  tlbRun : Word := 0
  scrubSel : Nat := 0
  /-- Translation cache: CODE, world, TIMING_SIG, native region (R194, R200). -/
  tcache : List (Nat × Nat × Word × Nat) := []
  /-- The loader's last answer: its status, and the variant placed or, with RELOC_RANGE, the one that fits best (R213). -/
  loaded : Option (Nat × Option Nat) := none
  /-- The quantum entry in force (R55). -/
  turn : Nat := 0
  /-- Handler launches: level index, and braid and strand of the frozen unit (R346). -/
  handlers : List (Nat × Nat × Nat) := []
  deriving DecidableEq, Repr

/-- An owner token (R88). -/
structure Token where
  holder : BitVec 24
  /-- Lender chain, LEND0 first (at most four). -/
  lend : List (BitVec 24)
  mode : Nat
  prov : Bool
  orph : Bool
  dmg : Bool
  count : Nat
  world : Nat
  log2 : Nat
  base : Nat
  snapHolder : BitVec 24
  snapDepth : Nat
  snapMode : Nat
  arm : Nat
  /-- The partition of the arm, and the chain from before speculation, whose entries stay in place (own, R88, R100). -/
  armPart : Nat := 0
  snapLend : List (BitVec 24) := []
  deriving DecidableEq, Repr

/-- A token operation in progress at its home (R95, R98). -/
structure Xfer where
  id : Nat
  op : Nat
  braid : Nat
  strand : Nat
  world : Nat
  base : Nat
  log2 : Nat
  agent : BitVec 24
  evt : Nat
  /-- TNEW: the new token's world. -/
  tworld : Nat
  /-- ALIGN found at issue; the cell that receives the status, or 64 for none; KB of TQRY. -/
  badAlign : Bool
  dst : Nat
  latchGen : Nat
  kb : Nat
  /-- Steps 1 to 3 have begun at the home. -/
  started : Bool
  /-- The unit is buffered, level index of its arm (R100). -/
  arm : Option Nat
  /-- The route book entry that holds it (R135). -/
  entry : Option Nat := none
  /-- It was held until a decision: performed in program order (own, R100). -/
  inOrder : Bool := false
  /-- It was sent by that entry, its response lost (R135). -/
  lost : Bool := false
  deriving DecidableEq, Repr

/-- The link registers of the two directions of a link of the package (R125, R131). Links are numbered in Machine/Route.lean. -/
structure LinkReg where
  rankAB : Nat
  rankBA : Nat
  lanesAB : Nat
  lanesBA : Nat
  down : Bool := false
  /-- Consecutive CRC failures of a flit by direction (R412). -/
  crcAB : Nat := 0
  crcBA : Nat := 0
  deriving DecidableEq, Repr

/-- A usage counter pair (R377, R378). -/
structure Pair where
  world : Nat
  region : Nat
  id : Nat
  loads : Nat
  steps : Nat
  floorLoads : Nat
  floorSteps : Nat
  /-- The next report sets FLOOR. -/
  floorFlag : Bool
  deriving DecidableEq, Repr

/-- TDISP state (R361). -/
inductive Tdisp where
  | unlocked
  | locked
  | run
  | error
  deriving DecidableEq, Repr

/-- A host command accepted and not complete (R368). -/
structure HostCmd where
  seq : Nat
  entry : Rec
  qindex : Nat
  begun : Bool
  /-- The outcome, once it stands: status and DETAIL. -/
  result : Option (Nat × Nat)
  deriving DecidableEq, Repr

/-- A world: the registers and records of its function (R360 to R388). -/
structure World where
  ctx : Word := 0
  featMask : BitVec 10 := 0
  roster : BitVec 256 := 0
  tdisp : Tdisp := .unlocked
  /-- The context key, from the entry on RUN to the teardown (R355, R361). -/
  ctxKey : Option (BitVec 256) := none
  partAssign : BitVec 8 := 0
  qcfg : Word := 0
  qtail : Nat := 0
  qhead : Nat := 0
  jcfg : Word := 0
  jseq : Nat := 0
  deny : BitVec 32 := 0
  qerr : Bool := false
  vectors : List Nat := []
  masked : BitVec 32 := 0
  cmds : List HostCmd := []
  /-- Teardown: PHASE, done marks over the list, the listed braids then ranges (base, log2), the start that drives it. -/
  phase : Nat := 0
  listBraids : List Nat := []
  doneBraids : List Nat := []
  listRanges : List (Nat × Nat) := []
  /-- 4 KiB granules of listed ranges already zeroed. -/
  doneGranules : List Nat := []
  byUnit : Bool := false
  /-- Braids on which a unit of the world was bound since the function was last locked (R385). -/
  boundOn : List Nat := []
  /-- Jobs held by QUIESCE (R370). -/
  quiesced : List Nat := []
  /-- Pending errors of its cancelled units, by the index of their log entries (R50). -/
  lostErrs : List Nat := []
  /-- Measurement log, oldest first (R381). -/
  meas : List (BitVec 384) := []
  mchain : BitVec 384 := 0
  deriving DecidableEq, Repr

/-- A splice image in flash (R393). -/
structure SpliceImage where
  id : Nat
  kind : Nat
  target : Nat
  blocks : Nat
  csrc : Nat
  cw : Nat
  timing : List (BitVec 32)
  /-- Decode table of a converter (R394). -/
  table : List (BitVec 32)
  /-- The digest of its bytes and its signature. -/
  digest : Nat
  sig : Nat × Nat
  deriving DecidableEq, Repr

/-- A splice request passed to the fid core (R290). -/
structure SpliceReq where
  braid : Nat
  strand : Nat
  evt : Nat
  world : Nat
  image : Nat
  action : Nat
  target : Nat
  unit : Nat
  deriving DecidableEq, Repr

/-- One move of the schedule: a strand tries its bundle, or a step of the device happens (log 1). -/
inductive Move where
  | strand (b k : Nat)
  | device (i : Instr)
  deriving DecidableEq, Repr

/-- The machine. -/
structure State where
  /-- Device and host memory by physical address; bytes not listed read 0 (log 3). -/
  mem : List Host.Cell
  /-- Lines of memory-side slice n, oldest first (R76). -/
  slices : Store (List CLine)
  /-- Lines whose data at home is marked poisoned (R420). -/
  poison : List Nat
  /-- The walk cache of die d, oldest first (R81). -/
  walkCache : Store (List WalkPtr)
  /-- Strand k of braid b at key 4 b + k. -/
  strands : Store Strand
  braids : Store Braid
  parts : Store Part
  worlds : Store World
  tokens : List Token
  xfers : List Xfer
  packets : List Packet
  /-- Link registers by link number; those not listed read as linkReset gives (log 8). -/
  links : Store LinkReg
  mapSeq : BitVec 32
  mapVa : BitVec 48
  device : Nat
  partRefused : BitVec 32
  pairs : List Pair
  counterId : Nat
  reportSeq : Nat
  finalReports : List (Nat × Nat × List Byte)
  /-- World, base, log2 (R376). -/
  declass : List (Nat × Nat × Nat)
  images : List Image
  /-- Seal sequence numbers by slot and world, at key 256 (16 braid-in-partition + 4 strand + slot) + world + 65536 partition (R355). -/
  sealSeq : Store Nat
  flash : List SpliceImage
  spliceReqs : List SpliceReq
  cfgVersion : Nat
  /-- VERSION of the blob of the next boot, where one replaces the old (R421). -/
  cfgNext : Option Nat
  /-- What the thimble core finds of the blob in flash when it verifies it: 0 it verifies, 1 its signature fails, 2 it is malformed, 3 a flash error (R421). -/
  bootBlob : Nat
  bootstat : Nat
  errLog : Store (BitVec 256)
  errSeq : Nat
  errCell : Word
  errXfer : Word
  /-- The four spares of channel c of stack s, 44 bits, at key 32 s + c (R416). -/
  lanes : Store (BitVec 44)
  /-- Channels whose transfers are failed (R415). -/
  deadChannels : List Nat
  /-- The module is held in reset (R421); it has reported a fatal error (R410). -/
  heldInReset : Bool
  fatal : Bool
  /-- Serial number of the next accepted command, request or transfer (own). -/
  serial : Nat
  /-- The schedule, head first, and the strand whose bundle issues (own, log 1). -/
  agenda : List Move
  cur : Nat × Nat
  /-- Free values taken so far (own, log 4). -/
  freeCtr : Nat
  deriving DecidableEq, Repr

/-- Why a step stops for good. No step of this model does: every instruction has an effect. -/
inductive Fault where
  /-- The module is held in reset: only BOOTSTAT responds (R421). Raised by step; safe, since nothing runs. -/
  | heldInReset
  deriving DecidableEq, Repr

/-- Why a step is refused. -/
inductive Refusal where
  /-- An operation that has no meaning in this model yet. Raised by exec's arm; safe. -/
  | notModelled (mnemonic : String)
  deriving DecidableEq, Repr

/-- The machine right after reset (R36, R67, R403, R421; log 2 names each value the specification does not give). -/
def State.reset : State where
  mem := []
  slices := []
  poison := []
  walkCache := []
  strands := []
  braids := []
  parts := []
  worlds := []
  tokens := []
  xfers := []
  packets := []
  links := []
  mapSeq := 0
  mapVa := 0
  device := 0
  partRefused := 0
  pairs := []
  counterId := 0
  reportSeq := 0
  finalReports := []
  declass := []
  images := []
  sealSeq := []
  flash := []
  spliceReqs := []
  cfgVersion := 0
  cfgNext := none
  bootBlob := 0
  bootstat := 0
  errLog := []
  errSeq := 0
  errCell := 0
  errXfer := 0
  lanes := []
  deadChannels := []
  heldInReset := false
  fatal := false
  serial := 0
  agenda := []
  cur := (0, 0)
  freeCtr := 0

/-- The strand at (b, k). -/
def State.strand (s : State) (b k : Nat) : Strand := Store.get s.strands (4 * b + k) {}

/-- Changes the strand at (b, k). -/
def State.setStrand (s : State) (b k : Nat) (t : Strand) : State := { s with strands := Store.put s.strands (4 * b + k) t }

/-- Braid b. -/
def State.braid (s : State) (b : Nat) : Braid := Store.get s.braids b {}

/-- Changes braid b. -/
def State.setBraid (s : State) (b : Nat) (t : Braid) : State := { s with braids := Store.put s.braids b t }

/-- Partition p. -/
def State.part (s : State) (p : Nat) : Part := Store.get s.parts p {}

/-- Changes partition p. -/
def State.setPart (s : State) (p : Nat) (t : Part) : State := { s with parts := Store.put s.parts p t }

/-- World w. -/
def State.world (s : State) (w : Nat) : World := Store.get s.worlds w {}

/-- Changes world w. -/
def State.setWorld (s : State) (w : Nat) (t : World) : State := { s with worlds := Store.put s.worlds w t }

end Sys2Proof.Machine
end

