-- ==== Sys2Proof/Machine/Operands.lean ====
section
/-!
DEFINITION. Registers and operand fields (R168, R171, R172, R226), the fields of a running unit's record and descriptor (R37, R39),
and the context in which the slots of one bundle are read (R161).
-/

namespace Sys2Proof.Machine

/-- n bits of a structure from bit lo up. -/
def bits {w : Nat} (v : BitVec w) (lo n : Nat) : Nat := v.toNat / 2 ^ lo % 2 ^ n

/-- The cell a scalar register name denotes: s32 to s47 are a ring (R226). -/
def Regs.cellX (r : Regs) (n : Nat) : Nat :=
  if 32 ≤ n ∧ n < 48 then 32 + (n - 32 + 16 - r.ringS.toNat) % 16 else n

/-- The cell a predicate name denotes (R226). -/
def Regs.cellP (r : Regs) (n : Nat) : Nat := if 4 ≤ n then 4 + (n - 4 + 4 - r.ringP.toNat) % 4 else n

/-- A scalar register by its 6-bit name: 0 to 47 s, 48 to 63 o (R168). -/
def Regs.getX (r : Regs) (n : Nat) : Word := Store.get r.x (r.cellX n) 0

/-- Predicate p0 to p7; p0 reads true (R167). -/
def Regs.pred (r : Regs) (n : Nat) : Bool := n == 0 || r.pr.getLsbD (r.cellP n)

/-- p7 to p0 by name (R248). -/
def Regs.predFile (r : Regs) : BitVec 8 :=
  BitVec.ofNat 8 ((List.range 8).foldl (fun a i => a + (if r.pred i then 2 ^ i else 0)) 0)

/-- Row i of tile t; a tile not in use reads zero (R172). -/
def Regs.tileRow (r : Regs) (t i : Nat) : Row := if r.tUse.getLsbD t then Store.get r.tile (16 * t + i) 0 else 0

/-- Row i of accumulator bank a; a bank not in use reads zero (R172). -/
def Regs.bankRow (r : Regs) (a i : Nat) : Row := if r.aUse.getLsbD a then Store.get r.acc (16 * a + i) 0 else 0

/-- Sets or clears one bit. -/
def setBit {w : Nat} (v : BitVec w) (i : Nat) (b : Bool) : BitVec w :=
  if b then v ||| BitVec.ofNat w (2 ^ i) else v &&& ~~~ BitVec.ofNat w (2 ^ i)

/-- Writes the enabled bits of a tile row, setting INUSE and DIRTY (R172, R214). A tile not in use holds zero. -/
def Regs.setTileRow (r : Regs) (t i : Nat) (v m : Row) : Regs :=
  let base := if r.tUse.getLsbD t then r.tile else r.tile.filter fun e => e.1 / 16 != t
  { r with tile := Store.set base (16 * t + i) ((r.tileRow t i &&& ~~~ m) ||| (v &&& m)) 0
           tUse := setBit r.tUse t true, tDirty := setBit r.tDirty t true }

/-- Writes a row of an accumulator bank: type, INUSE, DIRTY, flags or-ed in (R151, R172, R329). -/
def Regs.setBankRow (r : Regs) (a i : Nat) (v : Row) (int : Bool) (flags : BitVec 3) : Regs :=
  let base := if r.aUse.getLsbD a then r.acc else r.acc.filter fun e => e.1 / 16 != a
  { r with acc := Store.set base (16 * a + i) v 0, aUse := setBit r.aUse a true, aDirty := setBit r.aDirty a true
           aInt := setBit r.aInt a int, aFlag := r.aFlag ||| BitVec.ofNat 18 (flags.toNat * 8 ^ a) }

/-- All ones in a row. -/
def rowOnes : Row := BitVec.allOnes 2048

/-- Event counter e: count and status (R268). -/
def Regs.bump (r : Regs) (e code detail : Nat) : Regs :=
  let st := Store.get r.estat e 0
  { r with ecnt := Store.set r.ecnt e (Store.get r.ecnt e 0 + 1) 0
           estat := if st.toNat / 2 ^ 24 = 0 then Store.set r.estat e (BitVec.ofNat 32 (code * 2 ^ 24 + detail % 2 ^ 24)) 0 else r.estat }

/-- A bump of the token operations: no status (R268). -/
def Regs.bumpOnly (r : Regs) (e : Nat) : Regs := { r with ecnt := Store.set r.ecnt e (Store.get r.ecnt e 0 + 1) 0 }

/-! The bind record and the unit descriptor. -/

/-- The running record: slot 0 of the strand (R38). -/
def Strand.slot0 (t : Strand) : Slot := Store.get t.slot 0 {}

/-- Fields of a bind record (R39). -/
def recWorld (r : Rec) : Nat := bits r 100 8
def recUnit (r : Rec) : Nat := bits r 64 24
def recLaunch (r : Rec) : Nat := bits r 88 12
def recUdesc (r : Rec) : Nat := bits r 0 48
def recPrio (r : Rec) : Nat := bits r 108 4
def recQclass (r : Rec) : Nat := bits r 112 4
def recPbank (r : Rec) : Nat := bits r 116 5
def recDep (r : Rec) : Bool := r.getLsbD 121
def recBuf (r : Rec) : Bool := r.getLsbD 122
def recSupv (r : Rec) : Bool := r.getLsbD 123
def recTokList (r : Rec) : Nat := bits r 128 48
def recTokCount (r : Rec) : Nat := bits r 176 5
def recTokEvt (r : Rec) : Nat := bits r 181 4
def recSlabList (r : Rec) : Nat := bits r 192 48
def recSlabCount (r : Rec) : Nat := bits r 240 7

/-- The descriptor of the running unit (R37). -/
def Slot.descr (s : Slot) : Rec := s.desc.getD 0

/-- Fields of a unit descriptor (R37). -/
def dCode (d : Rec) : Nat := bits d 0 48
def dNative (d : Rec) : Nat := bits d 64 48
def dParams (d : Rec) : Nat := bits d 128 48
def dPcount (d : Rec) : Nat := bits d 176 8
def dHandler (d : Rec) : Nat := bits d 192 48
def dPrecode (d : Rec) : Nat := bits d 256 8
def dBarCfg (d : Rec) (j : Nat) : Nat := bits d (264 + 3 * j) 3
def dPimage (d : Rec) : Nat := bits d 320 48
def dPlen (d : Rec) : Nat := bits d 368 9

/-- The partition of a braid (R16). -/
def partOf (b : Nat) : Nat :=
  let g := match b % 12 with
    | 0 => 0 | 1 => 0 | 4 => 0 | 8 => 0
    | 5 => 1 | 9 => 1 | 10 => 1 | 11 => 1
    | _ => 2
  3 * (b / 24) + g

/-- The vertical partner (R14). -/
def partner (b : Nat) : Nat := if b % 24 < 12 then b + 12 else b - 12

/-- The braids of a partition (R16). -/
def braidsOf (p : Nat) : List Nat := (List.range 96).filter fun b => partOf b == p

/-- The agent id of agent a of braid b (R89): 0 to 3 strands, 4 to 8 engines. -/
def agentId (dev b a : Nat) : BitVec 24 := BitVec.ofNat 24 (dev * 65536 + b * 512 + a * 32)

/-- The host agent of a device (R366). -/
def hostAgent (dev : Nat) : BitVec 24 := BitVec.ofNat 24 (dev * 65536 + 0xFC00)

/-! The context of a bundle. -/

/-- What the slots of one bundle read: the state as it stands when the bundle issues, its strand, its length in words in dense
form, and the scope its SCOPE prefix gives (R109, R161). -/
structure Ctx where
  s : State
  b : Nat
  k : Nat
  words : Nat
  scope : Option Nat

/-- The context of a bundle of the current strand. -/
def Ctx.of (s : State) (words : Nat) (scope : Option Nat) : Ctx :=
  { s := s, b := s.cur.1, k := s.cur.2, words := words, scope := scope }

def Ctx.st (x : Ctx) : Strand := x.s.strand x.b x.k
def Ctx.br (x : Ctx) : Braid := x.s.braid x.b
def Ctx.r (x : Ctx) : Regs := x.st.r
def Ctx.rcd (x : Ctx) : Rec := x.st.slot0.bind
def Ctx.desc (x : Ctx) : Rec := x.st.slot0.descr
def Ctx.world (x : Ctx) : Nat := recWorld x.rcd
def Ctx.supv (x : Ctx) : Bool := recSupv x.rcd
def Ctx.pc (x : Ctx) : Nat := x.st.c.pc.toNat
/-- Bit 0 of a code address names the native form (R193). -/
def Ctx.native (x : Ctx) : Bool := x.st.c.pc.getLsbD 0
/-- The code address of the bundle or block that follows (R160, R197). -/
def Ctx.next (x : Ctx) : Nat := (x.pc + (if x.native then 32 else 4 * x.words)) % 2 ^ 64
/-- The scope of slot M and E operations (R109). -/
def Ctx.scopeOr (x : Ctx) : Nat := x.scope.getD 1
/-- The strand's agent id. -/
def Ctx.agent (x : Ctx) : BitVec 24 := agentId x.s.device x.b x.k

/-- Loop index n_i (R222): an index with no entry reads zero. -/
def Ctl.loopIdx (c : Ctl) (i : Nat) : Nat :=
  match c.loops[i]? with
  | some e => e.idx.toNat
  | none => 0

/-- An operand field (R168). -/
def Ctx.opnd (x : Ctx) : Operand → Word
  | .reg i => x.r.getX i.toNat
  | .latch k => Store.get x.st.c.latch k.toNat 0
  | .imm v => v.signExtend 64
  | .zero => 0
  | .one => 1
  | .loopIdx i => BitVec.ofNat 64 (x.st.c.loopIdx i.toNat)
  | .unitIdx => BitVec.ofNat 64 (recUnit x.rcd)
  | .strandId => BitVec.ofNat 64 x.k
  | .braidId => BitVec.ofNat 64 x.b
  | .worldTag => BitVec.ofNat 64 x.world

/-- An operand field or the sign-extended long immediate in its place (R165, R234). -/
def Ctx.opndL (x : Ctx) (o : Operand) (lng : Option (BitVec 32)) : Word :=
  match lng with
  | some l => l.signExtend 64
  | none => x.opnd o

/-- An 8-bit immediate or the long immediate in its place (R234). -/
def immL (i : BitVec 8) (lng : Option (BitVec 32)) : Word :=
  match lng with
  | some l => l.signExtend 64
  | none => i.signExtend 64

/-- A register or latch an operand field reads (R75). -/
def Ctx.opndRes (x : Ctx) : Operand → List Res
  | .reg i => [.x (x.r.cellX i.toNat)]
  | .latch k => [.latch k.toNat]
  | _ => []

/-- The latch of an operand field whose valid bit is clear (R170). -/
def Ctx.badLatch (x : Ctx) : Operand → Bool
  | .latch k => !x.st.c.latchOk.getLsbD k.toNat
  | _ => false

/-- The row a ROW field names (R177). -/
def Ctx.rowIndex (x : Ctx) (r : BitVec 5) : Nat :=
  if r.toNat < 16 then r.toNat else x.st.c.loopIdx (r.toNat - 16) % 16

/-- The timing table entry of a class (R188, R189): latency at [15:0], interval at [31:16]. -/
def timing0 (c : Nat) : BitVec 32 :=
  let li : Nat × Nat := match c with
    | 0 => (1, 1) | 1 => (3, 1) | 2 => (34, 34) | 3 => (4, 1) | 4 => (6, 1) | 5 => (8, 1) | 6 => (2, 1) | 7 => (4, 1)
    | 8 => (2, 1) | 9 => (6, 1) | 10 => (2, 1) | 11 => (3, 1) | 12 => (5, 1) | 13 => (6, 1) | 14 => (3, 1) | 15 => (6, 1)
    | 16 => (8, 1) | 17 => (12, 1) | 18 => (64, 64) | 19 => (12, 16) | 20 => (3, 1) | 21 => (4, 1) | 22 => (6, 1) | 23 => (8, 1)
    | _ => (0, 0)
  BitVec.ofNat 32 (li.1 + 65536 * li.2)

def Braid.timingOf (t : Braid) (c : Nat) : BitVec 32 := Store.get t.timing c (timing0 c)
def Braid.latency (t : Braid) (c : Nat) : Nat := (t.timingOf c).toNat % 65536
def Braid.interval (t : Braid) (c : Nat) : Nat := (t.timingOf c).toNat / 65536

/-- TIMING_SIG: bytes 0 to 7, little-endian, of the SHA-384 of the 64 entries (R190). -/
def Braid.sig (t : Braid) : Word :=
  let d := sha384 ((List.range 64).flatMap fun c => leBytes 4 (t.timingOf c).toNat)
  BitVec.ofNat 64 (leNat ((beBytes 48 d.toNat).take 8))

end Sys2Proof.Machine
end

