-- ==== Sys2Proof/Machine/Array.lean ====
section
/-!
DEFINITION. The matrix array's arithmetic (R143 to R151): expansion of operands with their scales, the group sum of sixteen
products, float and integer accumulation, and the flags of a bank.
-/

namespace Sys2Proof.Machine

/-- Byte i of a packed number, least significant first (R3). -/
def byteAt (v i : Nat) : Nat := v / 256 ^ i % 256

/-- A decode-table entry of a converter (R394): NaN, infinity, sign, significand g, exponent x. -/
def tableNum (e : Nat) : Num :=
  if e / 2 ^ 31 % 2 = 1 then .nan
  else if e / 2 ^ 30 % 2 = 1 then .inf (e / 2 ^ 29 % 2 == 1)
  else .fin (e / 2 ^ 29 % 2 == 1) (e / 2 ^ 21 % 256) ((BitVec.ofNat 12 (e / 2 ^ 9 % 4096)).toInt)

/-- An element's code expanded, before its scale, by the kind of its format; a table holds 256 entries of 32 bits (R147). -/
def expandCode (f : BitVec 32) (tab code : Nat) : Num :=
  match fmtKind f with
  | 0 => (narrowFmt f).decode (code % 2 ^ fmtW f)
  | 1 => bf16.decode code
  | 3 => Num.ofInt (BitVec.ofNat 8 code).toInt
  | 4 => Num.ofInt (code % 256)
  | _ => tableNum (tab / 2 ^ (32 * (code % 2 ^ fmtW f)) % 2 ^ 32)

/-- A scale applied (R144, R147): the value, and whether an exponent left the internal range. -/
def applyScale (q : Nat) (v : Num) : Num × Bool :=
  if q = 255 then (.nan, false)
  else match v with
    | .fin neg m e =>
      if m = 0 then (v, false)
      else
        let x := e + q - 127
        if x < -2048 then (.fin neg 0 0, true) else if 2047 < x then (.inf neg, true) else (.fin neg m x, false)
    | _ => (v, false)

/-- Elements along K (R148). -/
def fmtK (f : BitVec 32) : Nat := if fmtKind f = 1 then 128 else 256

/-- Element bytes of a format along K. -/
def codesOf (f : BitVec 32) (v : Nat) : List Nat :=
  (List.range (fmtK f)).map fun k => if fmtKind f = 1 then v / 2 ^ (16 * k) % 65536 else v / 2 ^ (8 * k) % 256

/-- A row or column expanded with its scales: `scales` gives the code of block number n (R145). -/
def expandLine (f : BitVec 32) (tab v : Nat) (scales : Nat → Nat) : List (Num × Bool) :=
  let blk := match fmtScale f with | 1 => 16 | 2 => 32 | 3 => 64 | _ => 1
  (codesOf f v).zipIdx.map fun (c, k) =>
    let e := expandCode f tab c
    if fmtScale f = 0 then (e, false) else applyScale (scales (k / blk)) e

/-- The scale codes of A row i lie at byte i (K/B) + block of the buffer (R145). -/
def aScales (f : BitVec 32) (zs : Row) (i : Nat) (n : Nat) : Nat :=
  let blk := match fmtScale f with | 1 => 16 | 2 => 32 | 3 => 64 | _ => 1
  byteAt zs.toNat (i * (fmtK f / blk) + n)

/-- The group sum of sixteen products (R149), and whether finite products rounded to infinity. -/
def groupSum (ps : List Num) : Num × Bool :=
  let infs := ps.filterMap fun p => match p with | .inf n => some n | _ => none
  if ps.any Num.isNan || (infs.contains true && infs.contains false) then (.nan, false)
  else match infs with
    | n :: _ => (.inf n, false)
    | [] =>
      let fs := ps.filterMap fun p => match p with | .fin n m e => some (n, m, e) | _ => none
      let nz := fs.filter fun p => p.2.1 != 0
      match nz with
      | [] => (.fin (fs.all fun p => p.1) 0 0, false)
      | (_, m0, e0) :: rest =>
        let h := rest.foldl (fun a p => max a (leadExp p.2.1 p.2.2)) (leadExp m0 e0)
        let lsb := h - 66
        let ts := nz.map fun p => (p.1, scaleDown p.2.1 p.2.2 lsb)
        let sticky := ts.any fun t => !t.2.2
        let w : Int := ts.foldl (fun a t => if t.1 then a - t.2.1 else a + t.2.1) 0
        if w = 0 then (.fin false 0 0, false)
        else
          let v := (if w < 0 then -w else w).toNat * 256 + (if sticky then 1 else 0)
          let c := f32.encode .rne (.fin (w < 0) v (lsb - 8))
          (f32.decode c, c % 2 ^ 31 == 0x7F800000)

/-- Lists of sixteen. -/
def groups16 : Nat → List Num → List (List Num)
  | 0, _ => []
  | n + 1, l => l.take 16 :: groups16 n (l.drop 16)

/-- One float element (R149): its code and FOVF. -/
def floatElem (ps : List Num) (acc : Option Nat) : Nat × Bool :=
  let start : Option Num := acc.map f32.decode
  let r := (groups16 (ps.length / 16) ps).foldl (fun (a : Option Num × Bool) g =>
    let (gs, o) := groupSum g
    match a.1 with
    | none => (some gs, a.2 || o)
    | some v =>
      let exact := Num.add .rne v gs
      let c := f32.encode .rne exact
      let ov := match exact with | .fin _ _ _ => c % 2 ^ 31 == 0x7F800000 | _ => false
      (some (f32.decode c), a.2 || o || ov)) (start, false)
  (f32.encode .rne (r.1.getD (.fin false 0 0)), r.2)

/-- An exact integer of an expanded element. -/
def numInt : Num → Int
  | .fin n m e => (if n then -1 else 1) * (m * 2 ^ e.toNat : Nat)
  | _ => 0

/-- One integer element (R150): its code and IOVF. -/
def intElem (ps : List Int) (acc : Option Nat) : Nat × Bool :=
  let v := ps.foldl (· + ·) (match acc with | some a => (BitVec.ofNat 32 a).toInt | none => 0)
  ((BitVec.ofInt 32 v).toNat, decide (v < -(2 ^ 31) ∨ 2 ^ 31 ≤ v))

/-- 32-bit lane j of a row. -/
def lane32 (v : Row) (j : Nat) : Nat := v.toNat / 2 ^ (32 * j) % 2 ^ 32

/-- A row from its lanes of w bits. -/
def packLanes (w : Nat) (ls : List Nat) : Row := BitVec.ofNat 2048 (ls.foldr (fun l a => a * 2 ^ w + l) 0)

/-- Row i of one bank of an MMA's group (R327, R149, R150): columns 64 c to 64 c + 63 against the row arow; its lanes, and its flags. -/
def mmaBank (i c : Nat) (accum int : Bool) (arow : Row) (fa fb : BitVec 32) (tab : Nat) (zs : Row) (set : Nat) (old : Row) : Row × BitVec 3 :=
  let as := expandLine fa (tab % 2 ^ 8192) arow.toNat (aScales fa zs i)
  let xa := as.any (·.2)
  let outs := (List.range 64).map fun j =>
    let col := 64 * c + j
    let bs := expandLine fb (tab / 2 ^ 8192) (set / 2 ^ (2048 * col) % 2 ^ 2048) fun n => set / 2 ^ (8 * (49152 + 8 * col + n)) % 256
    let acc := if accum then some (lane32 old j) else none
    let xr := bs.any (·.2)
    if int then
      let (v, o) := intElem (List.zipWith (fun a b => numInt a.1 * numInt b.1) as bs) acc
      (v, if o then 1 else 0)
    else
      let (v, o) := floatElem (List.zipWith (fun a b => Num.mul a.1 b.1) as bs) acc
      (v, (if o then 2 else 0) + (if xr then 4 else 0))
  let flags := outs.foldl (fun (a : Nat) o => a ||| o.2) (if xa then 4 else 0)
  (packLanes 32 (outs.map (·.1)), BitVec.ofNat 3 flags)

end Sys2Proof.Machine
end

