-- ==== Sys2Proof/Machine/Mem.lean ====
section
/-!
DEFINITION. Memory: bytes, the physical map, page walks and held translations, owner-token checks, slabs, and the reads and
writes of several bytes, which are little-endian (R3, R66 to R94).
-/

namespace Sys2Proof.Machine

/-- Changes a strand. -/
def State.modStrand (s : State) (b k : Nat) (f : Strand → Strand) : State := s.setStrand b k (f (s.strand b k))
/-- Changes a braid. -/
def State.modBraid (s : State) (b : Nat) (f : Braid → Braid) : State := s.setBraid b (f (s.braid b))
/-- Changes a partition. -/
def State.modPart (s : State) (p : Nat) (f : Part → Part) : State := s.setPart p (f (s.part p))
/-- Changes a world. -/
def State.modWorld (s : State) (w : Nat) (f : World → World) : State := s.setWorld w (f (s.world w))

/-! Bytes of memory: addresses strictly rising, no zero listed (log 3). -/

/-- The byte at an address. -/
def memGet (m : List Host.Cell) (a : Nat) : Byte :=
  match m with
  | [] => 0
  | (j, v) :: t => if j = a then v else memGet t a

/-- Lists a byte, in address order. -/
def memPut (m : List Host.Cell) (a : Nat) (v : Byte) : List Host.Cell :=
  match m with
  | [] => [(a, v)]
  | (j, w) :: t => if j = a then (a, v) :: t else if a < j then (a, v) :: (j, w) :: t else (j, w) :: memPut t a v

/-- Writes a byte: the value an unlisted address reads as is never listed. -/
def memSet (m : List Host.Cell) (a : Nat) (v : Byte) : List Host.Cell :=
  if v = 0 then m.filter fun c => c.1 != a else memPut m a v

/-- The canonical form of memory: addresses strictly rising, and no entry equal to what an unlisted address reads as. -/
abbrev Memory.wf (m : List Host.Cell) : Prop := m.Pairwise (fun a b => a.1 < b.1) ∧ ∀ c ∈ m, c.2 ≠ 0

/-- Bytes from an address up. -/
def memGetN (m : List Host.Cell) : Nat → Nat → List Byte
  | 0, _ => []
  | n + 1, a => memGet m a :: memGetN m n (a + 1)

/-- Writes bytes from an address up. -/
def memSetN (m : List Host.Cell) (a : Nat) : List Byte → List Host.Cell
  | [] => m
  | v :: vs => memSetN (memSet m a v) (a + 1) vs

/-- A block of bytes written at once: what stood there goes, and its bytes are listed but for zeros. -/
def memBlock (m : List Host.Cell) (a : Nat) (vs : List Byte) : List Host.Cell :=
  m.filter (fun c => decide (c.1 < a)) ++ (vs.zipIdx.filter fun e => e.1 != 0).map (fun e => (a + e.2, e.1)) ++
    m.filter (fun c => decide (a + vs.length ≤ c.1))

def State.byte (s : State) (a : Nat) : Byte := memGet s.mem a
def State.readN (s : State) (a n : Nat) : List Byte := memGetN s.mem n a
def State.writeN (s : State) (a : Nat) (vs : List Byte) : State := { s with mem := memSetN s.mem a vs }

def State.writeBlock (s : State) (a : Nat) (vs : List Byte) : State := { s with mem := memBlock s.mem a vs }

/-- An n-byte little-endian number (R3). -/
def State.readLE (s : State) (a n : Nat) : Nat := leNat (s.readN a n)

/-! The physical map (R18, R77). -/

def isDevMem (pa : Nat) : Bool := pa < 0x6000000000
def isHostMem (pa : Nat) : Bool := 0x8000000000000 ≤ pa && pa < 0x10000000000000
def populated (pa : Nat) : Bool := isDevMem pa || isHostMem pa
/-- The home slice of an address (R18, R77, R86). -/
def homeSlice (pa : Nat) : Nat := pa / 4096 % 8
/-- The HBM stack of a byte of device memory, the channel in it, and the channel's number in the module (R413). -/
def hbmStack (pa : Nat) : Nat := pa / 4096 % 8
def hbmChannel (pa : Nat) : Nat := pa / 2 ^ 15 % 32
def hbmChannelNo (pa : Nat) : Nat := 32 * hbmStack pa + hbmChannel pa

/-- Where the topology map lies (R130): the last four 64 KiB pages of device memory (log 50, DESIGN CHOICE). -/
def mapBase : Nat := 0x5FFFFC0000
def isMapMem (pa : Nat) : Bool := mapBase ≤ pa && pa < mapBase + 4 * 65536

/-! Translation (R78 to R83). -/

/-- What a leaf gives for a 64 KiB page: a translation to be held. The page walk reads entries of 64 bits. -/
def leafOf (world vpage va lvl : Nat) (e : Nat) : TlbEntry :=
  let size := match lvl with | 2 => 2 ^ 30 | 3 => 2 ^ 21 | _ => 2 ^ 16
  let base := e / 4096 % 2 ^ 40 * 4096
  { world := world, vpage := vpage, page := base + va % size / 65536 * 65536, vis := e / 128 % 4, isSealed := e / 64 % 2 == 1,
    x := e / 32 % 2 == 1, w := e / 16 % 2 == 1 }

/-- The entry of a level is malformed (R80): a reserved bit, a misaligned ADDR, VIS 3, a LEAF where none may stand, an unpopulated page. VIS 3 counts in a
leaf alone, as R79 gives VIS to leaves (log 55, DEDUCED). -/
def malformed (lvl e : Nat) : Bool :=
  let leaf := e / 2 % 2 == 1
  let base := e / 4096 % 2 ^ 40 * 4096
  let size := if leaf then (match lvl with | 2 => 2 ^ 30 | 3 => 2 ^ 21 | 4 => 2 ^ 16 | _ => 4096) else (if lvl = 3 then 256 else 4096)
  e / 2 ^ 52 != 0 || e / 4 % 4 != 0 || e / 512 % 8 != 0 || base % size != 0 || (leaf && e / 128 % 4 == 3) ||
    (leaf && lvl == 1) || (!leaf && lvl == 4) || (leaf && !(populated base && populated (base + size - 1)))

/-- The index of an address at a level (R79). -/
def walkIndex (lvl va : Nat) : Nat :=
  match lvl with
  | 1 => va / 2 ^ 39 % 512
  | 2 => va / 2 ^ 30 % 512
  | 3 => va / 2 ^ 21 % 512
  | _ => va / 2 ^ 16 % 32

/-- The walk from a level's table: a leaf or a fault code (R79, R80, R83). -/
def walkFrom (s : State) (world va : Nat) : Nat → Nat → Nat → Except Nat TlbEntry
  | 0, _, _ => .error 6
  | n + 1, lvl, table =>
    let e := s.readLE (table + 8 * walkIndex lvl va) 8
    if e % 2 = 0 then .error 1
    else if malformed lvl e then .error 6
    else if e / 2 % 2 = 1 then .ok (leafOf world (va / 65536) va lvl e)
    else walkFrom s world va n (lvl + 1) (e / 4096 % 2 ^ 40 * 4096)

/-- The leaf of a page of the topology map, which the halyard maps sealed into every world's context at MAP_VA (R130, log 50). -/
def State.mapLeaf (s : State) (world va : Nat) : Option TlbEntry :=
  let at_ := s.mapVa.toNat / 65536
  let vpage := va / 65536
  if at_ ≠ 0 ∧ at_ ≤ vpage ∧ vpage < at_ + 4 then
    some { world := world, vpage := vpage, page := mapBase + (vpage - at_) * 65536, vis := 0, isSealed := true, x := false, w := false }
  else none

/-- The table pointer a die's walk cache holds for an address (R81). -/
def State.walkHit (s : State) (b world va : Nat) : Option WalkPtr :=
  (Store.get s.walkCache (b / 12) []).find? fun p => p.world == world && p.region == va / 2 ^ 21

/-- The level-4 table a walk comes to, for the walk cache (R81). -/
def walkTable (s : State) (world va : Nat) : Nat → Nat → Nat → Option Nat
  | 0, _, _ => none
  | n + 1, lvl, table =>
    if lvl = 4 then some table
    else
      let e := s.readLE (table + 8 * walkIndex lvl va) 8
      if e % 2 = 0 || malformed lvl e || e / 2 % 2 = 1 then none
      else walkTable s world va n (lvl + 1) (e / 4096 % 2 ^ 40 * 4096)

/-- The page walk of a world for an address below 2^48 from a table of a level on (R78, R79): 7 where the context is disabled. The tables come before
the map's leaf. -/
def walkAt (s : State) (world va fuel lvl table : Nat) : Except Nat TlbEntry :=
  if !(s.world world).ctx.getLsbD 63 then .error 7
  else match walkFrom s world va fuel lvl table, s.mapLeaf world va with
    | .error 1, some e => .ok e
    | r, _ => r

/-- The page walk from the root. -/
def walkPlain (s : State) (world va : Nat) : Except Nat TlbEntry := walkAt s world va 4 1 (bits (s.world world).ctx 12 40 * 4096)

/-- The page walk by the walker of a braid's die, through its walk cache (R81). A walk is one step of this model, so the limit of 128 at a time is
never met. -/
def walk (s : State) (b world va : Nat) : Except Nat TlbEntry :=
  match s.walkHit b world va with
  | some p => walkAt s world va 1 4 p.table
  | none => walkPlain s world va

/-- A translation among those held. -/
def tlbFind (l : List TlbEntry) (world va : Nat) : Option TlbEntry := l.find? fun e => e.world == world && e.vpage == va / 65536

/-- A translation the braid holds (R81). -/
def Braid.tlbHit (t : Braid) (world va : Nat) : Option TlbEntry := tlbFind t.tlb world va

/-- A translation enters the braid's TLB: 128 sets of 8 by the low bits of the page number, the oldest of a full set replaced (R81; the index and the
replacement are log 44's, DESIGN CHOICE). -/
def Braid.tlbAdd (t : Braid) (e : TlbEntry) : Braid :=
  if t.tlb.contains e then t
  else
    let same := t.tlb.filter fun u => u.vpage % 128 == e.vpage % 128
    { t with tlb := (if same.length < 8 then t.tlb else t.tlb.erase (same.headD e)) ++ [e] }

/-- A translation enters the strand's micro-TLB of 32 entries, the oldest replaced (R81). -/
def Strand.tlbAdd (t : Strand) (e : TlbEntry) : Strand :=
  if t.mtlb.contains e then t else { t with mtlb := (if t.mtlb.length < 32 then t.mtlb else t.mtlb.tail) ++ [e] }

/-- A table pointer enters a die's walk cache of 256, the oldest replaced (R81). -/
def State.walkAdd (s : State) (b : Nat) (p : WalkPtr) : State :=
  let l := Store.get s.walkCache (b / 12) []
  if l.contains p then s else { s with walkCache := Store.put s.walkCache (b / 12) ((if l.length < 256 then l else l.tail) ++ [p]) }

/-- The translation of an address through what the braid holds, else by a walk (R81, R82). -/
def translate (s : State) (b world va : Nat) : Except Nat TlbEntry :=
  match (s.braid b).tlbHit world va with
  | some e => .ok e
  | none => walk s b world va

/-- The translation of a strand's address: its micro-TLB first (R81). -/
def translateFor (s : State) (b k world va : Nat) : Except Nat TlbEntry :=
  match tlbFind (s.strand b k).mtlb world va with
  | some e => .ok e
  | none => translate s b world va

/-- The physical address under a held translation. -/
def TlbEntry.pa (e : TlbEntry) (va : Nat) : Nat := e.page + va % 65536

/-- An address in the braid-local window (R74). -/
def isWindow (a : Nat) : Bool := a / 2 ^ 56 == 0xFE
def winSlab (a : Nat) : Nat := a / 2 ^ 50 % 64
def winOff (a : Nat) : Nat := a % 2 ^ 50

/-- A write needs W, and a sealed page takes none (R80, R83). -/
def writeFault (e : TlbEntry) : Option Nat := if e.isSealed then some 4 else if e.w then none else some 3

/-- The world is protected (R361). -/
def State.isProtected (s : State) (w : Nat) : Bool := w != 0 && (s.world w).tdisp == .run

/-- A page with VIS 2 lies whole within the world's declassify list (R376). -/
def State.declassified (s : State) (w page : Nat) : Bool :=
  s.declass.any fun d => d.1 == w && d.2.1 ≤ page && page + 65536 ≤ d.2.1 + 2 ^ d.2.2

/-- A store to the page breaks the world boundary of a protected world (R80). -/
def boundaryFault (s : State) (w : Nat) (e : TlbEntry) : Bool :=
  s.isProtected w && (e.vis == 1 || (e.vis == 2 && !s.declassified w e.page))

/-! Tokens (R84 to R94). -/

def Token.covers (t : Token) (pa : Nat) : Bool := t.base ≤ pa && pa < t.base + 2 ^ t.log2

/-- The valid token that covers a byte (R84). -/
def State.tokenAt (s : State) (pa : Nat) : Option Token := s.tokens.find? (·.covers pa)

/-- The valid token with exactly this base and size (R85). -/
def State.tokenExact (s : State) (base log2 : Nat) : Option Token := s.tokens.find? fun t => t.base == base && t.log2 == log2

/-- Replaces the entry of a token named by base and size. -/
def State.setToken (s : State) (base log2 : Nat) (t : Token) : State :=
  { s with tokens := s.tokens.map fun u => if u.base == base && u.log2 == log2 then t else u }

/-- The kinds of access of R93. -/
inductive Acc where
  | load
  | store
  | amo
  deriving DecidableEq, Repr

/-- The token check of an access by an agent that holds the given places (R93, R94): the trap cause. `held` answers for base, log2 and kind. -/
def tokenCheck (s : State) (held : Nat → Nat → Nat → Bool) (pa : Nat) (a : Acc) : Option Nat :=
  match s.tokenAt pa with
  | none => some 0x07
  | some t =>
    let has := held t.base t.log2 0 || (t.mode == 1 && held t.base t.log2 1) || (t.mode == 2 && held t.base t.log2 2)
    if !has then some 0x07
    else
      let ok := match t.mode, a with
        | 0, _ => true
        | 1, .load => true
        | 2, .load => true
        | 2, .amo => true
        | _, _ => false
      if !ok then some 0x08 else if t.dmg then some 0x09 else none

/-- The places of the held-token cache of an agent in a world (R90, R91). -/
def Braid.holds (t : Braid) (agent : BitVec 24) (world base log2 kind : Nat) : Bool :=
  t.held.any fun h => h.agent == agent && h.world == world && h.kind == kind && h.base == base && h.log2 == log2

/-! Slabs (R71 to R74). -/

def slabSize (e : Word) : Nat := bits e 42 9
def slabState (e : Word) : Nat := bits e 53 3
def slabOwner (e : Word) : Nat := bits e 51 2
def slabWorld (e : Word) : Nat := bits e 56 8
def slabBank (e : Word) : Nat := bits e 29 5
def slabOffset (e : Word) : Nat := bits e 34 8
def Braid.slabOf (t : Braid) (id : Nat) : Word := Store.get t.slab id 0

/-- A slab entry from its fields (R71). -/
def mkSlab (world st owner size off bank : Nat) : Word :=
  BitVec.ofNat 64 (world % 256 * 2 ^ 56 + st % 8 * 2 ^ 53 + owner % 4 * 2 ^ 51 + size % 512 * 2 ^ 42 + off % 256 * 2 ^ 34 + bank % 32 * 2 ^ 29)

/-- The same entry in another state. -/
def slabWith (e : Word) (st : Nat) : Word := mkSlab (slabWorld e) st (slabOwner e) (slabSize e) (slabOffset e) (slabBank e)

/-- The key in Braid.pad of a byte of a slab. -/
def slabByte (e : Word) (off : Nat) : Nat := slabBank e * 65536 + slabOffset e * 256 + off

def Braid.padN (t : Braid) (a n : Nat) : List Byte := (List.range n).map fun i => Store.get t.pad (a + i) 0
def Braid.padSet (t : Braid) (a : Nat) (vs : List Byte) : Braid :=
  { t with pad := vs.zipIdx.foldl (fun p vi => Store.set p (a + vi.2) vi.1 0) t.pad }

def Braid.bankModeOf (t : Braid) (n : Nat) : Nat := Store.get t.bankMode n 0
/-- A switch of the bank is pending (R69). -/
def Braid.switching (t : Braid) (n : Nat) : Bool := t.bankSw.any (·.bank == n)

/-! Reads and writes with the buffered lines of an arm over memory (R52). -/

/-- A byte as a unit of an arm in the braid sees it. -/
def bufByte (s : State) (b : Nat) (arm : Option Nat) (pa : Nat) : Byte :=
  match arm with
  | none => s.byte pa
  | some m =>
    match (s.braid b).buf.find? fun e => e.arm == m && e.addr == pa with
    | some e => e.val
    | none => s.byte pa

def readBuf (s : State) (b : Nat) (arm : Option Nat) (pa n : Nat) : List Byte :=
  (List.range n).map fun i => bufByte s b arm (pa + i)

/-- A write of an arm: kept beside memory (R52); of any other unit: performed. -/
def writeBuf (s : State) (b : Nat) (arm : Option Nat) (pa : Nat) (vs : List Byte) : State :=
  match arm with
  | none => s.writeN pa vs
  | some m =>
    let t := s.braid b
    let es := vs.zipIdx.map fun vi => (⟨m, pa + vi.2, vi.1⟩ : BufByte)
    s.setBraid b { t with buf := t.buf.filter (fun e => !(e.arm == m && pa ≤ e.addr && e.addr < pa + vs.length)) ++ es }

end Sys2Proof.Machine
end

