-- ==== Sys2Proof/Machine/Route.lean ====
section
/-!
DEFINITION. Nodes, links and source routes (R15, R19, R20, R119 to R129, R131): where a port code leads, the number and direction of
the link it crosses, and one hop of a packet. The numbering of links is the model's (log 8); there are 319, as R131 allows.
-/

namespace Sys2Proof.Machine

/-- What a port of a node leads to: the link, whether it is crossed from A to B, the node, and the code the far node is entered by. -/
structure Hop where
  link : Nat
  ab : Bool
  far : Node
  arr : Nat
  deriving DecidableEq, Repr

/-- Row and column of a braid in its mesh (R15). -/
def meshRow (b : Nat) : Nat := b % 12 / 4
def meshCol (b : Nat) : Nat := b % 4
/-- The die of a braid, 0 to 7 (R14). -/
def dieOf (b : Nat) : Nat := b / 12

/-- The slice attachment of a braid with b in 0 to 3 or 8 to 11, and of the hub (R121). -/
def sliceAttach (b : Nat) : Nat := dieOf b % 2 * 4 + b % 12 % 4

/-- The hub output of a router with b = 4 or 7 (R120). -/
def hubOut (b : Nat) : Nat := 2 * dieOf b + (if b % 12 = 4 then 0 else 1)

/-- A router's port (R119, R20). -/
def routerPort (b code : Nat) : Option Hop :=
  let d := dieOf b
  let r := meshRow b
  let c := meshCol b
  match code with
  | 0 => if r = 0 then none else some ⟨17 * d + 9 + 4 * (r - 1) + c, false, .router (b - 4), 2⟩
  | 1 => if c = 3 then none else some ⟨17 * d + 3 * r + c, true, .router (b + 1), 3⟩
  | 2 => if r = 2 then none else some ⟨17 * d + 9 + 4 * r + c, true, .router (b + 4), 0⟩
  | 3 => if c = 0 then none else some ⟨17 * d + 3 * r + (c - 1), false, .router (b - 1), 1⟩
  | 4 => some ⟨136 + 12 * (b / 24) + b % 12, b % 24 < 12, .router (partner b), 4⟩
  | 6 =>
    if r = 0 then some ⟨184 + 8 * d + c, true, .slice (2 * (b / 24)), sliceAttach b⟩
    else if r = 2 then some ⟨184 + 8 * d + 4 + c, true, .slice (2 * (b / 24) + 1), sliceAttach b⟩
    else if c = 0 ∨ c = 3 then some ⟨248 + hubOut b, false, .hub, hubOut b⟩
    else none
  | _ => none

/-- The braid of hub output 0 to 15 (R120). -/
def hubRouter (o : Nat) : Nat := 12 * (o / 2) + (if o % 2 = 0 then 4 else 7)

/-- A hub output (R120). -/
def hubPort (o : Nat) : Option Hop :=
  if o < 16 then some ⟨248 + o, true, .router (hubRouter o), 6⟩
  else if o < 24 then some ⟨264 + (o - 16), true, .slice (o - 16), 8⟩
  else if o = 24 then some ⟨272, true, .host, 6⟩
  else if o < 41 then some ⟨273 + (o - 25), true, .lanyard (o - 25), 6⟩
  else if o = 41 then some ⟨289, true, .thimble, 6⟩
  else if o = 42 then some ⟨290, true, .fid, 6⟩
  else if o < 55 then some ⟨291 + (o - 43), true, .halyard (o - 43), 6⟩
  else none

/-- A slice attachment, used by responses (R121). -/
def slicePort (n a : Nat) : Option Hop :=
  if a < 8 then
    let d := 2 * (n / 2) + a / 4
    let b := 12 * d + (if n % 2 = 0 then 0 else 8) + a % 4
    some ⟨184 + 8 * d + (if n % 2 = 0 then 0 else 4) + a % 4, false, .router b, 6⟩
  else if a = 8 then some ⟨264 + n, false, .hub, 16 + n⟩
  else none

/-- The local node number (R19); the hub's is never routable. -/
def Node.num : Node → Nat
  | .router b => b
  | .slice n => 96 + n
  | .host => 104
  | .lanyard n => 105 + n
  | .thimble => 121
  | .fid => 122
  | .halyard p => 123 + p
  | .hub => 255
  | .peer _ => 255

/-- The two ends of a link with the port at each (R131), for the topology map. -/
def linkEnds (l : Nat) : Node × Nat × Node × Nat :=
  if l < 136 then
    let d := l / 17
    let i := l % 17
    if i < 9 then
      let b := 12 * d + 4 * (i / 3) + i % 3
      (.router b, 1, .router (b + 1), 3)
    else
      let b := 12 * d + (i - 9)
      (.router b, 2, .router (b + 4), 0)
  else if l < 184 then
    let b := 24 * ((l - 136) / 12) + (l - 136) % 12
    (.router b, 4, .router (b + 12), 4)
  else if l < 248 then
    let d := (l - 184) / 8
    let i := (l - 184) % 8
    let b := 12 * d + (if i < 4 then i else 4 + i)
    (.router b, 6, .slice (2 * (d / 2) + (if i < 4 then 0 else 1)), sliceAttach b)
  else if l < 264 then (.hub, l - 248, .router (hubRouter (l - 248)), 6)
  else if l < 272 then (.hub, 16 + (l - 264), .slice (l - 264), 8)
  else if l = 272 then (.hub, 24, .host, 6)
  else if l < 289 then (.hub, 25 + (l - 273), .lanyard (l - 273), 6)
  else if l = 289 then (.hub, 41, .thimble, 6)
  else if l = 290 then (.hub, 42, .fid, 6)
  else if l < 303 then (.hub, 43 + (l - 291), .halyard (l - 291), 6)
  else (.lanyard (l - 303), 0, .peer (l - 303), 0)

/-- The registers of a link that firmware has not written (log 8, DESIGN CHOICE): every lane count 4, the ranks of the example of R135's file for a
step north and a slice, and rank BA = 255 - rank AB (R126). -/
def linkReset (l : Nat) : LinkReg :=
  let r := if l < 136 then (if l % 17 < 9 then 60 else 215) else if l < 184 then 80 else if l < 248 then 200 else if l < 264 then 90
    else if l < 303 then 210 else 230
  { rankAB := r, rankBA := 255 - r, lanesAB := 4, lanesBA := 4 }

def State.link (s : State) (l : Nat) : LinkReg := Store.get s.links l (linkReset l)

/-- Links with the node at either end. -/
def linksAt (n : Node) : List Nat := (List.range 319).filter fun l => (linkEnds l).1 == n || (linkEnds l).2.2.1 == n

/-! Route words (R122). -/

def rwHops (w : Word) : Nat := bits w 58 6
def rwExt (w : Word) : Bool := w.getLsbD 57
def rwCode (w : Word) : Nat := bits w 0 3
/-- One code consumed from a word. -/
def rwNext (w : Word) : Word :=
  BitVec.ofNat 64 ((rwHops w - 1) * 2 ^ 58 + (if rwExt w then 2 ^ 57 else 0) + w.toNat % 2 ^ 57 / 8)

/-- A code taken from the route words: the code and the words left, or the fault (R122, R128). An empty word with EXT 1 makes the next current. -/
def takeCode : List Word → Except Nat (Nat × List Word)
  | [] => .error 8
  | w :: rest =>
    if rwHops w > 19 then .error 8
    else if rwHops w ≠ 0 then .ok (rwCode w, rwNext w :: rest)
    else if rwExt w then takeCode rest
    else .error 4

/-- A code pushed onto the return words (R124); fault 8 where a fifth word would be needed. -/
def pushRet (ret : List Word) (code : Nat) : Except Nat (List Word) :=
  match ret with
  | [] => .ok [BitVec.ofNat 64 (2 ^ 58 + code % 8)]
  | w :: rest =>
    if rwHops w < 19 then
      .ok (BitVec.ofNat 64 ((rwHops w + 1) * 2 ^ 58 + (if rwExt w then 2 ^ 57 else 0) + (w.toNat % 2 ^ 57 * 8 + code % 8) % 2 ^ 57) :: rest)
    else if ret.length < 4 then .ok (BitVec.ofNat 64 (2 ^ 58 + 2 ^ 57 + code % 8) :: ret)
    else .error 8

def pushAll (ret : List Word) : List Nat → Except Nat (List Word)
  | [] => .ok ret
  | c :: cs => match pushRet ret c with | .ok r => pushAll r cs | .error e => .error e

/-- The value of Packet.arrived of a packet that starts at its node, and of one turned back at the node it started at (own). -/
def startsHere : Nat := 64
def turnedAtStart : Nat := 65

/-- The codes a node pushes for the port a packet arrived by (R124); the source pushes L. -/
def arrivalCodes (n : Node) (arr : Nat) : List Nat :=
  if arr = startsHere then (match n with | .lanyard _ => [6] | _ => [5])
  else match n with
  | .router _ => [arr]
  | .hub => [arr % 8, arr / 8]
  | .slice _ => [arr % 8, arr / 8]
  | .lanyard _ => [6]
  | _ => []

/-- The one link of a node that only starts and ends packets (R121): a packet that starts there leaves over it, consuming no code (log 35). -/
def startLink : Node → Option Hop
  | .host => some ⟨272, false, .hub, 24⟩
  | .lanyard n => some ⟨273 + n, false, .hub, 25 + n⟩
  | .thimble => some ⟨289, false, .hub, 41⟩
  | .fid => some ⟨290, false, .hub, 42⟩
  | .halyard q => some ⟨291 + q, false, .hub, 43 + q⟩
  | _ => none

/-- A world the roster admits for a device (R138). -/
def State.onRoster (s : State) (w dev : Nat) : Bool := w == 0 || dev == s.device || (s.world w).roster.getLsbD dev

/-- A braid admits world 0 and each world with a record in its slots or in a saved context bound to it (R128). -/
def State.admits (s : State) (b w : Nat) : Bool :=
  w == 0 || (List.range 4).any (fun k => (s.strand b k).slot.any fun e => e.2.st != .empty && recWorld e.2.bind == w) ||
    s.images.any (fun i => i.braid == b && i.world == w)

/-- Crossing a link (R125): the down check, then ranks and lanes. -/
def crossLink (s : State) (h : Hop) (p : Packet) : Except Nat Packet :=
  let l := s.link h.link
  if l.down then .error 2
  else
    let r := if h.ab then l.rankAB else l.rankBA
    let n := if h.ab then l.lanesAB else l.lanesBA
    let lane := if r < p.lastRank then p.lane + 1 else p.lane
    if lane > 3 ∨ n ≤ lane then .error 3
    else .ok { p with lane := lane, lastRank := r, at_ := h.far, arrived := h.arr }

/-- A packet turned back at a faulting node (R129): FAULT, FAULT_HOP, no payload, the return route as its route, its ends exchanged so that L accepts it
(log 35). At a lanyard port it leaves by the side it came by. Where pushing the arrival codes would overflow, it goes back by the return words alone
(log 35, DESIGN CHOICE: the specification is silent). A refused response belongs to no command of its requester (R135). -/
def faultReturn (p : Packet) (fault hop : Nat) : Packet :=
  let ret := match pushAll p.ret (arrivalCodes p.at_ p.arrived) with | .ok r => r | .error _ => p.ret
  let arr := match p.at_ with
    | .lanyard _ => 6 - p.arrived
    | _ => if p.arrived = startsHere then turnedAtStart else startsHere
  { p with kind := 8, net := true, fault := fault, faultHop := hop, data := [], ret := p.route, route := ret, lane := 0, lastRank := 0,
           src := p.dest, dest := p.src, arrived := arr, owner := if p.kind = 3 then none else p.owner }

/-- Delivery by L (R128): the node is DEST, and the world is admitted. -/
def deliverAt (s : State) (p : Packet) (num : Nat) (ok : Bool) : Except Nat Packet :=
  if p.dest % 256 ≠ num ∨ p.dest / 256 ≠ s.device ∨ 135 ≤ p.dest % 256 then .error 5
  else if !ok then .error 6
  else .ok { p with delivered := true }

/-- A packet leaves by a port (R128). -/
def leaveBy (s : State) (h : Option Hop) (p : Packet) : Except Nat Packet :=
  match h with
  | none => .error 1
  | some h => crossLink s h p

/-- A packet that has consumed a second code, for a node that reads two (R120, R121). -/
def secondCode (s : State) (p : Packet) (port : Nat → Option Hop) : Except (Nat × Nat) Packet :=
  match takeCode p.route with
  | .error e => .error (e, p.consumed)
  | .ok (c, rest) =>
    match leaveBy s (port c) { p with route := rest, consumed := p.consumed + 1 } with
    | .error e => .error (e, p.consumed)
    | .ok q => .ok q

/-- The link a lanyard port crosses (R121, R128, R138): toward the hub, or to the peer device, which the world's roster must admit. -/
def lanyardCross (s : State) (n : Nat) (p : Packet) : Except Nat Packet :=
  if p.arrived = 0 then leaveBy s (startLink (.lanyard n)) p
  else match leaveBy s (some ⟨303 + n, true, .peer n, 0⟩) p with
    | .error e => .error e
    | .ok q => if s.onRoster p.world ((Config.peerPort n).toNat / 256) then .ok q else .error 7

/-- The return words after a visit (R124): a fault return pushes nothing. -/
def Packet.pushed (p : Packet) : Except Nat (List Word) :=
  if p.kind = 8 then .ok p.ret else pushAll p.ret (arrivalCodes p.at_ p.arrived)

/-- A code consumed at the node a packet stands at, its return words being pushed: where it goes, in the order of R128's table. -/
def consumeAt (s : State) (p : Packet) (c : Nat) : Except (Nat × Nat) Packet :=
  let at1 (r : Except Nat Packet) : Except (Nat × Nat) Packet := match r with | .ok q => .ok q | .error e => .error (e, p.consumed - 1)
  match p.at_ with
  | .router b => at1 (if c = 5 then deliverAt s p b (s.admits b p.world) else leaveBy s (routerPort b c) p)
  | .hub => secondCode s p fun c0 => hubPort (8 * c + c0)
  | .slice n => if c = 5 then at1 (deliverAt s p (96 + n) true) else if p.net then secondCode s p fun c0 => slicePort n (8 * c + c0) else at1 (.error 1)
  | .lanyard n => at1 (if c = 6 then lanyardCross s n p else .error 1)
  | .host => at1 (if c = 5 then deliverAt s p 104 true else .error 1)
  | .thimble => at1 (if c = 5 then deliverAt s p 121 (p.world == 0) else .error 1)
  | .fid => at1 (if c = 5 then deliverAt s p 122 (p.world == 0) else .error 1)
  | .halyard q => at1 (if c = 5 then deliverAt s p (123 + q) (p.world == 0) else .error 1)
  | .peer _ => at1 (.error 5)

/-- One visit of a packet at the node it stands at: it moves on, is delivered, or faults with a code and the hop (R119 to R128). -/
def hopOf (s : State) (p : Packet) : Except (Nat × Nat) Packet :=
  match p.pushed with
  | .error e => .error (e, p.consumed)
  | .ok ret =>
    match (if p.arrived = startsHere then startLink p.at_ else none) with
    | some h => match leaveBy s (some h) { p with ret := ret } with | .ok q => .ok q | .error e => .error (e, p.consumed)
    | none =>
      match takeCode p.route with
      | .error e => .error (e, p.consumed)
      | .ok (c, rest) => consumeAt s { p with route := rest, ret := ret, consumed := p.consumed + 1 } c

/-- A walk of at most so many visits: the packet delivered, or none where it has left for a peer device; else the fault and its hop. -/
def walkOut (s : State) : Nat → Packet → Except (Nat × Nat) (Option Packet)
  | 0, _ => .error (4, 76)
  | n + 1, p =>
    match hopOf s p with
    | .error e => .error e
    | .ok q =>
      if q.delivered then .ok (some q)
      else match q.at_ with
        | .peer _ => .ok none
        | _ => walkOut s n q

/-- The response to a delivered packet: it starts on the return route, in the response network (R124). -/
def Packet.response (p : Packet) : Packet :=
  { p with kind := 3, net := true, route := p.ret, ret := [], consumed := 0, lastRank := 0, lane := 0, fault := 0, faultHop := 0,
           src := p.dest, dest := p.src, delivered := false, data := [], bad := false, arrived := startsHere }

/-- What becomes of a request: its response returns, it faults, or its response is refused on the way back (R126, R135). -/
inductive Walk where
  | ok
  | fault (code hop : Nat)
  | lost
  deriving DecidableEq, Repr

/-- The route the host port and the lanyard ports build to a home slice: hub output 16 + s, then L (R121). -/
def homeRoute (s : Nat) : List Word := [BitVec.ofNat 64 (3 * 2 ^ 58 + 5 * 64 + s % 8 * 8 + 2)]

/-- The walk of a request and of its response, at most 77 visits each. -/
def walkRoute (s : State) (p : Packet) : Walk :=
  match walkOut s 80 p with
  | .error e => .fault e.1 e.2
  | .ok none => .ok
  | .ok (some q) => match walkOut s 80 q.response with
    | .error _ => .lost
    | .ok _ => .ok

/-- A request packet at injection (R123). -/
def mkPacket (s : State) (b : Nat) (kind : Nat) (route : List Word) (dest world scope cls : Nat) : Packet where
  kind := kind
  net := false
  route := route
  ret := []
  consumed := 0
  lastRank := 0
  lane := 0
  fault := 0
  faultHop := 0
  tag := s.serial % 65536
  scope := scope
  cls := cls
  world := world
  src := s.device * 256 + b
  dest := dest
  at_ := .router b
  arrived := startsHere
  delivered := false
  data := []
  strand := 0
  counter := 0
  channel := 0
  op := 0
  coll := false
  owner := none

/-! The route book (R133, R134). -/

def RbEntry.dest (e : RbEntry) : Nat := bits e.ctl 48 16
def RbEntry.world (e : RbEntry) : Nat := bits e.ctl 40 8
def RbEntry.valid (e : RbEntry) : Bool := e.ctl.getLsbD 39
def RbEntry.susp (e : RbEntry) : Bool := e.ctl.getLsbD 38
def RbEntry.roster (e : RbEntry) : Bool := e.ctl.getLsbD 37
def RbEntry.words (e : RbEntry) : List Word := if rwExt e.route then [e.route, e.ext] else [e.route]

def Braid.rbOf (t : Braid) (i : Nat) : RbEntry := Store.get t.rb i {}

/-- The entry for a destination: the lowest valid one of the world, else the lowest of world 0xFF (R134). -/
def Braid.lookup (t : Braid) (dest world : Nat) : Option Nat :=
  let find (w : Nat) := (List.range 256).find? fun i =>
    let e := t.rbOf i
    e.valid && e.dest == dest && e.world == w
  match find world with
  | some i => some i
  | none => find 0xFF

/-- The destination node of an access to a physical address (R134). -/
def destOf (s : State) (pa : Nat) : Nat := s.device * 256 + (if isHostMem pa then 104 else 96 + homeSlice pa)

/-- Suspends an entry after a fault and tells the halyard (R135). -/
def suspendEntry (s : State) (b i fault hop : Nat) : State :=
  let t := s.braid b
  let e := t.rbOf i
  let s := s.setBraid b { t with rb := Store.put t.rb i { e with ctl := setBit e.ctl 38 true } }
  let p := s.part (partOf b)
  s.setPart (partOf b) { p with routeFaults := p.routeFaults ++ [(b, i, fault, hop)] }

/-- How traffic of a braid fares at issue (R134, R135): no entry, refused by the roster, sent, held on an entry (with the fault that suspends it now),
or performed at its destination with the response lost on its return route. -/
inductive Fare where
  | noEntry
  | offRoster
  | sent
  | held (entry : Nat) (fault : Option (Nat × Nat))
  | lost (entry : Nat)
  deriving DecidableEq, Repr

/-- The fare of a request to a destination node (R134). -/
def fareTo (s : State) (b world dest kind : Nat) : Fare :=
  let t := s.braid b
  match t.lookup dest world with
  | none => .noEntry
  | some i =>
    let e := t.rbOf i
    if e.roster && !s.onRoster world (e.dest / 256) then .offRoster
    else if e.susp then .held i none
    else match walkRoute s (mkPacket s b kind e.words dest world 1 0) with
      | .ok => .sent
      | .fault c h => .held i (some (c, h))
      | .lost => .lost i

/-- The fare of an access to a physical address. -/
def fare (s : State) (b world pa : Nat) (kind : Nat) : Fare := fareTo s b world (destOf s pa) kind

/-- The fare of a token operation: to the home slice of the token, host memory's too (R86, R134). -/
def fareHome (s : State) (b world pa : Nat) : Fare := fareTo s b world (s.device * 256 + 96 + homeSlice pa) 4

/-- What the fare does to the machine: a fault suspends the entry. -/
def Fare.apply (f : Fare) (s : State) (b : Nat) : State :=
  match f with
  | .held i (some (c, h)) => suspendEntry s b i c h
  | _ => s

end Sys2Proof.Machine
end

