-- ==== Sys2Proof/Machine/Cache.lean ====
section
/-!
DEFINITION. The caches (R66, R67, R76, R109, R130): which lines the L1 of a strand, the cache of a braid and a slice hold, which of them are dirty and
whose stores they carry; what an access, a write-back, a bank switch or a transfer does to them; and poisoned data (R420). Memory itself keeps the newest
bytes (log 7), so a cache decides whether an access needs its home, what is lost with it, and what a fence must wait for.
-/

namespace Sys2Proof.Machine

/-- The line that holds a byte, and the lines of a range. -/
def lineOf (pa : Nat) : Nat := pa / 128 * 128
def cacheLines (pa n : Nat) : List Nat := (List.range ((pa + n - 1) / 128 + 1 - pa / 128)).map fun i => (pa / 128 + i) * 128

/-- Served at the home and held in no cache: the topology map and atomic-shared ranges (R66, R113, R130). -/
def State.homeOnly (s : State) (pa : Nat) : Bool :=
  isMapMem pa || (match s.tokenAt pa with | some t => t.mode == 2 | none => false)

/-! The L1 (R66): 64 sets of 4 by address bits [12:7]; the oldest of a full set is replaced (log 52, DESIGN CHOICE). -/

def Strand.l1Add (t : Strand) (l : Nat) : Strand :=
  if t.l1.contains l then t
  else
    let same := t.l1.filter fun m => m / 128 % 64 == l / 128 % 64
    { t with l1 := (if same.length < 4 then t.l1 else t.l1.erase (same.headD l)) ++ [l] }

def Strand.l1Drop (t : Strand) (gone : Nat → Bool) : Strand := { t with l1 := t.l1.filter fun l => !gone l }

/-- Lines leave the L1 of every strand of a braid. -/
def State.l1DropAll (s : State) (b : Nat) (gone : Nat → Bool) : State :=
  (List.range 4).foldl (fun s k => if (s.strand b k).l1.any gone then s.modStrand b k (·.l1Drop gone) else s) s

/-! Slices (R76): 2^20 lines each (R88), the least recently used replaced (log 52, DESIGN CHOICE). -/

/-- The line at its home slice, brought in or used; host memory is in no slice (R77). -/
def State.homeTouch (s : State) (l : Nat) (dirty : Bool) (who : List (BitVec 24 × Nat)) : State :=
  if !isDevMem l then s
  else
    let ls := Store.get s.slices (homeSlice l) []
    let old := (ls.find? (·.line == l)).getD { line := l }
    let new := { old with dirty := old.dirty || dirty, who := old.who ++ who.filter fun a => !old.who.contains a }
    let ls := ls.filter (·.line != l) ++ [new]
    { s with slices := Store.put s.slices (homeSlice l) (if 2 ^ 20 < ls.length then ls.tail else ls) }

/-! The braid cache (R67, R69): 128 sets by address bits [13:7], four ways in each bank in CACHE mode. -/

/-- The braid holds the line for a unit of an arm, or of none: another arm's buffered line is not for it (R52). -/
def Braid.hasLine (t : Braid) (arm : Option Nat) (l : Nat) : Bool := t.cache.any fun c => c.line == l && (c.arm.isNone || c.arm == arm)

/-- Where a line may be allocated: a free way of a bank in CACHE mode that is not being switched, else the place of the oldest line of the set that is not
buffered; none where all are (R52, R69; the replacement is log 52's, DESIGN CHOICE). -/
def Braid.wayFor (t : Braid) (l : Nat) : Option (Nat × Option CLine) :=
  let set := fun (c : CLine) => c.line / 128 % 128 == l / 128 % 128
  let open_ := (List.range 24).filter fun n => t.bankModeOf n == 0 && !t.switching n
  match open_.find? fun n => (t.cache.filter fun c => set c && c.bank == n).length < 4 with
  | some n => some (n, none)
  | none => (t.cache.find? fun c => set c && c.arm.isNone && open_.contains c.bank).map fun c => (c.bank, some c)

/-- A line written back to its home, where it is dirty. -/
def State.writeBack (s : State) (c : CLine) : State := if c.dirty then s.homeTouch c.line true c.who else s

/-- A line allocated in the braid cache; one that has to make room is written back. -/
def State.allocLine (s : State) (b : Nat) (c : CLine) : State :=
  match (s.braid b).wayFor c.line with
  | none => s
  | some (n, none) => s.modBraid b fun t => { t with cache := t.cache ++ [{ c with bank := n }] }
  | some (n, some v) => (s.writeBack v).modBraid b fun t => { t with cache := t.cache.erase v ++ [{ c with bank := n }] }

/-- A store of an agent in a class marks the line dirty. -/
def CLine.stored (c : CLine) (a : BitVec 24) (cls : Nat) : CLine :=
  { c with dirty := true, who := if c.who.contains (a, cls) then c.who else c.who ++ [(a, cls)] }

/-- Lines leave the braid cache, dirty ones written back (R69, R95). Buffered lines stay. -/
def State.flushLines (s : State) (b : Nat) (gone : CLine → Bool) : State :=
  let out := (s.braid b).cache.filter fun c => c.arm.isNone && gone c
  if out.isEmpty then s
  else (out.foldl State.writeBack s).modBraid b fun t => { t with cache := t.cache.filter fun c => !(c.arm.isNone && gone c) }

/-- Step 2 of a transfer: every line of the range leaves the braid's caches (R66, R95). -/
def State.flushRange (s : State) (b base size : Nat) : State :=
  let inside := fun l => decide (base ≤ l ∧ l < base + size)
  (s.flushLines b fun c => inside c.line).l1DropAll b inside

/-- Dirty lines are written back and stay (R109). -/
def State.cleanLines (s : State) (b : Nat) (which : CLine → Bool) : State :=
  let which := fun (c : CLine) => c.arm.isNone && c.dirty && which c
  let out := (s.braid b).cache.filter which
  if out.isEmpty then s
  else (out.foldl State.writeBack s).modBraid b fun t => { t with cache := t.cache.map fun c => if which c then { c with dirty := false, who := [] } else c }

/-- A range leaves every cache with nothing written back (R289, R386). -/
def State.forgetRange (s : State) (base size : Nat) : State :=
  let inside := fun l => decide (base ≤ l ∧ l < base + size)
  { s with
    strands := s.strands.map fun e => (e.1, e.2.l1Drop inside)
    braids := s.braids.map fun e => (e.1, { e.2 with cache := e.2.cache.filter fun c => !inside c.line })
    slices := s.slices.map fun e => (e.1, e.2.filter fun c => !inside c.line)
    poison := s.poison.filter fun l => !inside l }

/-! Accesses of a strand. -/

/-- Some line of the access must come from its home, or go there: no cache of the strand serves it (R66, R67, R113). -/
def State.needsHome (s : State) (b k : Nat) (arm : Option Nat) (load : Bool) (pa n : Nat) : Bool :=
  (cacheLines pa n).any fun l => s.homeOnly l || !((load && (s.strand b k).l1.contains l) || (s.braid b).hasLine arm l)

/-- The fare of an access that a cache may serve: its entry is looked up (R134), and only what needs its home can be held on the route. -/
def State.fareFor (s : State) (b world pa kind : Nat) (needs : Bool) : Fare :=
  match fare s b world pa kind with
  | .held i f => if needs then .held i f else .sent
  | .lost i => if needs then .lost i else .sent
  | r => r

/-- What an access of a strand to one line does to the caches. A load allocates in the braid cache and, for device memory, in the L1; a store or an atomic
on an exclusive range allocates in the braid cache and leaves the line dirty there, or buffered for its arm, and takes it out of the other L1s and, for an
atomic, out of the strand's own (R66, R108). What only the home serves enters the slice alone. -/
def State.touchLine (s : State) (b k : Nat) (arm : Option Nat) (kind cls : Nat) (l : Nat) : State :=
  let a := agentId s.device b k
  if s.homeOnly l then
    (if kind = 2 then s.modStrand b k (·.l1Drop (· == l)) else s).homeTouch l (kind != 0) (if kind = 0 then [] else [(a, cls)])
  else
    let has := (s.braid b).hasLine arm l
    if kind = 0 then
      let s := if has || (s.strand b k).l1.contains l then s else (s.homeTouch l false []).allocLine b { line := l }
      if isHostMem l then s else s.modStrand b k (·.l1Add l)
    else
      let mine := fun (c : CLine) => c.line == l && c.arm == arm
      let s := if (s.braid b).cache.any mine then s else (if has then s else s.homeTouch l false []).allocLine b { line := l, arm := arm }
      let s := s.modBraid b fun t => { t with cache := t.cache.map fun c => if mine c then c.stored a cls else c }
      (List.range 4).foldl (fun s j => if (j != k || kind == 2) && (s.strand b j).l1.contains l then s.modStrand b j (·.l1Drop (· == l)) else s) s

/-- What an access of a strand does to the caches: kind 0 load, 1 store, 2 atomic. -/
def State.touch (s : State) (b k : Nat) (arm : Option Nat) (kind cls pa n : Nat) : State :=
  (cacheLines pa n).foldl (fun s l => s.touchLine b k arm kind cls l) s

/-- A store of a buffered unit finds no way for its line: the buffered-capacity stall (R52). -/
def Braid.bufferFull (t : Braid) (arm : Option Nat) (pa n : Nat) : Bool :=
  arm.isSome && (cacheLines pa n).any fun l => !(t.cache.any fun c => c.line == l && c.arm == arm) && (t.wayFor l).isNone

/-! Accesses of an engine: a line the braid holds is read and written there, any other at its home (log 52, DESIGN CHOICE). -/

def State.engNeedsHome (s : State) (b pa n : Nat) : Bool := (cacheLines pa n).any fun l => s.homeOnly l || !(s.braid b).hasLine none l

def State.engTouch (s : State) (b k : Nat) (store : Bool) (cls pa n : Nat) : State :=
  let a := agentId s.device b k
  let s := (cacheLines pa n).foldl (fun (s : State) l =>
    if !s.homeOnly l && (s.braid b).hasLine none l then
      if store then s.modBraid b fun t => { t with cache := t.cache.map fun c => if c.line == l && c.arm.isNone then c.stored a cls else c } else s
    else s.homeTouch l store (if store then [(a, cls)] else [])) s
  if store then s.l1DropAll b fun l => (cacheLines pa n).contains l else s

/-! Fences (R107, R109, R118). -/

/-- The line carries stores of the agent, in one of the classes, that have not been written at the home. -/
def CLine.dirtyFor (c : CLine) (a : BitVec 24) (classes : Nat → Bool) : Bool :=
  c.dirty && c.arm.isNone && c.who.any fun w => w.1 == a && classes w.2

/-- Dirty lines of the strand whose write-back a route does not let through now. -/
def State.dirtyStuck (s : State) (b k w : Nat) (classes : Nat → Bool) : Bool :=
  (s.braid b).cache.any fun c => c.dirtyFor (agentId s.device b k) classes && fare s b w c.line 1 != .sent

/-! Poisoned data (R420). -/

/-- A line stands in its home slice or in a cache of some braid. -/
def State.cached (s : State) (l : Nat) : Bool :=
  (Store.get s.slices (homeSlice l) []).any (·.line == l) ||
    (List.range 96).any fun b => (s.braid b).cache.any (·.line == l) || (List.range 4).any fun k => (s.strand b k).l1.contains l

/-- A line that no cache holds, behind a channel of HBM whose transfers all fail (R415). -/
def State.deadLine (s : State) (l : Nat) : Bool := isDevMem l && s.deadChannels.contains (hbmChannelNo l) && !s.cached l

/-- Some byte of the range is marked poisoned at its home, or its transfer from HBM fails. -/
def State.poisoned (s : State) (pa n : Nat) : Bool :=
  (!s.poison.isEmpty && (cacheLines pa n).any s.poison.contains) || (!s.deadChannels.isEmpty && (cacheLines pa n).any s.deadLine)

/-- Data written: lines it covers wholly lose their mark; all its lines take one where the data is poisoned. -/
def State.markWrite (s : State) (bad : Bool) (pa n : Nat) : State :=
  if bad then { s with poison := s.poison ++ (cacheLines pa n).filter fun l => !s.poison.contains l }
  else if s.poison.isEmpty then s
  else { s with poison := s.poison.filter fun l => !(pa ≤ l && l + 128 ≤ pa + n) }

/-- Lines of an access that a dead channel would have to transfer: a write of a whole line transfers none. -/
def State.deadLines (s : State) (store : Bool) (pa n : Nat) : List Nat :=
  if s.deadChannels.isEmpty then []
  else (cacheLines pa n).filter fun l => s.deadLine l && !(store && pa ≤ l && l + 128 ≤ pa + n)

/-- A line whose transfer has failed for good is lost: its token is damaged, and its bytes read zero and are marked poisoned (R414, R415). -/
def State.failLine (s : State) (l : Nat) : State :=
  let s := match s.tokenAt l with
    | some t => s.setToken t.base t.log2 { t with dmg := true }
    | none => s
  (s.writeN l (List.replicate 128 0)).markWrite true l 128

/-- The lines an access finds behind a dead channel are lost. -/
def State.failLines (s : State) (store : Bool) (pa n : Nat) : State := (s.deadLines store pa n).foldl State.failLine s

end Sys2Proof.Machine
end

