-- ==== Sys2Proof/Machine/Land.lean ====
section
/-!
DEFINITION. Results in flight and where they land (R169, R185, R327), the strand's clock, requests to memory as they are performed
(R254 to R258), counters of units that run, are frozen or are saved (R91, R268, R352), and the fid core's log (R419).
-/

namespace Sys2Proof.Machine

/-- The register an effect writes, for interlocks (R198). -/
def Eff.dest : Eff → List Res
  | .x c _ => [.x c]
  | .p c _ => [.p c]
  | .tile t r _ _ => [.row t r]
  | .mask i _ _ => [.mask i]
  | .k i _ => [.k i]
  | .zbuf i _ => [.zbuf i]
  | .pat _ _ _ _ => [.pat]
  | .acc a r _ _ => [.bank a r]
  | .mmaIn g _ r _ _ _ _ _ _ _ _ => [.bank (3 * g) r, .bank (3 * g + 1) r, .bank (3 * g + 2) r]
  | .mmaOut g r _ _ _ _ _ _ _ _ => [.bank (3 * g) r, .bank (3 * g + 1) r, .bank (3 * g + 2) r]
  | .latch j _ _ => [.latch j]

/-- Three accumulator rows of an MMA (R327). -/
def Regs.landMma (r : Regs) (g i : Nat) (accum int : Bool) (arow : Row) (fa fb : BitVec 32) (tab : Nat) (zs : Row) (set : Nat) : Regs :=
  [0, 1, 2].foldl (fun r c =>
    let (v, fl) := mmaBank i c accum int arow fa fb tab zs set (r.bankRow (3 * g + c) i)
    r.setBankRow (3 * g + c) i v int fl) r

/-- A register file after one effect. -/
def Regs.land (r : Regs) : Eff → Regs
  | .x c v => { r with x := Store.set r.x c v 0 }
  | .p c v => { r with pr := if c = 0 then r.pr else setBit r.pr c v }
  | .tile t i v m => r.setTileRow t i v m
  | .mask i v m => { r with mask := Store.set r.mask i ((Store.get r.mask i 0 &&& ~~~ m) ||| (v &&& m)) 0 }
  | .k i v => { r with k := Store.set r.k i v 0 }
  | .zbuf i v => { r with zbuf := Store.set r.zbuf i v 0 }
  | .pat b i v m => { r with pat := Store.set r.pat (64 * b + i) ((Store.get r.pat (64 * b + i) 0 &&& ~~~ m) ||| (v &&& m)) 0 }
  | .acc a i v int => r.setBankRow a i v int 0
  | .mmaOut g i accum int arow fa fb tab zs set => r.landMma g i accum int arow fa fb tab zs set
  | .mmaIn _ _ _ _ _ _ _ _ _ _ _ => r
  | .latch _ _ _ => r

/-- A strand after one effect: a latch takes its value unless a group switch has come between (R169). -/
def Strand.landEff (t : Strand) : Eff → Strand
  | .latch k v g =>
    if g = t.c.gen then { t with c := { t.c with latch := Store.set t.c.latch k v 0, latchOk := setBit t.c.latchOk k true } } else t
  | e => { t with r := t.r.land e }

/-- Where MMA reads of a tile row stand among the events of a cycle: after every write (R327). -/
def mmaOrd : Nat := 2 ^ 64

/-- Puts a result in its place by cycle and order. -/
def insertPend (p : Pend) : List Pend → List Pend
  | [] => [p]
  | q :: t => if q.due < p.due ∨ (q.due = p.due ∧ q.ord ≤ p.ord) then q :: insertPend p t else p :: q :: t

/-- Lands every result due at or before cycle c; a row that enters the array leaves its product in flight. -/
def landGo (c : Nat) : Nat → Strand → Strand
  | 0, t => t
  | n + 1, t =>
    match t.pend with
    | [] => t
    | p :: rest =>
      if c < p.due then t
      else
        let t := { t with pend := rest }
        match p.eff with
        | .mmaIn g ta r lat accum int fa fb tab zs set =>
          landGo c n { t with pend := insertPend ⟨p.due + lat, p.ord - mmaOrd, .mmaOut g r accum int (t.r.tileRow ta r) fa fb tab zs set⟩ rest }
        | e => landGo c n (t.landEff e)

/-- Lands what is due at cycle c (each MMA row counts twice). -/
def Strand.landUpTo (t : Strand) (c : Nat) : Strand := landGo c (2 * t.pend.length) t

/-- A fixed-latency result, which a freeze captures; the rows of an MMA complete instead (R350). -/
def Pend.fixed (p : Pend) : Bool :=
  match p.eff with
  | .mmaIn _ _ _ _ _ _ _ _ _ _ _ => false
  | .mmaOut _ _ _ _ _ _ _ _ _ _ => false
  | _ => true

/-- One braid cycle: the clock, the running time, and what is due (R46, R185, R249). -/
def Strand.tick (t : Strand) : Strand :=
  let t := { t with clk := t.clk + 1, runCyc := t.runCyc + 1, landed := t.pend.any fun p => p.fixed && p.due ≤ t.clk + 1 }
  t.landUpTo t.clk

/-- Issues a result with a latency. -/
def Strand.addPend (t : Strand) (lat : Nat) (e : Eff) : Strand :=
  { t with pend := insertPend ⟨t.clk + lat, t.clk, e⟩ t.pend }

def Strand.addPends (t : Strand) (lat : Nat) (es : List Eff) : Strand := es.foldl (fun t e => t.addPend lat e) t

/-- A group switch: latches are lost (R170). -/
def Strand.groupSwitch (t : Strand) : Strand := { t with c := { t.c with latch := [], latchOk := 0, gen := t.c.gen + 1 } }

/-- A scoreboarded result arrives (R75). -/
def Strand.arrive (t : Strand) (n : Nat) (v : Sbd) : Strand :=
  v.effs.foldl Strand.landEff { t with sbd := t.sbd.eraseIdx n }

/-! Requests. -/

/-- AMO.op's new value from the value found, the operand and the comparand; none where nothing is written (R258). -/
def amoNew (op : Nat) (v x cmp : Word) : Option Word :=
  match op with
  | 0x10 => some (v + x)
  | 0x11 => some (if v.toInt ≤ x.toInt then v else x)
  | 0x12 => some (if v.toInt ≤ x.toInt then x else v)
  | 0x13 => some (v &&& x)
  | 0x14 => some (v ||| x)
  | 0x15 => some (v ^^^ x)
  | 0x16 => some x
  | 0x17 => if v = cmp then some x else none
  | _ => some (BitVec.ofNat 64 (f32.add .rne (v.toNat % 2 ^ 32) (x.toNat % 2 ^ 32)))

/-- The value a load writes from the bytes read (R254). -/
def loadVal (op raw : Nat) : Word :=
  match op with
  | 1 => (BitVec.ofNat 8 raw).signExtend 64
  | 3 => (BitVec.ofNat 16 raw).signExtend 64
  | 5 => (BitVec.ofNat 32 raw).signExtend 64
  | _ => BitVec.ofNat 64 raw

/-- The bytes a request names, as a little-endian number. -/
def Req.read (q : Req) (s : State) (b : Nat) : Nat :=
  if q.slab then leNat ((s.braid b).padN q.addr q.size) else leNat (readBuf s b q.arm q.addr q.size)

/-- The bytes a request writes. -/
def Req.write (q : Req) (s : State) (b v : Nat) : State :=
  if q.slab then s.modBraid b fun t => t.padSet q.addr (leBytes q.size v) else writeBuf s b q.arm q.addr (leBytes q.size v)

/-- A load's register writes. -/
def Req.loadEffs (q : Req) (raw : Nat) : List Eff :=
  if q.op = 34 then []
  else if q.op = 0x0C then [.tile q.tile q.row (BitVec.ofNat 2048 raw) rowOnes]
  else if q.op = 32 then [.zbuf q.tile (BitVec.ofNat 2048 raw)]
  else (if q.cell < 64 then [.x q.cell (loadVal q.op raw)] else []) ++ [.latch q.slot (loadVal q.op raw) q.gen]

/-- A request performed: memory after it, and the register writes of its result (R254 to R258). -/
def Req.perform (q : Req) (s : State) (b : Nat) : State × List Eff :=
  match q.kind with
  | 0 => (s, q.loadEffs (q.read s b))
  | 1 => (q.write s b (q.data.toNat % 2 ^ (8 * q.size)), [])
  | _ =>
    let v := q.read s b
    let s' := match amoNew q.op (BitVec.ofNat 64 v) (q.data.setWidth 64) q.cmp with
      | some w => q.write s b (w.toNat % 2 ^ (8 * q.size))
      | none => s
    (s', [.x q.cell (BitVec.ofNat 64 v), .latch q.slot (BitVec.ofNat 64 v) q.gen])

/-- The registers a request's result is scoreboarded against (R75). -/
def Req.dests (q : Req) : List Res :=
  match q.kind with
  | 1 => []
  | _ => if q.op = 34 then [] else if q.op = 0x0C then [.row q.tile q.row] else if q.op = 32 then [.zbuf q.tile] else (if q.cell < 64 then [.x q.cell] else []) ++ [.latch q.slot]

/-! Units where they stand: on their strand, or saved. -/

/-- The strand's own context is the unit's (R351). -/
def Slot.live (t : Slot) : Bool := t.st != .empty && !t.saved

/-- A unit of a world has a record in slot 0 of the strand (R91). -/
def State.hasUnit (s : State) (b k w : Nat) : Bool :=
  ((s.strand b k).slot0.st != .empty && recWorld (s.strand b k).slot0.bind == w) || s.images.any fun i => i.braid == b && i.strand == k && i.world == w && i.slotNo == 0

/-- Changes the context of the world's unit of a strand: in place, or in its saved image (R91, R352). -/
def State.modUnit (s : State) (b k w : Nat) (f : Strand → Strand) : State :=
  if (s.strand b k).slot0.live && recWorld (s.strand b k).slot0.bind == w then s.modStrand b k f
  else { s with images := s.images.map fun i => if i.braid == b && i.strand == k && i.world == w && i.slotNo == 0 then { i with body := f i.body } else i }

/-- An engine's bump with its status (R268). Counter 16 stands for none: the unit that named one has ended. -/
def State.bumpUnit (s : State) (b k w e code detail : Nat) : State :=
  if 16 ≤ e then s else s.modUnit b k w fun t => { t with r := t.r.bump e code detail }

/-- A status without a bump (R281). -/
def State.failUnit (s : State) (b k w e code detail : Nat) : State :=
  if 16 ≤ e then s else s.modUnit b k w fun t =>
    let st := Store.get t.r.estat e 0
    { t with r := { t.r with estat := if st.toNat / 2 ^ 24 = 0 then Store.set t.r.estat e (BitVec.ofNat 32 (code * 2 ^ 24 + detail % 2 ^ 24)) 0 else t.r.estat } }

/-- The bump of step 4 of a transfer (R95): the agent's braid and strand, if it is a strand of this device. -/
def agentDev (a : BitVec 24) : Nat := bits a 16 8
def agentBraid (a : BitVec 24) : Nat := bits a 9 7
def agentNo (a : BitVec 24) : Nat := bits a 5 4
def agentOk (a : BitVec 24) : Bool :=
  bits a 0 5 == 0 && agentNo a ≤ 8 && (agentBraid a < 96 || agentBraid a == 126 || agentBraid a == 127)

/-! The fid core's log (R419). -/

/-- One entry of the log. -/
def State.log (s : State) (type braid unit status data : Nat) : State :=
  { s with errLog := Store.put s.errLog (s.errSeq % 65536)
             (BitVec.ofNat 256 (s.errSeq % 2 ^ 64 * 2 ^ 192 + type % 256 * 2 ^ 184 + braid % 256 * 2 ^ 176 + unit % 256 * 2 ^ 168 +
               status % 2 ^ 32 * 2 ^ 128 + data % 2 ^ 128))
           errSeq := s.errSeq + 1 }

/-! Requests performed in the machine (R66, R107, R117, R420). -/

/-- A strand has met an uncorrectable error (R117): logged, and pending for it. -/
def State.metError (s : State) (b k pa : Nat) : State :=
  let n := s.errSeq % 65536
  (s.log 8 0xFF 0 (agentId s.device b k).toNat pa).modStrand b k fun t => { t with pendErr := t.pendErr ++ [n] }

/-- What a request does to the caches and to marks of poison, at its place (R66, R67, R420). A slab is no cache. -/
def Req.settle (q : Req) (s : State) (b k : Nat) (lost : Bool) : State :=
  if q.slab then s
  else
    let bad := lost || (q.kind != 1 && s.poisoned q.addr q.size)
    let s := (s.touch b k q.arm q.kind q.cls q.addr q.size).markWrite false q.addr (if q.kind = 1 then q.size else 0)
    if bad then s.metError b k q.addr else s

/-- The request finds a line behind a dead channel (R415). -/
def Req.lost (q : Req) (s : State) : Bool := !q.slab && !(s.deadLines (q.kind == 1) q.addr q.size).isEmpty

/-- A request performed by a strand: the machine after it, and the register writes of its result. Lines that a dead channel fails to transfer are lost
first, and the strand learns of it (R414, R415). -/
def Req.performBy (q : Req) (s : State) (b k : Nat) : State × List Eff :=
  let (s', es) := q.perform (if q.lost s then s.failLines (q.kind == 1) q.addr q.size else s) b
  (q.settle s' b k (q.lost s), es)

/-- Two requests name a byte in common. -/
def Req.overlaps (q r : Req) : Bool := q.slab == r.slab && q.addr < r.addr + r.size && r.addr < q.addr + q.size

/-- The entry on which an earlier request waits that this one may not pass: one of its class, or of a byte in common (R107, R108). -/
def Strand.behind (t : Strand) (q : Req) : Option Nat :=
  t.sbd.findSome? fun v => match v.req with
    | some (i, r) => if r.seq < q.seq && (r.cls == q.cls || r.overlaps q) then some i else none
    | none => none

/-- A request of a strand is held (R135), its issue numbered. -/
def State.holdReq (s : State) (b k : Nat) (v : Sbd) : State :=
  { s.modStrand b k fun t => { t with sbd := t.sbd ++ [{ v with req := v.req.map fun r => (r.1, { r.2 with seq := s.serial }) }] } with serial := s.serial + 1 }

/-! The topology map (R130 to R132, R392): written by the fid core into the last pages of device memory, which every context maps
sealed at MAP_VA. -/

/-- KIND and PART of a node's entry (R131). -/
def Node.mapKind : Node → Nat
  | .router _ => 0
  | .slice _ => 1
  | .host => 2
  | .lanyard _ => 3
  | .thimble => 4
  | .fid => 5
  | .halyard _ => 6
  | .hub => 7
  | .peer _ => 3

def Node.mapPart : Node → Nat
  | .router b => partOf b
  | .halyard p => p
  | _ => 15

/-- Every node by ascending id, the hub last. -/
def mapNodes : List Node :=
  (List.range 96).map Node.router ++ (List.range 8).map Node.slice ++ [.host] ++ (List.range 16).map Node.lanyard ++ [.thimble, .fid] ++
    (List.range 12).map Node.halyard ++ [.hub]

/-- Node id in an entry; the far port of a lanyard link is the peer's. -/
def State.mapNode (s : State) : Node → Nat
  | .peer n => (Config.peerPort n).toNat
  | n => s.device * 256 + n.num

def State.mapHeader (s : State) : List Byte :=
  leBytes 64 (319 * 2 ^ 80 + 136 * 2 ^ 64 + s.device * 2 ^ 48 + s.mapSeq.toNat)

def State.mapNodeEntry (s : State) (n : Node) : List Byte :=
  let st := match n with | .router b => (s.braid b).status | _ => 0
  leBytes 16 (s.mapNode n * 2 ^ 48 + n.mapKind * 2 ^ 44 + st * 2 ^ 42 + n.mapPart * 2 ^ 38)

def State.mapLinkEntry (s : State) (l : Nat) : List Byte :=
  let r := s.link l
  let (a, ap, b, bp) := linkEnds l
  leBytes 32 (r.rankBA * 2 ^ 88 + r.rankAB * 2 ^ 80 + r.lanesBA * 2 ^ 76 + r.lanesAB * 2 ^ 72 + (if r.down then 2 ^ 64 else 0) +
    s.mapNode b * 2 ^ 48 + bp * 2 ^ 42 + s.mapNode a * 2 ^ 16 + ap * 2 ^ 10)

/-- The splice allocation map (R392). -/
def State.blockMap (s : State) : List Byte :=
  (List.range 96).flatMap fun b => (List.range 96).flatMap fun i => leBytes 4 (Store.get (s.braid b).blocks i 0).toNat

/-- The map written into its four pages (R130, R392). -/
def State.writeMap (s : State) : State :=
  (((s.writeBlock mapBase s.mapHeader).writeBlock (mapBase + 0x10000) (mapNodes.flatMap s.mapNodeEntry)).writeBlock (mapBase + 0x20000)
    ((List.range 319).flatMap s.mapLinkEntry)).writeBlock (mapBase + 0x30000) s.blockMap

/-- A map change: SEQ rises by 2 and the map is written anew (R132). -/
def State.mapChange (s : State) : State := { s with mapSeq := s.mapSeq + 2 }.writeMap

end Sys2Proof.Machine
end

