-- ==== Sys2Proof/Machine/Engine.lean ====
section
/-!
DEFINITION. The engines (R266 to R275, R289): the checks of an engine's access, one portion of a command (up to a 4 KiB boundary of the
bytes it writes, an element, a sector or a granule), whole commands, slab states, and how a command ends.
-/

namespace Sys2Proof.Machine

/-- Where a byte lies for an engine: in memory, or in a PAD bank of the braid. -/
inductive Loc where
  | mem (pa : Nat)
  | pad (i : Nat)
  deriving DecidableEq, Repr

/-- A failure of an access: the event status and its DETAIL, or a suspended entry that holds the request (R269, R135). -/
inductive EngFail where
  | status (code detail : Nat)
  | hold (entry : Nat) (fault : Option (Nat × Nat))
  /-- The response is lost on its return route: the request is outstanding on the entry (R135). -/
  | lost (entry : Nat)
  deriving DecidableEq, Repr

/-- The arm whose buffered lines a command of the unit sees (R52). -/
def State.armOf (s : State) (b k : Nat) : Option Nat :=
  let r := (s.strand b k).slot0.bind
  if recBuf r then some (recLaunch r) else none

/-- The slab checks of an engine's access (R70, R72, R73, R269). A slab of another world is found before a damaged one or a range past its end, in the order
of R83 (log 58, DEDUCED). -/
def engSlab (t : Braid) (world addr n : Nat) : Except EngFail Loc :=
  let e := t.slabOf (winSlab addr)
  if slabSize e = 0 then .error (.status 6 0)
  else if slabWorld e ≠ world then .error (.status 5 0)
  else if slabState e = 4 ∨ slabSize e * 256 < winOff addr + n then .error (.status 6 0)
  else .ok (.pad (slabByte e (winOff addr)))

/-- The checks of an access to at most 4 KiB that does not cross a 4 KiB boundary (R83, R94, R134, R269). -/
def engPiece (s : State) (b : Nat) (c : Cmd) (acc : Acc) (addr n idx : Nat) : Except EngFail Loc :=
  if isWindow addr then engSlab (s.braid b) c.world addr n
  else if addr / 2 ^ 48 ≠ 0 then .error (.status 1 2)
  else match translate s b c.world addr with
    | .error f => .error (.status 1 f)
    | .ok e =>
      match (if acc = .load then none else writeFault e) with
      | some f => .error (.status 1 f)
      | none =>
        if acc ≠ .load && boundaryFault s c.world e then .error (.status 7 0)
        else
          let tok := if acc = .load && e.isSealed then none
            else tokenCheck s (fun base l kind => c.held.contains (base, l, kind)) (e.pa addr) acc
          match tok with
          | some 0x07 => .error (.status 2 idx)
          | some 0x08 => .error (.status 3 idx)
          | some _ => .error (.status 4 idx)
          | none =>
            match s.fareFor b c.world (e.pa addr) (if acc = .load then 0 else 1) (s.engNeedsHome b (e.pa addr) n) with
            | .noEntry => .error (.status 8 (9 * 128))
            | .offRoster => .error (.status 11 0)
            | .held i f => .error (.hold i f)
            | .lost i => .error (.lost i)
            | .sent => .ok (.mem (e.pa addr))

/-- The pieces of a range, cut at 4 KiB boundaries. -/
def pieces : Nat → Nat → Nat → List (Nat × Nat)
  | 0, _, _ => []
  | f + 1, a, n => if n = 0 then [] else
    let m := min n (4096 - a % 4096)
    (a, m) :: pieces f (a + m) (n - m)

/-- Every piece of a range checked. -/
def engRange (s : State) (b : Nat) (c : Cmd) (acc : Acc) (addr n idx : Nat) : Except EngFail (List (Loc × Nat)) :=
  (pieces (n / 4096 + 2) addr n).mapM fun p => (engPiece s b c acc (p.1 % 2 ^ 64) p.2 idx).map fun l => (l, p.2)

/-- Bytes read through checked pieces. -/
def readLocs (s : State) (b : Nat) (arm : Option Nat) (ls : List (Loc × Nat)) : List Byte :=
  ls.flatMap fun (l, n) => match l with
    | .mem pa => readBuf s b arm pa n
    | .pad i => (s.braid b).padN i n

/-- Bytes written through checked pieces. -/
def writeLocs (s : State) (b : Nat) (arm : Option Nat) : List (Loc × Nat) → List Byte → State
  | [], _ => s
  | (.mem pa, n) :: t, vs => writeLocs (writeBuf s b arm pa (vs.take n)) b arm t (vs.drop n)
  | (.pad i, n) :: t, vs => writeLocs (s.modBraid b fun br => br.padSet i (vs.take n)) b arm t (vs.drop n)

/-- The lines of checked pieces pass through the caches (R66, R67, R76). -/
def touchLocs (s : State) (b k : Nat) (store : Bool) (cls : Nat) (ls : List (Loc × Nat)) : State :=
  ls.foldl (fun s l => match l with
    | (.mem pa, n) => s.engTouch b k store cls pa n
    | (.pad _, _) => s) s

/-- Some byte of the pieces is marked poisoned (R420). -/
def locsPoisoned (s : State) (ls : List (Loc × Nat)) : Bool :=
  ls.any fun l => match l with
    | (.mem pa, n) => s.poisoned pa n
    | (.pad _, _) => false

/-- Slabs of a braid with a byte in a range of PAD bytes. -/
def Braid.slabsOver (t : Braid) (i n : Nat) : List Nat :=
  (List.range 64).filter fun id =>
    let e := t.slabOf id
    slabSize e != 0 && slabByte e 0 < i + n && i < slabByte e 0 + 256 * slabSize e

/-- Poisoned data turns the slab it enters damaged, and marks the lines of memory it enters; other data clears the lines it covers (R420). -/
def markLocs (s : State) (b : Nat) (bad : Bool) (ls : List (Loc × Nat)) : State :=
  ls.foldl (fun (s : State) l => match l with
    | (.mem pa, n) => s.markWrite bad pa n
    | (.pad i, n) => if bad then s.modBraid b fun t => (t.slabsOver i n).foldl (fun t id => { t with slab := Store.set t.slab id (slabWith (t.slabOf id) 4) 0 }) t
        else s) s

/-- The first poisoned address of the pieces. -/
def firstPoison (s : State) (ls : List (Loc × Nat)) : Nat :=
  (ls.findSome? fun l => match l with | (.mem pa, n) => if s.poisoned pa n then some pa else none | (.pad _, _) => none).getD 0

/-- Bytes written through checked pieces by a command, with what that does to the caches; `bad`: they come from poisoned data. -/
def storeLocs (s : State) (b : Nat) (c : Cmd) (bad : Bool) (ws : List (Loc × Nat)) (v : List Byte) : State :=
  markLocs (touchLocs (writeLocs s b (s.armOf b c.strand) ws v) b c.strand true c.cls ws) b bad ws

/-- Lines of the pieces that a dead channel fails to transfer are lost (R415). -/
def failLocs (s : State) (ls : List (Loc × Nat)) : State :=
  if s.deadChannels.isEmpty then s
  else ls.foldl (fun (s : State) l => match l with
    | (.mem pa, n) => s.failLines false pa n
    | (.pad _, _) => s) s

/-- Bytes read through checked pieces by a command: the machine after it, the bytes, and whether they are poisoned. -/
def loadLocs (s : State) (b : Nat) (c : Cmd) (rs : List (Loc × Nat)) : State × List Byte × Bool :=
  let s := failLocs s rs
  let v := readLocs s b (s.armOf b c.strand) rs
  let bad := locsPoisoned s rs
  let s' := touchLocs s b c.strand false c.cls rs
  (if bad then s'.metError b c.strand (firstPoison s rs) else s', v, bad)

/-- One bit of CRC-32C, polynomial 0x1EDC6F41 reflected (R273). -/
def crcBit (c : Nat) : Nat := if c % 2 = 1 then c / 2 ^^^ 0x82F63B78 else c / 2

/-- CRC-32C of a block (R273). -/
def crc32c (vs : List Byte) : Nat :=
  (vs.foldl (fun c v => (List.range 8).foldl (fun c _ => crcBit c) (c ^^^ v.toNat)) 0xFFFFFFFF) ^^^ 0xFFFFFFFF

/-- The command runs in checked mode (R273). -/
def Cmd.checked (c : Cmd) : Bool := (c.op == 1 || c.op == 3) && c.flags / 2 % 2 == 1

/-- A block as it reaches the protection of its destination: data marked poisoned on the way is no longer what was read (log 54). -/
def carried (bad : Bool) (vs : List Byte) : List Byte := if bad then vs.map (~~~ ·) else vs

/-- One move of bytes, checked first, every source byte read before any byte is written (R272). In checked mode a block whose CRC differs as it enters the
protection of its destination is not written (R273); `blk` is its index. -/
def moveBytes (s : State) (b : Nat) (c : Cmd) (src dst n idx : Nat) (blk : Nat := 0) : Except EngFail State :=
  match engRange s b c .load src n idx with
  | .error e => .error e
  | .ok rs =>
    match engRange s b c .store dst n idx with
    | .error e => .error e
    | .ok ws =>
      let (s', v, bad) := loadLocs s b c rs
      if c.checked && crc32c v != crc32c (carried bad v) then .error (.status 13 blk)
      else .ok (storeLocs s' b c bad ws v)

/-- Staging word i of a command. -/
def Cmd.word (c : Cmd) (i : Nat) : Word := c.blk.getD i 0

/-- The window address of a slab byte (R74). -/
def winAddr (id off : Nat) : Nat := 0xFE * 2 ^ 56 + id * 2 ^ 50 + off

/-- A signed 32-bit stride added to an address. -/
def strideAdd (a n : Nat) (st : Nat) : Nat := ((a : Int) + n * (BitVec.ofNat 32 st).toInt).emod (2 ^ 64) |>.toNat

/-- The move a copy command is making: source, destination and length of its row, and the bytes of the row done (R271, R272). -/
def Cmd.row (c : Cmd) : Nat × Nat × Nat × Nat :=
  match c.op with
  | 2 =>
    let rb := bits (c.word 2) 0 32
    let r := c.done / rb
    (strideAdd (c.word 0).toNat r (bits (c.word 3) 0 32), strideAdd (c.word 1).toNat r (bits (c.word 3) 32 32), rb, c.done % rb)
  | 3 => ((c.word 0).toNat, winAddr (bits (c.word 1) 0 6) (bits (c.word 1) 8 16), bits (c.word 1) 32 32, c.done)
  | 4 => (winAddr (bits (c.word 1) 0 6) (bits (c.word 1) 8 16), (c.word 0).toNat, bits (c.word 1) 32 32, c.done)
  | _ => ((c.word 0).toNat, (c.word 1).toNat, bits (c.word 2) 0 32, c.done)

/-- Bytes, elements, sectors or granules of a command (R57). -/
def Cmd.total (c : Cmd) : Nat :=
  match c.op with
  | 1 => bits (c.word 2) 0 32
  | 2 => bits (c.word 2) 32 32 * bits (c.word 2) 0 32
  | 3 => bits (c.word 1) 32 32
  | 4 => bits (c.word 1) 32 32
  | 5 => bits (c.word 3) 0 25
  | 6 => bits (c.word 3) 0 25
  | 7 => bits (c.word 1) 16 13 + 1
  | 35 => if c.flags % 2 = 1 then 1 else (c.word 1).toNat / 4096
  | _ => bits (c.word 1) 32 13

/-- The next portion of a copy: ascending to the next 4 KiB boundary of the destination, or descending where the ranges overlap
and the destination lies above (R272). -/
def Cmd.portion (c : Cmd) : Nat × Nat × Nat × Nat :=
  let (src, dst, len, done) := c.row
  let most := fun (n : Nat) => if c.checked then min n 256 else n
  if src < dst ∧ dst < src + len then
    let e := dst + len - done
    let n := most (min (len - done) (if e % 4096 = 0 then 4096 else e % 4096))
    (src + len - done - n, e - n, n, ((4096 - (dst + len) % 4096) % 4096 + done) / 4096)
  else
    let n := most (min (len - done) (4096 - (dst + done) % 4096))
    (src + done, dst + done, n, (dst % 4096 + done) / 4096)

/-- The index of the 256-byte block of the next portion, counted from the lowest address (R269, R273). -/
def Cmd.block (c : Cmd) : Nat := (c.portion.2.1 - c.row.2.1) / 256

/-- A granule of a torn-down world's listed ranges (R386). -/
def World.listed (w : World) (g : Nat) : Bool := w.listRanges.any fun r => r.1 ≤ g && g + 4096 ≤ r.1 + 2 ^ r.2

/-- Zeroes one 4 KiB granule at device scope and marks it done, where it is listed (R386). -/
def scrubGranule (s : State) (w g : Nat) : State :=
  if (s.world w).listed g then
    let s := (s.writeN g (List.replicate 4096 0)).forgetRange g 4096
    s.modWorld w fun t => { t with doneGranules := if t.doneGranules.contains g then t.doneGranules else t.doneGranules ++ [g] }
  else s

/-- Scrubs a braid the teardown lists: PAD banks with no slab of another world are zeroed, FIFO banks with no entry of another world emptied (R289, R386). -/
def scrubBraid (s : State) (w b : Nat) : State :=
  if !(s.world w).listBraids.contains b then s
  else
    let s := s.modBraid b fun t =>
      let ok := fun n => match Store.get t.bankTag n 999 with | 999 => true | v => v == w
      let pads := (List.range 24).filter fun n => t.bankModeOf n == 1 && ok n
      let fifos := (List.range 24).filter fun n => t.bankModeOf n == 2 && ok n
      { t with pad := t.pad.filter (fun e => !pads.contains (e.1 / 65536))
               fifo := t.fifo.filter (fun e => !fifos.contains e.1)
               bankTag := t.bankTag.filter (fun e => !fifos.contains e.1) }
    s.modWorld w fun t => { t with doneBraids := if t.doneBraids.contains b then t.doneBraids else t.doneBraids ++ [b] }

/-- One granule of a SCRUB: its zeros travel by the route book (R134). -/
def scrubPortion (s : State) (b w world g : Nat) : Except EngFail State :=
  match fare s b w g 1 with
  | .noEntry => .error (.status 8 (9 * 128))
  | .offRoster => .error (.status 11 0)
  | .held i f => .error (.hold i f)
  | .lost i => .error (.lost i)
  | .sent => .ok (scrubGranule s world g)

/-- One portion of a command performed. -/
def portionOf (s : State) (b : Nat) (c : Cmd) : Except EngFail (State × Nat) :=
  match c.op with
  | 5 =>
    let es := 2 ^ bits (c.word 3) 32 4
    let iw := if (c.word 3).getLsbD 36 then 8 else 4
    match engRange s b c .load ((c.word 2).toNat + c.done * iw) iw c.done with
    | .error e => .error e
    | .ok ls =>
      let (s', v, _) := loadLocs s b c ls
      (moveBytes s' b c (((c.word 1).toNat + leNat v * es) % 2 ^ 64) (((c.word 0).toNat + c.done * es) % 2 ^ 64) es c.done).map (·, 1)
  | 6 =>
    let es := 2 ^ bits (c.word 3) 32 4
    let iw := if (c.word 3).getLsbD 36 then 8 else 4
    match engRange s b c .load ((c.word 2).toNat + c.done * iw) iw c.done with
    | .error e => .error e
    | .ok ls =>
      let (s', v, _) := loadLocs s b c ls
      (moveBytes s' b c (((c.word 0).toNat + c.done * es) % 2 ^ 64) (((c.word 1).toNat + leNat v * es) % 2 ^ 64) es c.done).map (·, 1)
  | 7 =>
    let n := c.total
    let sec := bits (c.word 1) 0 13 + c.done
    match engRange s b c .load ((c.word 0).toNat + 512 * c.done) 512 (c.done / 8) with
    | .error e => .error e
    | .ok ls =>
      match engRange s b c .load ((c.word 0).toNat + 512 * n + 16 * c.done) 16 (c.done / 8) with
      | .error e => .error e
      | .ok lt =>
        let (s1, v, bad) := loadLocs s b c ls
        let (s2, g, bad') := loadLocs s1 b c lt
        -- a tag is a byte string, its first byte the most significant (R322); poisoned data leaves the sector with no tag that verifies (R410, R420)
        .ok (s2.modBraid b fun t => { t with bst := Store.put t.bst sec (BitVec.ofNat 4096 (leNat v))
                                             bstTag := if bad || bad' then Store.del t.bstTag sec else Store.put t.bstTag sec (BitVec.ofNat 128 (beNat g)) }, 1)
  | 35 =>
    if c.flags % 2 = 1 then .ok (scrubBraid s (bits (c.word 2) 0 8) (bits (c.word 0) 12 7), 1)
    else (scrubPortion s b c.world (bits (c.word 2) 0 8) (bits (c.word 0) 12 40 * 4096 + 4096 * c.done)).map (·, 1)
  | _ =>
    let (src, dst, n, idx) := c.portion
    (moveBytes s b c src dst n idx c.block).map (·, n)

/-- The slab a command writes, and the one it reads (R271, R274, R279). -/
def Cmd.slabIn (c : Cmd) : Option Nat :=
  let w := fun (a : Word) => if isWindow a.toNat then some (winSlab a.toNat) else none
  match c.op with
  | 1 => w (c.word 1)
  | 2 => w (c.word 1)
  | 3 => some (bits (c.word 1) 0 6)
  | 5 => w (c.word 0)
  | 6 => w (c.word 1)
  | 23 => w (c.word 0)
  | _ => none

def Cmd.slabsOut (c : Cmd) : List Nat :=
  let w := fun (a : Word) => if isWindow a.toNat then [winSlab a.toNat] else []
  match c.op with
  | 1 => w (c.word 0)
  | 2 => w (c.word 0)
  | 3 => w (c.word 0)
  | 4 => [bits (c.word 1) 0 6]
  | 5 => w (c.word 1) ++ w (c.word 2)
  | 6 => w (c.word 0) ++ w (c.word 2)
  | 7 => w (c.word 0)
  | 22 => w (c.word 0)
  | 24 => w (c.word 0)
  | _ => []

/-- The command drains its source slab (R271). -/
def Cmd.drains (c : Cmd) : Bool := (c.op == 1 || c.op == 4) && c.flags % 2 == 1

/-- Puts a slab in another state. -/
def Braid.setSlabState (t : Braid) (id st : Nat) : Braid := { t with slab := Store.set t.slab id (slabWith (t.slabOf id) st) 0 }

/-- A slab's state when the command that fills it ends (R72). -/
def Braid.endFill (t : Braid) (id : Nat) (ok : Bool) : Braid :=
  if slabSize (t.slabOf id) ≠ 0 ∧ slabState (t.slabOf id) = 1 then t.setSlabState id (if ok then 2 else 0) else t

def Braid.endDrain (t : Braid) (id : Nat) (ok : Bool) : Braid :=
  if slabSize (t.slabOf id) ≠ 0 ∧ slabState (t.slabOf id) = 3 then t.setSlabState id (if ok then 0 else 2) else t

/-- The slabs a command has put in a state leave it as it ends (R72). -/
def Braid.endSlabs (t : Braid) (c : Cmd) (ok : Bool) : Braid :=
  let own := fun (t : Braid) (id : Nat) => slabWorld (t.slabOf id) == c.world
  let t := match c.slabIn with | some id => if c.fills && own t id then t.endFill id ok else t | none => t
  if c.drained then c.slabsOut.foldl (fun t id => if own t id then t.endDrain id ok else t) t else t

/-- A command leaves the braid's list with its slabs in their states (R72). -/
def Braid.dropCmd (t : Braid) (c : Cmd) (ok : Bool) : Braid := ({ t with cmds := t.cmds.filter fun d => d.seq != c.seq }).endSlabs c ok

/-! Acceptance (R267, R272, R275). -/

/-- An accepted command's entry replaced. -/
def State.putCmd (s : State) (b : Nat) (c : Cmd) : State :=
  s.modBraid b fun t => { t with cmds := t.cmds.map fun d => if d.seq = c.seq then c else d }

def State.addCmd (s : State) (b : Nat) (c : Cmd) : State := s.modBraid b fun t => { t with cmds := t.cmds ++ [c] }

/-- Tokens, tickets and participations an agent holds, for a command's acceptance (R87, R267). -/
def heldBy (t : Braid) (agent : BitVec 24) (w : Nat) : List (Nat × Nat × Nat) :=
  (t.held.filter fun h => h.agent == agent && h.world == w && h.kind < 3).map fun h => (h.base, h.log2, h.kind)

/-- The engine that serves a command: 0 copy, 1 gather, 2 collective, 3 scrub, 4 stationary port (R267); 9 for what no engine serves. -/
def Cmd.engine (c : Cmd) : Nat :=
  match c.op with
  | 1 => 0 | 2 => 0 | 3 => 0 | 4 => 0
  | 5 => 1 | 6 => 1
  | 7 => 4
  | 22 => 2 | 23 => 2 | 24 => 2
  | 35 => 3
  | _ => 9

/-- Byte ranges of memory a command names; none where an index list or strides decide. -/
def Cmd.ranges (c : Cmd) : Option (List (Nat × Nat)) :=
  match c.op with
  | 1 => some [((c.word 0).toNat, c.total), ((c.word 1).toNat, c.total)]
  | 2 => none
  | 3 => some [((c.word 0).toNat, c.total)]
  | 4 => some [((c.word 0).toNat, c.total)]
  | 5 => none
  | 6 => none
  | 7 => some [((c.word 0).toNat, 528 * c.total)]
  | 22 => some [((c.word 0).toNat, c.total)]
  | 23 => some [((c.word 0).toNat, c.total)]
  | 24 => some [((c.word 0).toNat, c.total)]
  | _ => some []

/-- Pieces of a range cut at pages of 64 KiB. -/
def pagePieces : Nat → Nat → Nat → List (Nat × Nat)
  | 0, _, _ => []
  | f + 1, a, n => if n = 0 then [] else
    let m := min n (65536 - a % 65536)
    (a, m) :: pagePieces f (a + m) (n - m)

/-- A command may touch a physical range. -/
def cmdTouches (s : State) (b : Nat) (c : Cmd) (base size : Nat) : Bool :=
  match c.ranges with
  | none => true
  | some rs => rs.any fun r => !isWindow r.1 && (pagePieces (r.2 / 65536 + 2) r.1 r.2).any fun p =>
      match translate s b c.world p.1 with
      | .ok e => e.pa p.1 < base + size && base < e.pa p.1 + p.2
      | .error _ => false

/-- Bytes of the range a token operation in progress is changing (R98). -/
def Xfer.span (t : Xfer) : Nat := if t.op = 14 then 2 ^ (t.log2 + 1) else 2 ^ t.log2

/-- The operation changes its token: a query does not. -/
def Xfer.moves (t : Xfer) : Bool := t.op != 21

/-- An earlier token operation of the command's unit over bytes it names has not ended (R99). -/
def State.afterXfer (s : State) (b : Nat) (c : Cmd) : Bool :=
  s.xfers.any fun t => t.moves && t.braid == b && t.strand == c.strand && t.world == c.world && t.id < c.seq && cmdTouches s b c t.base t.span

/-- The engine accepts a command now (R99, R267, R272): one of its strand's 16 places is free, no earlier one of its strand, engine and class waits, and the slabs it
reads are ready, and its unit's earlier transfers of what it names have ended. What fails later, a slab undefined, damaged or of another world, does not wait. -/
def canAccept (s : State) (b : Nat) (c : Cmd) : Bool :=
  let t := s.braid b
  c.engine != 9 && !c.acc && !s.afterXfer b c &&
    !(t.cmds.any fun d => d.seq < c.seq && d.strand == c.strand && d.engine == c.engine && d.cls == c.cls && !d.acc) &&
    (t.cmds.filter fun d => d.strand == c.strand && d.engine == c.engine && d.acc).length < 16 &&
    (c.drained || c.slabsOut.all fun id => let e := t.slabOf id; slabSize e == 0 || slabWorld e != c.world || slabState e == 2 || slabState e == 4)

/-- A command is accepted: under its strand's tokens as they stand (R87), the slab it writes in state filling and the slab it drains in state draining (R72).
One that writes a slab being filled or drained ends with SLAB, a BSLD on a gated B-store with PARAM (R272, R275). -/
def acceptOne (s : State) (b : Nat) (c : Cmd) : State :=
  let t := s.braid b
  let fail (code d : Nat) : State := (s.modBraid b fun t => t.dropCmd c false).bumpUnit b c.strand c.world c.evt code d
  let into := match c.slabIn with | some id => if slabSize (t.slabOf id) ≠ 0 ∧ slabWorld (t.slabOf id) = c.world then some id else none | none => none
  let st := match into with | some id => slabState (t.slabOf id) | none => 4
  let fills := c.fills || st == 0 || st == 2
  if !c.fills && (st == 1 || st == 3) then fail 6 1
  else if c.op = 7 ∧ !t.bstOn then fail 5 1
  else
    let outs := if c.drains && !c.drained then
        c.slabsOut.filter fun id => let e := t.slabOf id; slabSize e != 0 && slabWorld e == c.world && slabState e == 2 else []
    let c := { c with acc := true, fills := fills, drained := c.drained || !outs.isEmpty, held := heldBy t (agentId s.device b c.strand) c.world }
    (s.putCmd b c).modBraid b fun t =>
      let t := match into with | some id => if fills && slabState (t.slabOf id) != 1 then t.setSlabState id 1 else t | none => t
      outs.foldl (fun t id => t.setSlabState id 3) t

/-- Every command that can be accepted now is, in the order of issue. -/
def acceptPass (s : State) (b : Nat) : State :=
  (s.braid b).cmds.foldl (fun (s : State) c =>
    match (s.braid b).cmds.find? (·.seq == c.seq) with
    | some c => if canAccept s b c then acceptOne s b c else s
    | none => s) s

/-- A command enters its engine's places (R267). -/
def acceptCmd (s : State) (b : Nat) (c : Cmd) : State := acceptPass (s.addCmd b c) b

/-- A command ends: its slabs, and one bump of its counter with the status (R268, R269); what waited for its slabs is accepted. -/
def endCmd (s : State) (b : Nat) (c : Cmd) (code detail : Nat) : State :=
  acceptPass ((s.modBraid b fun t => t.dropCmd c (code == 0)).bumpUnit b c.strand c.world c.evt code detail) b

/-- Zeroes the rest of a slab after a CPYS with ZFILL (R271), the slab checked as for any access. -/
def zeroFill (s : State) (b : Nat) (c : Cmd) : Except EngFail State :=
  if c.op = 3 ∧ c.flags / 4 % 2 = 1 then
    let id := bits (c.word 1) 0 6
    let off := bits (c.word 1) 8 16 + bits (c.word 1) 32 32
    match engSlab (s.braid b) c.world (winAddr id off) 0 with
    | .error e => .error e
    | .ok _ =>
      let e := (s.braid b).slabOf id
      .ok (s.modBraid b fun t => t.padSet (slabByte e off) (List.replicate (slabSize e * 256 - off) 0))
  else .ok s

/-- SCRUB's refusals, checked before anything is zeroed (R289). -/
def scrubRefused (s : State) (b w : Nat) : Option Nat :=
  let p := partOf b
  let bound := (braidsOf p).any fun x => (List.range 4).any fun k => (s.strand x k).slot.any fun e => e.2.st != .empty && recWorld e.2.bind == w
  if bound || s.images.any (fun i => i.part == p && i.world == w) then some 1
  else
    let pa := (s.world w).partAssign
    if !(pa.getLsbD 7 && pa.toNat % 16 == p) then some 2
    else if (s.world w).phase ≠ 2 then some 2
    else none

/-- DETAIL of a SCRUB that ends: the granules zeroed (R386). -/
def scrubCount (s : State) (c : Cmd) : Nat :=
  if c.flags % 2 = 1 then 0
  else ((List.range c.total).filter fun i => (s.world (bits (c.word 2) 0 8)).listed (bits (c.word 0) 12 40 * 4096 + 4096 * i)).length

/-- The next portion ends at a 4 KiB boundary of the bytes the command writes (R270, R272). -/
def Cmd.atBoundary (c : Cmd) : Bool :=
  let es := 2 ^ bits (c.word 3) 32 4
  match c.op with
  | 5 => ((c.word 0).toNat + c.done * es) / 4096 != ((c.word 0).toNat + (c.done + 1) * es) / 4096
  | 6 => c.done * es / 4096 != (c.done + 1) * es / 4096
  | 7 => (bits (c.word 1) 0 13 + c.done + 1) % 8 == 0
  | 35 => true
  | _ =>
    let (src, dst, len, _) := c.row
    let (_, at_, n, _) := c.portion
    if src < dst ∧ dst < src + len then at_ % 4096 == 0 else (at_ + n) % 4096 == 0

/-- Bytes a command writes for each count of its progress. -/
def Cmd.unitBytes (c : Cmd) : Nat :=
  match c.op with
  | 5 => 2 ^ bits (c.word 3) 32 4
  | 6 => 2 ^ bits (c.word 3) 32 4
  | 7 => 512
  | 35 => 4096
  | _ => 1

/-- Performs portions of a command, at most n; `stop` ends it at the next 4 KiB boundary of the bytes it writes unless less than that is left (R270). The
command with its progress is answered where it has not ended. -/
def runCmd (stop : Bool) : Nat → State → Nat → Cmd → State × Option Cmd
  | 0, s, _, c => (s, some c)
  | n + 1, s, b, c =>
    if c.total ≤ c.done then
      match zeroFill s b c with
      | .ok s' => (endCmd s' b c 0 (if c.op = 35 then scrubCount s c else 0), none)
      | .error (.status code d) => (endCmd s b c code d, none)
      | .error _ => (s, some c)
    else match portionOf s b c with
      | .error (.status code d) => (endCmd s b c code d, none)
      | .error (.hold i f) => (Fare.apply (.held i f) s b, some { c with entry := some i })
      | .error (.lost i) => (s, some { c with entry := some i, sent := true })
      | .ok (s', m) =>
        let c' := { c with done := c.done + m }
        if stop && 4096 ≤ (c'.total - c'.done) * c.unitBytes && c.atBoundary then (s', some c')
        else runCmd stop n s' b c'

/-- Enough portions for any command. -/
def Cmd.fuel (c : Cmd) : Nat := c.total + 2

/-- The path of a command (R110): 1 copy, 2 gather, 3 stationary, 4 collective; 9 for none. -/
def Cmd.path (c : Cmd) : Nat := match c.engine with | 0 => 1 | 1 => 2 | 4 => 3 | 2 => 4 | _ => 9

end Sys2Proof.Machine
end

