-- ==== Sys2Proof/Machine/Ops.lean ====
section
/-!
DEFINITION. The shared operations: taking a trap and the return from one (R161, R184, R231, R232, R343 to R346), what a freeze captures
(R350), resuming (R196, R350, R354), usage counters (R377, R378), and bytes read through a world's context.
-/

namespace Sys2Proof.Machine

/-! Bytes read through a world's context by the hardware (R37, R87, R208). -/

/-- Bytes at a virtual address, or the fault code. -/
def readVA (s : State) (b w va n : Nat) : Except Nat (List Byte) :=
  if va / 2 ^ 48 ≠ 0 then .error 2
  else
    (pieces (n / 4096 + 2) va n).foldl (fun acc p => match acc with
      | .error e => .error e
      | .ok bs => match translate s b w p.1 with
        | .error e => .error e
        | .ok e => .ok (bs ++ s.readN (e.pa p.1) p.2)) (.ok [])

/-- Some byte of a range of virtual addresses is marked poisoned, or does not translate (R420). -/
def vaPoisoned (s : State) (b w va n : Nat) : Bool :=
  !(s.poison.isEmpty && s.deadChannels.isEmpty) && (pagePieces (n / 65536 + 2) va n).any fun p => match translate s b w p.1 with | .ok e => s.poisoned (e.pa p.1) p.2 | .error _ => true

/-- A little-endian number at a virtual address. -/
def readVALE (s : State) (b w va n : Nat) : Except Nat Nat := (readVA s b w va n).map leNat

/-- The native region that holds a code address (R192). -/
def regionOf (pc : Nat) : Nat := pc / 65536 * 65536

/-- BUNDLES and SIG of a native region's header (R192), where it can be read. -/
def regionHeader (s : State) (b w base : Nat) : Option (Nat × Word) :=
  match readVALE s b w base 64 with
  | .ok h => some (h / 2 ^ 128 % 65536, BitVec.ofNat 64 (h % 2 ^ 64))
  | .error _ => none

/-- A fetch from the page of an address faults: the code of R83. -/
def fetchFault (s : State) (b w va : Nat) : Option Nat :=
  if isWindow va then some 5
  else if va / 2 ^ 48 ≠ 0 then some 2
  else match translate s b w va with
    | .error f => some f
    | .ok e => if e.x && e.isSealed then none else some 5

/-- The dense header of the unit: live-map table and entry count (R208). -/
def denseHeader (s : State) (b w code : Nat) : Option (Nat × Nat) :=
  match readVALE s b w (code - 16) 16 with
  | .ok h => some (h % 2 ^ 48, h / 2 ^ 48 % 65536)
  | .error _ => none

/-- Live-map entry i (R210), where it can be read: one lost to an uncorrectable error cannot (R352). -/
def liveMap (s : State) (b w code i : Nat) : Option Nat :=
  match denseHeader s b w code with
  | some (t, n) => if i < n && !vaPoisoned s b w (code - 16) 16 && !vaPoisoned s b w (t + 32 * i) 32 then (match readVALE s b w (t + 32 * i) 32 with | .ok e => some e | .error _ => none) else none
  | none => none

/-- The block after the SAFE block of a live-map entry (R196, R210). -/
def densePosOf (s : State) (b w code i : Nat) : Option Nat :=
  match liveMap s b w code i with
  | none => none
  | some e =>
    let a := code + 4 * (e / 2 ^ 232 % 2 ^ 24)
    match readVALE s b w a 4 with
    | .ok tag => some (a + 4 * (1 + tagCount (BitVec.ofNat 32 tag)))
    | .error _ => none

/-! Usage counters (R377, R378). -/

def State.pair (s : State) (w r : Nat) : Option Pair := s.pairs.find? fun p => p.world == w && p.region == r

def State.modPair (s : State) (w r : Nat) (f : Pair → Pair) : State :=
  { s with pairs := s.pairs.map fun p => if p.world == w && p.region == r then f p else p }

/-- The load of a stationary buffer ends (R325): valid and counted, or failed; empty where its slot was zeroised (R332). -/
def finishMlds (s : State) (b n : Nat) : State :=
  let t := s.braid b
  let f := Store.get t.sbuf n {}
  if f.st ≠ 1 then s
  else
    let s := s.setBraid b { t with sbuf := Store.put t.sbuf n { f with st := if f.good then 2 else 3 } }
    if f.good then s.modPair f.world f.region fun p => { p with loads := p.loads + 50688 } else s

/-! What a freeze captures (R350). -/

/-- Rows an MMA in flight will write, with their cycles. -/
def Pend.mmaRows (p : Pend) : List (Nat × Nat × Nat) :=
  match p.eff with
  | .mmaIn g _ r lat _ _ _ _ _ _ _ => [0, 1, 2].map fun c => (3 * g + c, r, p.due + lat)
  | .mmaOut g r _ _ _ _ _ _ _ _ => [0, 1, 2].map fun c => (3 * g + c, r, p.due)
  | _ => []

/-- Every issued MMA completes (R328): its rows stand as they would have, and an older write to such a row is dropped. -/
def Strand.finishMma (t : Strand) : Strand :=
  let rows := t.pend.flatMap Pend.mmaRows
  if rows.isEmpty then t
  else
    let done := t.landUpTo (rows.foldl (fun a r => max a r.2.2) 0)
    let acc := rows.foldl (fun m r => Store.set m (16 * r.1 + r.2.1) (done.r.bankRow r.1 r.2.1) 0) t.r.acc
    let use := fun (v w : BitVec 6) => rows.foldl (fun a r => setBit a r.1 (w.getLsbD r.1)) v
    { t with
      r := { t.r with acc := acc, aUse := use t.r.aUse done.r.aUse, aDirty := use t.r.aDirty done.r.aDirty,
                      aInt := use t.r.aInt done.r.aInt, aFlag := t.r.aFlag ||| done.r.aFlag }
      pend := t.pend.filter fun p => match p.eff with
        | .mmaIn _ _ _ _ _ _ _ _ _ _ _ => false
        | .mmaOut _ _ _ _ _ _ _ _ _ _ => false
        | .acc a r _ _ => !rows.any fun q => q.1 == a && q.2.1 == r && p.due ≤ q.2.2
        | _ => true }

/-- Data breakpoints that match a range of bytes (R357): KIND 1 load, 2 store, 3 both; an atomic is both. -/
def Strand.dataBps (t : Strand) (va size : Nat) (kind : Nat) : BitVec 4 :=
  BitVec.ofNat 4 ((List.range 4).foldl (fun m i =>
    let c := Store.get t.dbgCtl i 0
    let want := bits c 1 2
    let hit := match kind with | 0 => want == 1 || want == 3 | 1 => want == 2 || want == 3 | _ => want != 0
    let sz := 2 ^ bits c 3 6
    let base := bits (Store.get t.dbgAddr i 0) 0 48 / sz * sz
    if c.getLsbD 0 && hit && base < va + size && va < base + sz && !t.bpSkip.getLsbD i then m + 2 ^ i else m) 0)

/-- A breakpoint found during a freeze is kept pending, with those found before (R356). -/
def Strand.keepBrk (t : Strand) (hits : BitVec 4) (addr : Nat) : Strand :=
  if hits = 0 then t else { t with pendBrk := some ((t.pendBrk.map (·.1)).getD 0 ||| hits, (t.pendBrk.map (·.2)).getD addr) }

/-- A result whose value is there is written during a freeze; a load that a data breakpoint now matches leaves it pending (R350, R356). -/
def Strand.arriveFrozen (t : Strand) (v : Sbd) : Strand :=
  let t := v.effs.foldl Strand.landEff t
  match v.acc with
  | some (va, n, kind) => t.keepBrk (t.dataBps va n kind) va
  | none => t

/-- Scoreboarded values arrive; those of token operations and held requests stay awaited (R350). -/
def Strand.arriveAll (t : Strand) : Strand :=
  let now := t.sbd.filter fun v => v.tok.isNone && v.req.isNone
  now.foldl Strand.arriveFrozen { t with sbd := t.sbd.filter fun v => v.tok.isSome || v.req.isSome }

/-- A freeze saves a command with the context (R270). -/
def saveCmd (s : State) (b k : Nat) (c : Cmd) : State :=
  (s.modBraid b fun t => { t with cmds := t.cmds.filter fun d => d.seq != c.seq }).modStrand b k
    fun t => { t with savedCmds := t.savedCmds ++ [{ c with begun := false, entry := none, sent := false, acc := false }] }

/-- A command that a freeze completes or advances to a boundary of 4 KiB: accepted, not held, no earlier one of its engine and class left (R110, R270). -/
def Cmd.movesOn (c : Cmd) (t : Braid) (u : Strand) : Bool :=
  c.engine != 2 && c.entry.isNone && c.acc &&
    (c.begun || ((c.total - c.done) * c.unitBytes < 4096 &&
      !(u.savedCmds.any fun d => d.engine == c.engine && d.cls == c.cls) &&
      !(t.cmds.any fun d => d.seq < c.seq && d.strand == c.strand && d.engine == c.engine && d.cls == c.cls)))

/-- Accepted commands of a strand that a freeze stops and saves; one with less than 4 KiB left completes (R270). Messages already injected, posted receives,
notifications and the other commands no engine serves go on without regard to the freeze (R350). -/
def stopCmds (s : State) (b k : Nat) : State :=
  let mine := (s.braid b).cmds.filter fun c => c.strand == k && c.engine != 9 && !(c.engine == 2 && c.sent)
  mine.foldl (fun s c =>
    match (s.braid b).cmds.find? (·.seq == c.seq) with
    | none => s
    | some c =>
      if c.movesOn (s.braid b) (s.strand b k) then
        match runCmd true c.fuel s b c with
        | (s', none) => s'
        | (s', some c') => saveCmd s' b k c'
      else saveCmd s b k c) s

/-- The strand gives up the lease with its requests (R60). -/
def Braid.dropLease (t : Braid) (k : Nat) : Braid :=
  { t with holder := if t.holder = some k then none else t.holder, left := if t.holder = some k then 0 else t.left
           leaseReqs := t.leaseReqs.filter fun q => q.strand != k }

/-! Trap records (R344, R345). -/

/-- The order of R184: steps, and in a step the lowest slot; the memory checks in the order of R83. -/
def Trap.key (t : Trap) : Nat := t.step * 1000000 + (if t.step = 7 then t.sub * 1000 + t.slot else t.slot * 1000 + t.sub)

/-- The first of a list of traps (R184). -/
def firstTrap (ts : List Trap) : Option Trap :=
  ts.foldl (fun a t => match a with | none => some t | some u => if t.key < u.key then some t else some u) none

/-- The 64-byte trap record of a strand (R345). -/
def trapRecord (s : State) (b k : Nat) (t : Trap) (seq : Nat) (atSafe : Bool) : Rec :=
  let st := s.strand b k
  let r := st.slot0.bind
  let li := fun i => st.c.loopIdx i % 2 ^ 32 * 2 ^ (32 * i)
  BitVec.ofNat 512 (
    seq % 2 ^ 32 * 2 ^ 480 + (agentId s.device b k).toNat * 2 ^ 456 + recWorld r * 2 ^ 448 + recLaunch r * 2 ^ 436 + recUnit r * 2 ^ 412 +
    t.detail % 2 ^ 16 * 2 ^ 384 + t.addr % 2 ^ 64 * 2 ^ 320 + t.code % 2 ^ 15 * 2 ^ 304 + t.slot % 8 * 2 ^ 288 + t.cause % 256 * 2 ^ 280 +
    (if st.pendBrk.isSome then 2 ^ 258 else 0) + (if st.pend.isEmpty && !st.landed then 0 else 2 ^ 257) + (if atSafe then 2 ^ 256 else 0) +
    st.c.pc.toNat % 2 ^ 48 * 2 ^ 192 + li 5 + li 4 + li 3 + li 2 + li 1 + li 0)

/-- The ring holds 256 records (R344). -/
def Part.ringFull (p : Part) : Bool := (p.tail - p.head).toNat == 256

/-- A record enters the ring, or is held in order while it is full (R344). -/
def Part.pushRec (p : Part) (r : Rec) : Part :=
  if p.ringFull || !p.heldRecs.isEmpty then { p with heldRecs := p.heldRecs ++ [r] }
  else { p with ring := Store.put p.ring (p.tail.toNat % 256) r, tail := p.tail + 1 }

/-- Held records enter as places free (R344). -/
def Part.drainRecs : Nat → Part → Part
  | 0, p => p
  | n + 1, p =>
    match p.heldRecs with
    | [] => p
    | r :: rest =>
      if p.ringFull then p
      else Part.drainRecs n { p with ring := Store.put p.ring (p.tail.toNat % 256) r, tail := p.tail + 1, heldRecs := rest }

/-! The freeze (R344, R350). -/

/-- The strand is frozen: what is in flight is finished or captured, slot 0 reads frozen with the cause, and the record enters the halyard's queue. A step of a
debugger stays asked for where no trap ends it (R358). -/
def freezeNow (s : State) (b k : Nat) (f : Frz) : State :=
  let s := (List.range 2).foldl (fun s n => if (Store.get (s.braid b).sbuf n {}).strand = k then finishMlds s b n else s) s
  let s := stopCmds s b k
  let s := s.modBraid b fun t => t.dropLease k
  let s := s.modStrand b k fun t =>
    let t := t.arriveAll.finishMma
    let z := t.slot0
    { t with c := { t.c with leaseAsked := false }
             pend := t.pend.map (fun p => { p with due := p.due - t.lastClk, ord := 0 })
             sbd := t.sbd.map (fun v => { v with due := v.due.map (· - t.lastClk), early := 0 })
             slot := Store.put t.slot 0 { z with st := .frozen, cause := f.cause }
             atSafe := f.atSafe, preempt := none, hold := none, walked := [], skipRest := t.skipRest || t.haltWait, haltWait := false, fifoWait := none
             stepOnce := t.stepOnce && f.trap.all (·.cause == 0x80), frz := none, stalled := false }
  match f.trap with
  | some t => s.modPart (partOf b) fun p => { p.pushRec (trapRecord s b k t p.seq.toNat f.atSafe.isSome) with seq := p.seq + 1 }
  | none => s

/-- A load of the strand is held on a suspended route, so that a freeze waits for its value; an SCLD's write is captured instead (R350). One whose
suspension has timed out stays held (R135). -/
def Strand.awaitsLoad (t : Strand) : Bool := t.rtTimeout.isNone && t.sbd.any fun v => v.due.isNone && v.req.any fun r => r.2.kind != 1

/-- THE STRAND FREEZES: it issues no further bundle, and the freeze is done once the values it waits for have arrived (R350). -/
def freeze (s : State) (b k : Nat) (f : Frz) : State :=
  if (s.strand b k).awaitsLoad then s.modStrand b k fun t => { t with frz := some f, preempt := none, hold := none } else freezeNow s b k f

/-- A freeze that waited is done where nothing is left to wait for. -/
def settleFreeze (s : State) (b k : Nat) : State :=
  match (s.strand b k).frz with
  | some f => if (s.strand b k).awaitsLoad then s else freezeNow s b k f
  | none => s

/-- Freezes a strand with a record in the halyard's queue (R344). -/
def freezeRec (s : State) (b k : Nat) (t : Trap) (atSafe : Option Nat) : State := freeze s b k { cause := t.cause, atSafe := atSafe, trap := some t }

/-- The trap is taken in-strand by a supervisor unit (R231). -/
def Strand.takesLocally (t : Strand) (u : Trap) : Bool :=
  recSupv t.slot0.bind && !t.c.trapCtl.getLsbD 3 &&
    ((u.cause == 0x11 && t.c.trapCtl.getLsbD 0) || (u.cause == 0x12 && u.brk && t.c.trapCtl.getLsbD 1) || (u.cause == 0x13 && t.c.trapCtl.getLsbD 2))

/-- TAKING A TRAP (R161, R231, R344): in-strand, the saved address, cause and code are written, INHANDLER set, and execution goes on at
VEC with latches lost; else the strand freezes with its record. The bundle's address is the strand's pc. A masked feature is counted for its
world, and its record is that of an undefined opcode (R347). -/
def takeTrap (s : State) (b k : Nat) (u : Trap) : State :=
  let t := s.strand b k
  if t.takesLocally u then
    s.modStrand b k fun t =>
      let t := t.groupSwitch
      { t with c := { t.c with trapEpc := t.c.pc.setWidth 48, localPc := t.c.pc, trapCause := BitVec.ofNat 23 (u.code * 256 + u.cause)
                               trapCtl := setBit t.c.trapCtl 3 true, pc := t.c.trapVec.setWidth 64 }
               hold := none, walked := [], rtTimeout := none, stalled := false, fifoWait := none }
  else
    let s := if u.cause = 0x02 ∧ u.detail = 2 ^ 16 then
        s.modWorld (recWorld t.slot0.bind) fun w => { w with masked := w.masked + 1 } else s
    let s := freezeRec s b k u none
    s.modStrand b k fun t => { t with
      skip0 := t.skip0 || u.cause == 0x11 || (u.cause == 0x12 && u.brk)
      bpSkip := t.bpSkip ||| u.bp
      rtTimeout := if u.cause = 0x0F then none else t.rtTimeout }

/-- RETURN FROM A TRAP (R232), its checks passed: INHANDLER is cleared, execution goes on at EPC, latches are lost, and a TRAP or BRK that
EPC still names is not issued again (R230). -/
def returnTrap (t : Strand) : Strand :=
  let t := t.groupSwitch
  let again := t.c.trapEpc.setWidth 64 = t.c.localPc ∧ (bits t.c.trapCause 0 8 = 0x11 ∨ bits t.c.trapCause 0 8 = 0x12)
  { t with c := { t.c with trapCtl := setBit t.c.trapCtl 3 false, pc := t.c.trapEpc.setWidth 64 }, skip0 := decide again }

/-! Resuming (R196, R350). -/

/-- Where a frozen unit resumes on braid b: at its position, at a dense position, or nowhere (R196). -/
def resumeAt (s : State) (b : Nat) (t : Strand) : Option Word :=
  let w := recWorld t.slot0.bind
  if !t.c.pc.getLsbD 0 then some t.c.pc
  else
    match regionHeader s b w (regionOf t.c.pc.toNat) with
    | some (_, sig) => if sig = (s.braid b).sig then some t.c.pc else dense w
    | none => dense w
where
  /-- The dense position of the SAFE point, where the loop stack is empty. -/
  dense (w : Nat) : Option Word :=
    match t.atSafe, t.c.loops with
    | some i, [] => (densePosOf s b w (dCode t.slot0.descr) i).map (BitVec.ofNat 64)
    | _, _ => none

/-- A saved command goes back to its engine (R270), to be accepted under its strand's tokens as they now stand; a window address of a slab no longer defined ends
it with status SLAB. -/
def acceptAgain (s : State) (b k : Nat) (c : Cmd) : State :=
  let t := s.braid b
  let c := { c with strand := k }
  let gone := (c.slabIn.toList ++ c.slabsOut).any fun id => slabSize (t.slabOf id) == 0
  let s := s.addCmd b c
  if gone then endCmd s b c 6 0 else s

/-- The latest clock of a braid's strands: they count the same braid cycles (R249). -/
def braidClk (s : State) (b : Nat) : Nat := (List.range 4).foldl (fun a k => max a (s.strand b k).clk) 0

/-- A strand's request for a run of n commands enters arbitration (R58). -/
def askLease (s : State) (b k n : Nat) : State :=
  if (s.braid b).leaseReqs.any (·.strand == k) then s
  else { s.modBraid b fun t => { t with leaseReqs := t.leaseReqs ++ [{ strand := k, n := n, seq := s.serial }] } with serial := s.serial + 1 }

/-- A frozen strand runs on from a position (R350, R354): captured results are written at g + d, commands are accepted again. -/
def resumeStrand (s : State) (b k : Nat) (pc : Word) : State :=
  let g := braidClk s b
  let cmds := (s.strand b k).savedCmds
  let s := s.modStrand b k fun t =>
    let z := t.slot0
    { t with c := { t.c with pc := pc }, clk := g, lastClk := g, clkFree := true
             pend := t.pend.map fun p => { p with due := g + p.due }
             sbd := t.sbd.map fun v => { v with due := v.due.map (g + ·) }
             runCyc := if z.cause = 0x80 then 0 else t.runCyc
             nextIss := [], savedCmds := [], atSafe := none, landed := false
             slot := Store.put t.slot 0 { z with st := .running } }
  let s := acceptPass (cmds.foldl (fun s c => acceptAgain s b k c) s) b
  let s := if (s.strand b k).c.leaseHas then askLease s b k (s.strand b k).c.leaseRun else s
  match (s.strand b k).pendBrk with
  | some (hits, addr) => takeTrap (s.modStrand b k fun t => { t with pendBrk := none }) b k { cause := 0x12, step := 1, bp := hits, addr := addr }
  | none => s

end Sys2Proof.Machine
end

