-- ==== Sys2Proof/Machine/Issue.lean ====
section
/-!
DEFINITION. How a bundle issues (R161, R167, R173, R184, R185, R187, R198, R215, R224): what each slot's operation reads, writes,
checks, waits on and does; the stages of R184; and the end of a bundle: control flow, back-edges, the clock.
-/

namespace Sys2Proof.Machine

/-- Where a bundle goes on (R215, R223, R225). -/
inductive Flow where
  | seq
  /-- A taken transfer: a group switch. -/
  | goto (pc : Word)
  /-- A loop with count 0: an exit by count past its body, whose last bundle is given (R223). -/
  | skip (exit last : Nat)
  /-- HALT: no further bundle. -/
  | halt
  /-- ERET (R232). -/
  | eret
  deriving DecidableEq, Repr

/-- An operation of one slot in the context of its bundle. -/
structure SlotOp where
  slot : Nat
  /-- Not suppressed by its predicate (R167). -/
  runs : Bool := true
  /-- Its predicate field (R167). -/
  guard : BitVec 3 := 0
  /-- Registers it reads, and destinations (R75, R173). -/
  reads : List Res := []
  dests : List Res := []
  /-- Decode-time causes, which a false predicate does not suppress (R167). -/
  early : List Trap := []
  traps : List Trap := []
  /-- Virtual addresses whose translations it needs (R83). -/
  walks : List Nat := []
  /-- Another wait of stage 1: a transfer of the strand's own over the range (R99). -/
  stage1 : Bool := false
  /-- A condition of stage 3 it waits on (R184). -/
  wait : Bool := false
  /-- A wait that R63 does not name: an interval counted for the braid, a buffer still read (R187, R325). -/
  soon : Bool := false
  /-- The FIFO it names, on which it may stall, numbered as FifoWait.at_ is (R69, R257, R284). -/
  fifo : Option Nat := none
  /-- It pops that FIFO; else it pushes. -/
  pop : Bool := false
  /-- What it does on reaching issue with no cause, before it may wait: a barrier arrival, a lease request (R58, R233). -/
  pre : State → State := id
  eff : State → State := id
  /-- What it does to units once the bundle is complete: a cancel, a decision (R50, R53). -/
  post : State → State := id
  /-- Timing class of its issue interval (R187). -/
  cls : Option Nat := none
  flow : Flow := .seq
  /-- SAFE with its live-map index (R227). -/
  safe : Option Nat := none

/-- The no-op of a slot (R162). -/
def nopOp (slot : Nat) : SlotOp := { slot := slot }

/-- A trap where a condition holds. -/
def trapIf (c : Bool) (t : Trap) : List Trap := if c then [t] else []

/-- A scoreboarded result in flight writes the register (R75). -/
def Strand.busyWith (t : Strand) (r : Res) : Bool := t.sbd.any fun v => v.dests.contains r

/-- An access of the strand is held, so that it has not performed (R107, R135). -/
def Strand.heldAccess (t : Strand) : Bool := t.sbd.any (·.req.isSome)

/-- A dense block waits on a register with a write in flight, an SCLD's among them, or that an MMA in flight has yet to read (R198). -/
def Strand.denseBusy (t : Strand) (reads dests : List Res) : Bool :=
  let named := fun d => reads.contains d || dests.contains d
  (t.pend.any fun p => p.eff.dest.any named ||
    (match p.eff with | .mmaIn _ ta r _ _ _ _ _ _ _ _ => dests.contains (.row ta r) | _ => false)) ||
    t.sbd.any fun v => v.due.isSome && v.req.any fun r => r.2.dests.any named

/-- Two operations of the bundle name one destination (R173): the lower slot is named (R184). -/
def sameDest (ops : List SlotOp) : List Trap :=
  ops.flatMap fun o => trapIf (ops.any fun q => o.slot < q.slot && q.dests.any fun d => o.dests.contains d) { cause := 0x01, step := 3, slot := o.slot }

/-- The slot's opcode is undefined, or masked (R182, R183): it has no operands to wait for. -/
def SlotOp.undef (o : SlotOp) : Bool := o.early.any (·.step == 2)

/-- A page whose translation is not held and not yet walked to a fault (R81, R83). -/
def needsWalk (x : Ctx) (va : Nat) : Bool :=
  !isWindow va && va / 2 ^ 48 == 0 && (tlbFind x.st.mtlb x.world va).isNone && (x.br.tlbHit x.world va).isNone && !x.st.walked.contains (va / 65536)

/-- The instruction breakpoints that match a code address (R357). -/
def Strand.instrBps (t : Strand) (pc : Word) : BitVec 4 :=
  BitVec.ofNat 4 ((List.range 4).foldl (fun m i =>
    let c := Store.get t.dbgCtl i 0
    if c.getLsbD 0 && bits c 1 2 == 0 && bits (Store.get t.dbgAddr i 0) 0 48 == bits pc 0 48 && !t.bpSkip.getLsbD i then m + 2 ^ i else m) 0)

/-- A breakpoint on the position at which a strand freezes is kept pending (R356). -/
def Strand.keepPosBrk (t : Strand) : Strand := t.keepBrk (t.instrBps t.c.pc) 0

/-- A pre-emption freeze (R344, R348): a spent budget writes a record, the others leave CAUSE 0. -/
def preemptFreeze (s : State) (b k : Nat) (atSafe : Option Nat) : State :=
  let s := s.modStrand b k (·.keepPosBrk)
  match (s.strand b k).preempt with
  | some (0x80, _) => freezeRec s b k { cause := 0x80, step := 0 } atSafe
  | _ => freeze s b k { cause := 0, atSafe := atSafe, trap := none }

/-- A stalled bundle: one cycle passes; a strand with a request pending that stalls on a wait of R63 freezes at once (R348). -/
def stall (s : State) (b k : Nat) (r63 : Bool) : State :=
  let s := s.modStrand b k fun t => { t.tick with stalled := r63 }
  if r63 && (s.strand b k).preempt.isSome then preemptFreeze s b k none else s

/-- The back-edges of a bundle that ends the body of the top loop entry (R224, R226): the control state, the registers, where it goes on,
and whether a loop was left by count. `a` is the address of the last bundle. -/
def backEdges (a : Nat) : Nat → Ctl → Regs → Nat → Bool → Ctl × Regs × Nat × Bool
  | 0, c, r, nxt, lost => (c, r, nxt, lost)
  | n + 1, c, r, nxt, lost =>
    match c.loops with
    | [] => (c, r, nxt, lost)
    | e :: rest =>
      if e.last ≠ a ∨ e.depth ≠ c.callDepth then (c, r, nxt, lost)
      else if e.idx.toNat + 1 < e.count then
        let e' := { e with idx := e.idx + 1 }
        let r' := if e.rot then
            let r1 := { r with ringS := r.ringS + 1, ringP := r.ringP + 1 }
            { r1 with pr := setBit r1.pr (r1.cellP 4) (decide (e'.idx.toNat < e.n)) }
          else r
        ({ c with loops := e' :: rest }, r', e.first, lost)
      else backEdges a n { c with loops := rest } r e.exit true

/-- A strand after its bundle's control flow (R170, R215, R224, R227). -/
def Strand.go (t : Strand) (pc next : Nat) (f : Flow) (safe : Bool) : Strand :=
  match f with
  | .goto p => { t.groupSwitch with c := { t.groupSwitch.c with pc := p } }
  | .halt => { t with haltWait := true }
  | .eret => returnTrap t
  | .skip exit last =>
    let (c, r, p, _) := backEdges last 7 t.c t.r exit true
    let t := { t with c := { c with pc := BitVec.ofNat 64 p }, r := r }
    t.groupSwitch
  | .seq =>
    let (c, r, p, lost) := backEdges pc 7 t.c t.r next false
    let t := { t with c := { c with pc := BitVec.ofNat 64 p }, r := r }
    if lost || safe then t.groupSwitch else t

/-- The switch from dense to native form after SAFE i (R200). -/
def toNative (s : State) (b k i : Nat) : State :=
  let t := s.strand b k
  let w := recWorld t.slot0.bind
  let code := dCode t.slot0.descr
  if t.c.pc.getLsbD 0 || !t.c.loops.isEmpty then s
  else
    match (s.part (partOf b)).tcache.find? fun e => e.1 == code && e.2.1 == w && e.2.2.1 == (s.braid b).sig with
    | none => s
    | some e =>
      match liveMap s b w code i with
      | none => s
      | some m =>
        let noff := m / 2 ^ 216 % 65536
        if noff = 0xFFFF then s
        else s.modStrand b k fun t => { t with c := { t.c with pc := BitVec.ofNat 64 (e.2.2.2 + 64 + 32 * (noff + 1) + 1) } }

/-- The index is below the entry count of the dense header, so that the bundle is a pre-emption point (R227). -/
def safeValid (s : State) (b k i : Nat) : Bool :=
  let t := s.strand b k
  match denseHeader s b (recWorld t.slot0.bind) (dCode t.slot0.descr) with
  | some (_, n) => i < n
  | none => false

/-- After a bundle: SAFE with a request pending freezes, a stepped bundle traps, dense form may turn native (R227, R348, R358). A HALT that waits
is not complete (R229). -/
def afterBundle (s : State) (b k : Nat) (safe : Option Nat) : State :=
  let t := s.strand b k
  let point := match safe with | some i => if safeValid s b k i then some i else none | none => none
  if t.haltWait then s
  else if t.stepOnce then
    let s := s.modStrand b k fun t => { t with stepOnce := false }
    let u : Trap := { cause := 0x13, step := 11 }
    if (s.strand b k).takesLocally u then takeTrap s b k u
    else freezeRec (s.modStrand b k (·.keepPosBrk)) b k u (if t.preempt.isSome then point else none)
  else match point with
    | some i => if t.preempt.isSome then preemptFreeze s b k (some i) else toNative s b k i
    | none => s

/-- Cycles of a bundle's issue: one in native form, one for each operation word of a dense block (R198). -/
def Ctx.cycles (x : Ctx) : Nat := if x.native then 1 else max 1 (x.words - 1)

def Strand.ticks : Nat → Strand → Strand
  | 0, t => t
  | n + 1, t => Strand.ticks n t.tick

/-- Where the bundle goes on: slot C alone has any flow but to the next bundle. -/
def flowOf (live : List SlotOp) : Flow :=
  match live.find? (fun o => o.flow ≠ .seq) with
  | some o => o.flow
  | none => .seq

/-- The strand at the end of its bundle: issue intervals, control flow, the bundle's cycles (R187, R198, R215). -/
def Ctx.endBundle (x : Ctx) (live : List SlotOp) (flow : Flow) (safe : Bool) (t : Strand) : Strand :=
  let iss := live.foldl (fun m o => match o.cls with
    | some c => Store.put m (64 * o.slot + c) (t.clk + x.br.interval c)
    | none => m) t.nextIss
  let t := { t with nextIss := iss, lastClk := t.clk + x.cycles, skip0 := false, skipRest := false, bpSkip := 0, walked := [], fifoWait := none, stalled := false
                    preempt := t.preempt.map fun (p : Nat × Nat) => (p.1, p.2 + 1) }
  Strand.ticks x.cycles (t.go x.pc x.next flow safe)

/-- A bundle with no cause and nothing to wait for takes effect (R161): its slots in order, control flow, its cycles. -/
def commit (x : Ctx) (ops : List SlotOp) (s : State) : State :=
  let live := ops.filter (·.runs)
  let s := live.foldl (fun s o => o.eff s) s
  let safe := live.findSome? (·.safe)
  let s := s.modStrand x.b x.k (x.endBundle live (flowOf live) safe.isSome)
  let s := live.foldl (fun s o => o.post s) s
  if (s.strand x.b x.k).slot0.st = .running then afterBundle s x.b x.k safe else s

/-- A slot whose class interval has not passed (R187). -/
def Ctx.tooSoon (x : Ctx) (o : SlotOp) : Bool :=
  o.soon || (match o.cls with
  | some c => x.st.clk < Store.get x.st.nextIss (64 * o.slot + c) 0
  | none => false)

/-- An SCLD whose bytes have not arrived by its cycle stalls the strand (R335). -/
def Strand.overdue (t : Strand) : Bool := t.sbd.any fun v => match v.due with | some d => d ≤ t.clk | none => false

/-- The bundle waits for a scoreboarded operand, a dense interlock or a transfer (stage 1 of R184). -/
def stage1Busy (x : Ctx) (live : List SlotOp) : Bool :=
  live.any fun o => o.stage1 || (o.reads ++ o.dests).any x.st.busyWith

def denseWait (x : Ctx) (live : List SlotOp) : Bool :=
  !x.native && live.any fun o => x.st.denseBusy o.reads o.dests

/-- A dense block waits for the predicates that guard its operations (R167, R198). -/
def guardWait (x : Ctx) (ops : List SlotOp) : Bool :=
  !x.native && ops.any fun o => o.guard != 0 && !o.undef && x.st.denseBusy [.p (x.r.cellP o.guard.toNat)] []

/-- The first trap of the bundle (R184). -/
def bundleTrap (ops : List SlotOp) : Option Trap :=
  firstTrap (ops.flatMap (·.early) ++ sameDest ops ++ (ops.filter (·.runs)).flatMap (·.traps))

/-- Entries a FIFO holds, and how many it may. In synchronised mode an entry of the partner's reaches this end three cycles after its push (R23). -/
def Ctx.fifoLen (x : Ctx) (n : Nat) : Nat × Nat :=
  if n < 64 then ((Store.get x.br.fifo n []).length, 256)
  else if n < 96 then ((Store.get x.br.vf (n - 64) []).length, 16)
  else
    let u := x.s.braid (partner x.b)
    (((Store.get u.vf (n - 96) []).takeWhile fun e => !(x.br.sync && x.st.clk + u.syncAt < e.2.2 + x.br.syncAt + 3)).length, 16)

/-- A FIFO at which an operation of the bundle cannot be taken, the operations being taken in slot order (R257, R284, R303): its number, and whether the
operation is a pop. -/
def fifoShort (x : Ctx) (live : List SlotOp) : Option (Nat × Bool) :=
  let ops := live.filterMap fun o => o.fifo.map fun n => (n, o.pop)
  (ops.foldl (fun (a : Option (Nat × Bool) × List (Nat × Bool)) o =>
    let before := a.2.filter (·.1 == o.1)
    let n := (x.fifoLen o.1).1 + (before.filter (!·.2)).length - (before.filter (·.2)).length
    (if a.1.isNone && (if o.2 then n == 0 else (x.fifoLen o.1).2 ≤ n) then some o else a.1, a.2 ++ [o])) (none, [])).1

/-- Another strand has stalled longer on a FIFO this bundle pops (R257, R284). -/
def fifoBehind (x : Ctx) (live : List SlotOp) : Option (Nat × Bool) :=
  ((live.filterMap fun o => if o.pop then o.fifo else none).find? fun n =>
    let since := match x.st.fifoWait with | some w => if w.at_ = n ∧ w.pop then w.since else x.st.clk | none => x.st.clk
    (List.range 4).any fun k => k != x.k &&
      (match (x.s.strand x.b k).fifoWait with | some w => w.at_ == n && w.pop && (w.since < since || (w.since == since && k < x.k)) | none => false)).map fun n => (n, true)

/-- The strand stalls on a FIFO. -/
def Strand.waitFifo (t : Strand) (n : Nat × Bool) : Strand :=
  match t.fifoWait with
  | some w => if w.at_ = n.1 ∧ w.pop = n.2 then t else { t with fifoWait := some ⟨n.1, n.2, t.clk⟩ }
  | none => { t with fifoWait := some ⟨n.1, n.2, t.clk⟩ }

/-- ISSUING A BUNDLE (R161, R184) of the current strand: operations in slot order, by the words of its block and its scope. A strand whose
slot 0 does not run, which is being frozen, or whose HALT waits, issues nothing. -/
def issue (words : Nat) (scope : Option Nat) (mk : List (Ctx → SlotOp)) (s : State) : State :=
  let x := Ctx.of s words scope
  let t := x.st
  if t.slot0.st ≠ .running ∨ t.haltWait ∨ t.frz.isSome then s
  else match t.rtTimeout with
    | some e => takeTrap s x.b x.k { cause := 0x0F, step := 0, detail := e }
    | none =>
      let ops := (mk.map (· x)).filter fun o => !(t.skip0 && o.slot == 0) && !(t.skipRest && o.slot != 0)
      let live := ops.filter (·.runs)
      let known := live.filter (!·.undef)
      if guardWait x ops then stall s x.b x.k false
      else if t.overdue || stage1Busy x known then stall s x.b x.k true
      else if denseWait x known then stall s x.b x.k false
      else match (known.flatMap (·.walks)).find? (needsWalk x) with
        | some va => stall (s.modStrand x.b x.k fun t => { t with hold := some (.walk va) }) x.b x.k true
        | none =>
          match bundleTrap ops with
          | some u => takeTrap s x.b x.k u
          | none =>
            let s := live.foldl (fun s o => o.pre s) s
            match (fifoShort x live).orElse (fun _ => fifoBehind x live) with
            | some n => stall (s.modStrand x.b x.k (·.waitFifo n)) x.b x.k true
            | none =>
            if live.any (·.wait) then stall (s.modStrand x.b x.k fun t => { t with fifoWait := none }) x.b x.k true
            else if live.any x.tooSoon then stall s x.b x.k false
            else commit x ops s

/-- The outcome of one operation alone: the block of its own words (R197). -/
def issueOne (i : Instr) (op : Ctx → SlotOp) (s : State) : Host.Outcome State Fault Refusal :=
  .next (issue (Bundle.single i).words none [op] s)

/-! Results of slots that write a scalar or a predicate (R174, R214). -/

/-- A predicated operation runs (R167). -/
def Ctx.on (x : Ctx) (p : BitVec 3) : Bool := x.r.pred p.toNat

/-- Changes the strand of the bundle. -/
def Ctx.mod (x : Ctx) (f : Strand → Strand) (s : State) : State := s.modStrand x.b x.k f

/-- A scalar result in flight with its latch: WS suppresses the register alone (R174, R214). -/
def Ctx.putX (x : Ctx) (slot : Nat) (ws : Bool) (d : Nat) (cls : Nat) (v : Word) (s : State) : State :=
  x.mod (fun t => t.addPends (x.br.latency cls) ((if ws then [] else [.x (x.r.cellX d) v]) ++ [.latch slot v x.st.c.gen])) s

/-- A predicate result in flight with its latch. -/
def Ctx.putP (x : Ctx) (slot : Nat) (ws : Bool) (p : Nat) (cls : Nat) (v : Bool) (s : State) : State :=
  x.mod (fun t => t.addPends (x.br.latency cls)
    ((if ws || p == 0 then [] else [.p (x.r.cellP p) v]) ++ [.latch slot (if v then 1 else 0) x.st.c.gen])) s

/-- Invalid latches among operands (R170). -/
def Ctx.latchTraps (x : Ctx) (slot : Nat) (os : List Operand) : List Trap :=
  trapIf (os.any x.badLatch) { cause := 0x01, step := 3, slot := slot }

/-- Registers read through operand fields and the predicate (R75, R198). -/
def Ctx.resOf (x : Ctx) (pred : BitVec 3) (os : List Operand) : List Res :=
  (if pred = 0 then [] else [.p (x.r.cellP pred.toNat)]) ++ os.flatMap x.opndRes

/-- An operation that writes one scalar register (R214, R234). -/
def scalarOp (x : Ctx) (slot : Nat) (pred : BitVec 3) (ws : Bool) (d cls : Nat) (os : List Operand) (v : Word) : SlotOp where
  slot := slot
  runs := x.on pred
  guard := pred
  reads := x.resOf pred os
  dests := if ws then [] else [.x (x.r.cellX d)]
  traps := x.latchTraps slot os
  eff := x.putX slot ws d cls v
  cls := some cls

/-- An operation that writes one predicate (R214, R237). -/
def predOp (x : Ctx) (slot : Nat) (pred : BitVec 3) (ws : Bool) (p cls : Nat) (os : List Operand) (v : Bool) : SlotOp where
  slot := slot
  runs := x.on pred
  guard := pred
  reads := x.resOf pred os
  dests := if ws || p == 0 then [] else [.p (x.r.cellP p)]
  traps := x.latchTraps slot os
  eff := x.putP slot ws p cls v
  cls := some cls

/-- A masked feature traps as an undefined opcode (R183); R347 counts it. -/
def Ctx.masked (x : Ctx) (bit : Nat) : Bool := (x.s.world x.world).featMask.getLsbD bit

/-- DETAIL bit that marks a trap of a masked feature while it is chosen; no record shows it (R347). -/
def maskedMark : Nat := 2 ^ 16

def Ctx.featTrap (x : Ctx) (slot bit : Nat) : List Trap := trapIf (x.masked bit) { cause := 0x02, step := 2, slot := slot, detail := maskedMark }

/-- A privileged form in a user unit (R182). -/
def Ctx.privTrap (x : Ctx) (slot : Nat) : List Trap := trapIf (!x.supv) { cause := 0x03, step := 4, slot := slot }

end Sys2Proof.Machine
end

