-- ==== Sys2Proof/Machine/Access.lean ====
section
/-!
DEFINITION. One access of a strand to memory (R83, R94, R134, R252): its checks in their order, its waits, data breakpoints (R357), and
the access itself, performed or held on a suspended route (R135).
-/

namespace Sys2Proof.Machine

/-- An access of slot M, of SCLD, of PARAM or of a link spill. -/
structure MemOp where
  slot : Nat
  va : Nat
  size : Nat
  acc : Acc
  /-- It needs an owner token: PARAM does not (R87). -/
  tok : Bool := true
  /-- A slot M access, which data breakpoints match (R357). -/
  dbg : Bool := true
  /-- Its ordering class (R106). -/
  cls : Nat := 0
  deriving DecidableEq, Repr

/-- The arm whose buffered lines the unit reads and writes (R52). -/
def Ctx.arm (x : Ctx) : Option Nat := if recBuf x.rcd then some (recLaunch x.rcd) else none

/-- The translation of an address as the strand finds it (R81). -/
def Ctx.trans (x : Ctx) (va : Nat) : Except Nat TlbEntry := translateFor x.s x.b x.k x.world va

/-- The physical address of a virtual one, where it translates. -/
def Ctx.paOf (x : Ctx) (va : Nat) : Option Nat :=
  if isWindow va || va / 2 ^ 48 != 0 then none
  else match x.trans va with
    | .ok e => some (e.pa va)
    | .error _ => none

/-- The strand's micro-TLB takes the translation an access uses (R81). -/
def Ctx.useTlb (x : Ctx) (va : Nat) (s : State) : State :=
  if isWindow va || va / 2 ^ 48 != 0 then s
  else match x.trans va with
    | .ok e => s.modStrand x.b x.k (·.tlbAdd e)
    | .error _ => s

/-- The number of a kind of access: 0 load, 1 store, 2 atomic. -/
def Acc.num : Acc → Nat
  | .load => 0
  | .store => 1
  | .amo => 2

/-- The trap of a data breakpoint, the lowest that matches. -/
def Ctx.bpTraps (x : Ctx) (m : MemOp) : List Trap :=
  let hits := x.st.dataBps m.va m.size m.acc.num
  trapIf (m.dbg && hits != 0) { cause := 0x12, step := 10, slot := m.slot, addr := m.va, bp := hits }

/-- The checks of an access in a slab (R70, R73). -/
def Ctx.slabTraps (x : Ctx) (m : MemOp) : List Trap :=
  let e := x.br.slabOf (winSlab m.va)
  if slabSize e = 0 then [{ cause := 0x0C, step := 7, sub := 4, slot := m.slot, addr := m.va }]
  else trapIf (slabWorld e != x.world) { cause := 0x0A, step := 7, sub := 2, slot := m.slot, addr := m.va } ++
    trapIf (slabState e == 4 || slabSize e * 256 < winOff m.va + m.size) { cause := 0x0C, step := 7, sub := 4, slot := m.slot, addr := m.va }

/-- The fare of an access: what no cache serves travels to its home (R66, R134). -/
def Ctx.fareOf (x : Ctx) (m : MemOp) (pa : Nat) : Fare :=
  x.s.fareFor x.b x.world pa (if m.acc = .load then 0 else 1) (x.s.needsHome x.b x.k x.arm (m.acc == .load) pa m.size)

/-- The checks of an access under a translation (R80, R83, R94, R134). -/
def Ctx.pageTraps (x : Ctx) (m : MemOp) (e : TlbEntry) : List Trap :=
  let t (c sub d : Nat) : Trap := { cause := c, step := 7, sub := sub, slot := m.slot, addr := m.va, detail := d }
  match (if m.acc = .load then none else writeFault e) with
  | some f => [t 0x06 1 f]
  | none =>
    trapIf (m.acc != .load && boundaryFault x.s x.world e) (t 0x0A 2 0) ++
    (if m.tok && !(m.acc == .load && e.isSealed) then
      (match tokenCheck x.s (x.br.holds x.agent x.world) (e.pa m.va) m.acc with | some c => [t c 3 0] | none => []) else []) ++
    (match x.fareOf m (e.pa m.va) with
      | .noEntry => [{ cause := 0x0E, step := 8, slot := m.slot, detail := 9 * 128 }]
      | .offRoster => if x.s.isProtected x.world then [t 0x0A 2 0] else [{ cause := 0x0E, step := 8, slot := m.slot, detail := 7 * 128 }]
      | _ => [])

/-- Every trap of an access (R83, R252). -/
def Ctx.memTraps (x : Ctx) (m : MemOp) : List Trap :=
  trapIf (m.va % m.size != 0) { cause := 0x0B, step := 7, slot := m.slot, addr := m.va } ++
  (if isWindow m.va then x.slabTraps m
    else if m.va / 2 ^ 48 ≠ 0 then [{ cause := 0x06, step := 7, sub := 1, slot := m.slot, addr := m.va, detail := 2 }]
    else match x.trans m.va with
      | .error f => [{ cause := 0x06, step := 7, sub := 1, slot := m.slot, addr := m.va, detail := f }]
      | .ok e => x.pageTraps m e) ++ x.bpTraps m

/-- It waits for its slab (R73), or a buffered unit's store for a way of the cache (R52). -/
def Ctx.memWait (x : Ctx) (m : MemOp) : Bool :=
  (isWindow m.va && slabState (x.br.slabOf (winSlab m.va)) != 2) ||
    (m.acc != .load && (match x.paOf m.va with | some pa => x.br.bufferFull x.arm pa m.size | none => false))

/-- It waits for a transfer of the strand's own over the address (R99). -/
def Ctx.ownXfer (x : Ctx) (m : MemOp) : Bool :=
  match x.paOf m.va with
  | some pa => x.s.xfers.any fun t =>
      t.moves && t.braid == x.b && t.strand == x.k && t.world == x.world && t.base < pa + m.size && pa < t.base + t.span
  | none => false

/-- Where the bytes lie: a physical address, or a place in the braid's PAD banks. -/
def Ctx.place (x : Ctx) (va : Nat) : Nat × Bool :=
  if isWindow va then (slabByte (x.br.slabOf (winSlab va)) (winOff va), true) else ((x.paOf va).getD 0, false)

/-- A request with the values it needs (R135). -/
def Ctx.mkReq (x : Ctx) (m : MemOp) (op : Nat) (data : Row) (cmp : Word) (cell tile row : Nat) : Req where
  kind := m.acc.num
  op := op
  addr := (x.place m.va).1
  slab := (x.place m.va).2
  size := m.size
  data := data
  cmp := cmp
  cell := cell
  tile := tile
  row := row
  slot := m.slot
  gen := x.st.c.gen
  arm := x.arm
  va := m.va
  cls := m.cls

/-- Adds a scoreboarded result. -/
def Strand.addSbd (t : Strand) (v : Sbd) : Strand := { t with sbd := t.sbd ++ [v] }

/-- The fare of a request. -/
def reqFare (s : State) (b k w : Nat) (q : Req) : Fare :=
  if q.slab then .sent else s.fareFor b w q.addr (if q.kind = 0 then 0 else 1) (s.needsHome b k q.arm (q.kind == 0) q.addr q.size)

/-- A request of a strand that cannot perform now: it waits behind an earlier one it may not pass (R107, R108), its route holds it, or its response is lost
(R135). The machine after what the route does, the entry, and whether the response is lost. -/
def reqHeldAs (s : State) (b k w : Nat) (t : Strand) (q : Req) : Option (State × Nat × Bool) :=
  match t.behind q with
  | some i => some (s, i, false)
  | none =>
    match reqFare s b k w q with
    | .held i f => some ((Fare.held i f).apply s b, i, false)
    | .lost i => some (s, i, true)
    | _ => none

/-- The same of a request as it issues: it comes after all others. -/
def reqHeld (s : State) (b k w : Nat) (q : Req) : Option (State × Nat × Bool) := reqHeldAs s b k w (s.strand b k) { q with seq := s.serial }

/-- The address, size and kind by which a data breakpoint matches a request of slot M (R357). -/
def Req.dbg (q : Req) : Option (Nat × Nat × Nat) := if q.slot = 3 then some (q.va, q.size, q.kind) else none

/-- A request performed, its results in flight; or held until it may perform (R75, R107, R135). -/
def Ctx.send (x : Ctx) (q : Req) (s : State) : State :=
  match reqHeld s x.b x.k x.world q with
  | some (s, i, lost) => s.holdReq x.b x.k { dests := q.dests, effs := [], tok := none, req := some (i, q), due := none, lost := lost, acc := q.dbg }
  | none =>
    let (s', es) := q.performBy s x.b x.k
    if es.isEmpty then s' else s'.modStrand x.b x.k (·.addSbd { dests := q.dests, effs := es, tok := none, req := none, due := none, acc := q.dbg })

/-- The class of a scalar access: 4, or 5 in the window (R254, R255). -/
def memCls (va : Nat) : Nat := if isWindow va then 5 else 4

/-- An operation that is one access (R252). -/
def memOp (x : Ctx) (m : MemOp) (pred : BitVec 3) (os : List Operand) (reads dests : List Res) (cls : Option Nat)
    (eff : State → State) : SlotOp where
  slot := m.slot
  runs := x.on pred
  guard := pred
  reads := x.resOf pred os ++ reads
  dests := dests
  traps := x.latchTraps m.slot os ++ x.memTraps m
  walks := [m.va]
  stage1 := x.ownXfer m
  wait := x.memWait m
  eff := fun s => eff (x.useTlb m.va s)
  cls := cls

end Sys2Proof.Machine
end

