-- ==== Sys2Proof/Machine/SysRegs.lean ====
section
/-!
DEFINITION. System registers (R24, R26 to R28, R68, R69, R92, R152, R220, R231, R245, R246, R384, R405, R409, R416 to R418): what each
reads, and what a write does. A write comes from a strand or from the management window, whose writer has no strand.
-/

namespace Sys2Proof.Machine

/-! PWR_GATE (R25 to R29). -/

/-- A bind slot of the braid holds a record. -/
def State.anyRecord (s : State) (b : Nat) : Bool := (List.range 4).any fun k => (s.strand b k).slot.any fun e => e.2.st != .empty

/-- The logic of a braid is in use (R27). -/
def State.logicInUse (s : State) (b : Nat) : Bool := s.anyRecord b || !(s.braid b).held.isEmpty || !(s.braid b).cmds.isEmpty

/-- A block of fabric group g is allocated (R27, R392). -/
def Braid.groupUsed (t : Braid) (g : Nat) : Bool :=
  (List.range 16).any fun i => let k := bits (Store.get t.blocks (16 * g + i) 0) 28 4; 1 ≤ k && k ≤ 3

/-- A braid whose logic has lost its contents (R25, R28): what lies in the router domain, the fabric and the fid core's tables stays. -/
def Braid.loseLogic (t : Braid) : Braid :=
  { t with bankMode := [], bankTag := [], bankLast := [], pad := [], fifo := [], bankSw := [], bmReq := [], slab := [], sbuf := [], keys := []
           held := [], bars := [], holder := none, left := 0, leaseReqs := [], leaseWorld := none, dc := [], passed := [], mldsAt := 0, mmaAt := 0
           cmds := [], recvs := [], icLines := [], icLocks := [], tlb := [], buf := [], cache := [], shTotal := 0, fifoBad := [] }

/-- The request of a PWR_GATE write is refused: 3 INVALID, 2 DENIED, 1 BUSY (R27). -/
def pwrRefusal (s : State) (b target req : Nat) : Nat :=
  if 95 < target then 3
  else if partOf target ≠ partOf b then 2
  else
    let t := s.braid target
    let logic := req % 2 == 1
    let bst := req / 2 % 2 == 1
    let gateFab := (List.range 6).any fun g => t.fabOn.getLsbD g && !(req / 2 ^ (2 + g) % 2 == 1) && t.groupUsed g
    let used := s.logicInUse target
    if (used && (((t.logicOn || t.logicWaking) && !logic) || ((t.bstOn || t.bstWaking) && !bst))) || gateFab || (bst && !logic) then 1 else 0

/-- The logic is gated: dirty lines of its cache are written back, and its contents go (R25, R28). -/
def gateLogic (s : State) (b : Nat) : State :=
  let s := s.flushLines b fun _ => true
  let s := (List.range 4).foldl (fun s k => s.setStrand b k {}) s
  s.modBraid b fun t => { t.loseLogic with logicOn := false, logicWaking := false }

/-- Domains gated at once; those to be powered begin to wake; those in the requested state are not affected (R27, R28). -/
def pwrApply (s : State) (target req : Nat) : State :=
  let t := s.braid target
  let logic := req % 2 == 1
  let bst := req / 2 % 2 == 1
  let fab : BitVec 6 := BitVec.ofNat 6 (req / 4)
  let s := if !logic && (t.logicOn || t.logicWaking) then gateLogic s target else s.modBraid target fun t => { t with logicWaking := logic && !t.logicOn }
  s.modBraid target fun t =>
    let t := if bst then { t with bstWaking := !t.bstOn } else if t.bstOn || t.bstWaking then { t with bst := [], bstTag := [], bstOn := false, bstWaking := false } else t
    { t with fabOn := t.fabOn &&& fab, fabWaking := fab &&& ~~~ t.fabOn }

def writePwr (s : State) (b : Nat) (v : Word) (apply : Bool) : State :=
  let target := bits v 32 7
  let req := bits v 4 8
  let s := s.modBraid b fun t => { t with pwrTarget := some target, pwrReq := BitVec.ofNat 8 req }
  if apply then
    let c := pwrRefusal s b target req
    (if c = 0 then pwrApply s target req else s).modBraid b fun t => { t with pwrResult := c }
  else s

/-- PWR_GATE as it reads (R26). A TARGET of 96 to 127 names no braid: the states read 0 (log 58, DESIGN CHOICE). -/
def readPwr (s : State) (b : Nat) : Word :=
  let t := s.braid b
  let target := t.pwrTarget.getD b
  let u := s.braid target
  BitVec.ofNat 64 (target * 2 ^ 32 + t.pwrResult * 2 ^ 20 +
    (if target < 96 then u.fabOn.toNat * 2 ^ 14 + bit u.bstOn * 2 ^ 13 + bit u.logicOn * 2 ^ 12 else 0) + t.pwrReq.toNat * 16)

/-! PAIR_SYNC (R23, R24). -/

/-- A record on the braid other than the writing unit's. -/
def State.otherRecord (s : State) (b : Nat) (writer : Option (Nat × Nat)) : Bool :=
  (List.range 4).any fun k => (s.strand b k).slot.any fun e => e.2.st != .empty && !(writer == some (b, k) && e.1 == 0)

def writePair (s : State) (b : Nat) (v : Word) (writer : Option (Nat × Nat)) : State :=
  let p := partner b
  let want := v.getLsbD 0
  if want = (s.braid b).sync then s.modBraid b fun t => { t with syncRefused := false }
  else
    let full := [b, p].any fun c => (List.range 4).any fun f => !(Store.get (s.braid c).vf f ([] : List (Nat × Row × Nat))).isEmpty
    if full || s.otherRecord b writer || s.otherRecord p writer then s.modBraid b fun t => { t with syncRefused := true }
    else
      let m := min (s.braid b).mhz (s.braid p).mhz
      let f := fun (c : Nat) (t : Braid) => { t with sync := want, mhz := if want then m else t.mhz, syncAt := braidClk s c }
      ((s.modBraid b (f b)).modBraid p (f p)).modBraid b fun t => { t with syncRefused := false }

def Braid.readPair (t : Braid) : Word := BitVec.ofNat 64 (bit t.sync * 4 + bit t.syncRefused * 2 + bit t.sync)

/-! BANK_MODE (R68, R69). -/

/-- A bank holds a pad-preload reservation (R43). -/
def State.bankReserved (s : State) (b n : Nat) : Bool :=
  (List.range 4).any fun k => (s.strand b k).slot.any fun e => e.2.pad && recPbank e.2.bind == n

/-- Defined slabs of a bank. -/
def Braid.slabsIn (t : Braid) (n : Nat) : List Nat := (List.range 64).filter fun i => slabSize (t.slabOf i) != 0 && slabBank (t.slabOf i) == n
def Braid.fifoOf (t : Braid) (n : Nat) : List Row := Store.get t.fifo n []
/-- Banks in CACHE mode, those being switched not counted. -/
def Braid.cacheBanks (t : Braid) : Nat := ((List.range 24).filter fun n => t.bankModeOf n == 0 && !t.switching n).length

/-- A FIFO operation on the bank is in flight: a stalled one, or a pop whose result is pending (R69, R303). -/
def State.fifoBusy (s : State) (b n : Nat) : Bool :=
  (List.range 4).any fun k => (s.strand b k).fifoWait.any (·.at_ == n) || (s.strand b k).sbd.any fun v => v.fifo == some n

/-- The bank enters a mode with nothing in it (R69). -/
def Braid.enterMode (t : Braid) (n m : Nat) : Braid :=
  { t with bankMode := Store.set t.bankMode n m 0, fifo := Store.del t.fifo n, fifoBad := Store.del t.fifoBad n, bankTag := Store.del t.bankTag n, bankLast := Store.del t.bankLast n
           pad := t.pad.filter fun e => e.1 / 65536 != n }

/-- A request's outcome: 0 DONE with a switch now, 1 PENDING, 2 BUSY, 3 INVALID, 4 DONE with nothing to do. -/
def bankOutcome (s : State) (b n req : Nat) : Nat :=
  let t := s.braid b
  let cur := t.bankModeOf n
  if 23 < n || req == 3 || (cur == 0 && req != 0 && t.cacheBanks ≤ 2 && !t.switching n) then 3
  else if t.switching n || s.bankReserved b n then 2
  else if req = cur then 4
  else match cur with
    | 0 => 1
    | 1 => if (t.slabsIn n).isEmpty then 0 else 2
    | _ => if (t.fifoOf n).isEmpty && !s.fifoBusy b n then 0 else 2

/-- A write of BANK_MODE by a strand (0 to 3) or by the window (4). -/
def writeBank (s : State) (b who : Nat) (v : Word) : State :=
  if !(s.braid b).logicOn then s else
  let n := bits v 59 5
  let req := bits v 57 2
  let evt := bits v 53 4
  let o := bankOutcome s b n req
  let res := if o = 4 then 0 else o
  let s := s.modBraid b fun t => { t with bmReq := Store.put t.bmReq who (BitVec.ofNat 64 (v.toNat / 2 ^ 53 * 2 ^ 53 + res * 2 ^ 50)) }
  match o with
  | 0 =>
    let s := s.modBraid b fun t => t.enterMode n req
    if who < 4 then s.modStrand b who fun t => { t with r := t.r.bumpOnly evt } else s
  | 1 => s.modBraid b fun t => { t with bankSw := t.bankSw ++ [{ bank := n, mode := req, evt := if who < 4 then some (who, evt) else none }] }
  | _ => s

def Braid.readBank (t : Braid) (who : Nat) : Word :=
  BitVec.ofNat 64 ((Store.get t.bmReq who 0).toNat + (List.range 24).foldl (fun a n => a + t.bankModeOf n * 4 ^ n) 0)

/-! SCRUB_PROG (R384, R386). -/

/-- The world is assigned to the partition (R17, R362). -/
def State.assigned (s : State) (w p : Nat) : Bool :=
  let a := (s.world w).partAssign
  w != 0 && a.getLsbD 7 && a.toNat % 16 == p

/-- The lowest listed granule not yet scrubbed. -/
def World.nextGranule (w : World) : Option Nat :=
  let cand : List Nat := (w.listRanges.map Prod.fst ++ w.doneGranules.map (· + 4096)).filter fun g => w.listed g && !w.doneGranules.contains g
  cand.foldl (fun a g => match a with | none => some g | some h => some (min g h)) none

/-- BRAID and NEXT of SCRUB_PROG, as bits 52 to 12. -/
def World.scrubNext (w : World) : Nat :=
  match (w.listBraids.filter fun b => !w.doneBraids.contains b).foldl (fun a b => match a with | none => some b | some c => some (min b c)) (none : Option Nat) with
  | some b => 2 ^ 52 + b * 2 ^ 12
  | none => (w.nextGranule).getD 0

def readScrub (s : State) (p : Nat) : Word :=
  let w := (s.part p).scrubSel
  let t := s.world w
  BitVec.ofNat 64 (w * 2 ^ 56 + (if s.assigned w p then t.phase * 2 ^ 53 + (if t.phase = 2 then t.scrubNext else 0) else 0))

/-- A teardown of the world is not complete (R385). -/
def World.tearing (t : World) : Bool := t.phase == 1 || t.phase == 2

/-- A teardown of a world begins (R385); its context key is destroyed (R361). -/
def World.beginTeardown (t : World) (byUnit : Bool) : World :=
  { t with phase := 1, ctxKey := none, listBraids := [], doneBraids := [], listRanges := [], doneGranules := [], byUnit := byUnit }

def writeScrub (s : State) (p : Nat) (v : Word) (start : Bool) : State :=
  let w := bits v 56 8
  let s := s.modPart p fun t => { t with scrubSel := w }
  if start && s.assigned w p && !(s.world w).tearing then s.modWorld w (·.beginTeardown true) else s

/-! The registers by number (R245). -/

/-- Numbers that name a register, and those of supervisor registers. -/
def sysAssigned (n : Nat) : Bool := n ≤ 0x0A || (0x20 ≤ n && n ≤ 0x2D)
def sysSupv (n : Nat) : Bool := 0x20 ≤ n

/-- HELD_TOKENS (R92). -/
def Braid.heldTokens (t : Braid) (agent : BitVec 24) (w : Nat) : Nat :=
  let mine := t.held.filter fun h => h.agent == agent && h.world == w
  (1024 - t.held.length) * 2 ^ 32 + (mine.filter (·.kind == 3)).length * 2 ^ 16 + (mine.filter (·.kind != 3)).length

/-- A braid register the window reaches too (R246); `who` is the strand, or 4 for the window. -/
def readBraidReg (s : State) (b who num : Nat) : Word :=
  let t := s.braid b
  match num with
  | 0x21 => readPwr s b
  | 0x22 => t.readBank who
  | 0x23 => t.readPair
  | 0x24 => BitVec.ofNat 64 (t.iftPasses.toNat * 2 ^ 32 + t.iftNextUnit.toNat * 2 ^ 24 + t.noms.headD 0xFF * 2 ^ 16 + t.iftIndex)
  | 0x26 => BitVec.ofNat 64 (t.shTotal.toNat * 2 ^ 32 + t.shLast.toNat * 2 ^ 24 + t.shNom.toNat * 2 ^ 16)
  | 0x27 => s.errCell
  | 0x28 => s.errXfer
  | 0x29 => BitVec.ofNat 64 (t.laneSel.toNat * 2 ^ 56 + (Store.get s.lanes t.laneSel.toNat 0).toNat)
  | _ => 0

/-- A write of such a register; `writer` is the strand, none for the window. -/
def writeBraidReg (s : State) (b : Nat) (writer : Option Nat) (num : Nat) (v : Word) : State :=
  match num with
  | 0x21 => writePwr s b v (v.getLsbD 0)
  | 0x22 => writeBank s b (writer.getD 4) v
  | 0x23 => writePair s b v (writer.map fun k => (b, k))
  | 0x26 => if v.getLsbD 0 then s.modBraid b fun t => { t with shTotal := 0 } else s
  | 0x27 => if v.getLsbD 0 then { s with errCell := 0 } else s
  | 0x28 => if v.getLsbD 0 then { s with errXfer := 0 } else s
  | 0x29 => s.modBraid b fun t => { t with laneSel := BitVec.ofNat 8 (bits v 56 8) }
  | _ => s

/-- What GSR returns (R245). -/
def Ctx.readSys (x : Ctx) (num : Nat) : Word :=
  let c := x.st.c
  match num with
  | 0x00 => x.r.frm.setWidth 64
  | 0x01 => x.r.stoch.setWidth 64
  | 0x02 => c.linkBase
  | 0x03 => c.linkLimit
  | 0x04 => c.linkTop
  | 0x05 => BitVec.ofNat 64 c.leaseRun
  | 0x06 => BitVec.ofNat 64 (x.br.heldTokens x.agent x.world)
  | 0x07 => x.s.mapSeq.setWidth 64
  | 0x08 => BitVec.ofNat 64 (x.s.mapVa.toNat / 65536 * 65536)
  | 0x09 => x.br.sig
  | 0x0A => BitVec.ofNat 64 x.world
  | 0x20 => (x.s.world x.world).featMask.setWidth 64
  | 0x25 => readScrub x.s (partOf x.b)
  | 0x2A => c.trapCtl.setWidth 64
  | 0x2B => c.trapVec.setWidth 64
  | 0x2C => c.trapEpc.setWidth 64
  | 0x2D => c.trapCause.setWidth 64
  | n => readBraidReg x.s x.b x.k n

/-- An address field of bits 47 to 3. -/
def linkField (v : Word) : Word := BitVec.ofNat 64 (bits v 3 45 * 8)

/-- The control state after an SSR to a register of the strand (R152, R220, R231). -/
def Strand.writeOwn (t : Strand) (num : Nat) (v : Word) : Strand :=
  match num with
  | 0x00 => if bits v 0 3 ≤ 4 then { t with r := { t.r with frm := v.setWidth 3 } } else t
  | 0x02 => if t.c.linkTop = t.c.linkBase then { t with c := { t.c with linkBase := linkField v, linkTop := linkField v } } else t
  | 0x03 => if t.c.linkTop = t.c.linkBase then { t with c := { t.c with linkLimit := linkField v } } else t
  | 0x2A => { t with c := { t.c with trapCtl := BitVec.ofNat 4 (t.c.trapCtl.toNat / 8 * 8 + bits v 0 3) } }
  | 0x2B => { t with c := { t.c with trapVec := v.setWidth 48 } }
  | 0x2C => { t with c := { t.c with trapEpc := v.setWidth 48 } }
  | _ => t

/-- What SSR does (R245): a read-only register ignores it. -/
def Ctx.writeSys (x : Ctx) (num : Nat) (v : Word) (s : State) : State :=
  if num = 0x25 then writeScrub s (partOf x.b) v (v.getLsbD 0)
  else writeBraidReg (x.mod (fun t => t.writeOwn num v) s) x.b (some x.k) num v

end Sys2Proof.Machine
end

