-- ==== Sys2Proof/Machine/Memory.lean ====
section
/-!
DEFINITION. Slot M (R252 to R265): loads, stores, tile rows, FIFO banks, atomics, PREF, fences, instruction-cache locks, slabs.
-/

namespace Sys2Proof.Machine

/-! Addresses (R252). -/

/-- The effective address of an L, S or T format operation. -/
def Ctx.ea (x : Ctx) (base : Operand) (off : Int) (scale : Nat) (lng : Option (BitVec 32)) : Nat :=
  (x.opnd base + (match lng with | some l => l.signExtend 64 | none => BitVec.ofInt 64 (off * scale))).toNat

/-! Loads and stores (R254 to R256). -/

def loadOp (op size : Nat) (f : FmtML) (x : Ctx) : SlotOp :=
  let m : MemOp := { slot := 3, va := x.ea f.base f.off.toInt size f.lng, size := size, acc := .load, cls := f.cls.toNat }
  let q := x.mkReq m op 0 0 (x.r.cellX f.dst.toNat) 0 0
  memOp x m f.pred [f.base] [] q.dests (some (memCls m.va)) (x.send q)

def ldI8Op (f : FmtML) (x : Ctx) : SlotOp := loadOp 1 1 f x
def ldW8Op (f : FmtML) (x : Ctx) : SlotOp := loadOp 2 1 f x
def ldI16Op (f : FmtML) (x : Ctx) : SlotOp := loadOp 3 2 f x
def ldW16Op (f : FmtML) (x : Ctx) : SlotOp := loadOp 4 2 f x
def ldI32Op (f : FmtML) (x : Ctx) : SlotOp := loadOp 5 4 f x
def ldW32Op (f : FmtML) (x : Ctx) : SlotOp := loadOp 6 4 f x
def ld64Op (f : FmtML) (x : Ctx) : SlotOp := loadOp 7 8 f x

def storeOp (op size : Nat) (f : FmtMS) (x : Ctx) : SlotOp :=
  let m : MemOp := { slot := 3, va := x.ea f.base f.off.toInt size f.lng, size := size, acc := .store, cls := f.cls.toNat }
  memOp x m f.pred [f.data, f.base] [] [] (some (memCls m.va)) (x.send (x.mkReq m op ((x.opnd f.data).setWidth 2048) 0 0 0 0))

def st8Op (f : FmtMS) (x : Ctx) : SlotOp := storeOp 8 1 f x
def st16Op (f : FmtMS) (x : Ctx) : SlotOp := storeOp 9 2 f x
def st32Op (f : FmtMS) (x : Ctx) : SlotOp := storeOp 10 4 f x
def st64Op (f : FmtMS) (x : Ctx) : SlotOp := storeOp 11 8 f x

def ldtOp (f : FmtMT) (x : Ctx) : SlotOp :=
  let m : MemOp := { slot := 3, va := x.ea f.base f.off.toInt 256 f.lng, size := 256, acc := .load, cls := f.cls.toNat }
  let q := x.mkReq m 0x0C 0 0 0 f.tile.toNat (x.rowIndex f.row)
  memOp x m f.pred [f.base] [] q.dests (some 5) (x.send q)

def sttOp (f : FmtMT) (x : Ctx) : SlotOp :=
  let m : MemOp := { slot := 3, va := x.ea f.base f.off.toInt 256 f.lng, size := 256, acc := .store, cls := f.cls.toNat }
  let i := x.rowIndex f.row
  memOp x m f.pred [f.base] [.row f.tile.toNat i] [] (some 5) (x.send (x.mkReq m 0x0D (x.r.tileRow f.tile.toNat i) 0 0 0 0))

/-! FIFO banks (R257, R70). -/

/-- The checks of an operation on a FIFO bank. -/
def Ctx.fifoTraps (x : Ctx) (slot q : Nat) : List Trap :=
  if 23 < q || x.br.bankModeOf q != 2 || x.br.switching q then [{ cause := 0x15, step := 6, slot := slot }]
  else trapIf (Store.get x.br.bankTag q x.world != x.world) { cause := 0x0A, step := 7, sub := 2, slot := slot }

/-- Pops a bank into a tile row: the value is scoreboarded. A bank left empty loses its tag (R70); an entry with an uncorrectable error leaves
its error pending for the strand (R410). -/
def Ctx.popBank (x : Ctx) (q t i : Nat) (m : Row) (s : State) : State :=
  match (s.braid x.b).fifoOf q with
  | [] => s
  | v :: rest =>
    let bad := if Store.has (s.braid x.b).fifoBad q then [Store.get (s.braid x.b).fifoBad q 0] else []
    let s := s.modBraid x.b fun br => { br with fifo := Store.set br.fifo q rest [], bankTag := if rest.isEmpty then Store.del br.bankTag q else br.bankTag
                                                fifoBad := Store.del br.fifoBad q }
    let s := x.mod (fun t => { t with pendErr := t.pendErr ++ bad }) s
    x.mod (·.addSbd { dests := [.row t i], effs := [.tile t i v m], tok := none, req := none, due := none, fifo := some q }) s

/-- Pushes a row; the first entry gives the bank its tag. -/
def Ctx.pushBank (x : Ctx) (q : Nat) (v : Row) (s : State) : State :=
  s.modBraid x.b fun br => { br with fifo := Store.put br.fifo q (br.fifoOf q ++ [v])
                                     bankTag := if (br.fifoOf q).isEmpty then Store.put br.bankTag q x.world else br.bankTag }

/-- The bank an LDTF or STTF names. -/
def Ctx.bankNo (x : Ctx) (f : FmtMT) : Nat :=
  (x.opnd f.base + (match f.lng with | some l => l.signExtend 64 | none => 0)).toNat

def fifoOffTraps (f : FmtMT) : List Trap := trapIf (f.off != 0) { cause := 0x15, step := 6, slot := 3 }

def ldtfOp (f : FmtMT) (x : Ctx) : SlotOp :=
  let q := x.bankNo f
  let i := x.rowIndex f.row
  { slot := 3
    runs := x.on f.pred
    guard := f.pred
    reads := x.resOf f.pred [f.base]
    dests := [.row f.tile.toNat i]
    traps := x.latchTraps 3 [f.base] ++ fifoOffTraps f ++ x.fifoTraps 3 q
    fifo := some q
    pop := true
    eff := x.popBank q f.tile.toNat i rowOnes
    cls := some 5 }

def sttfOp (f : FmtMT) (x : Ctx) : SlotOp :=
  let q := x.bankNo f
  let i := x.rowIndex f.row
  { slot := 3
    runs := x.on f.pred
    guard := f.pred
    reads := x.resOf f.pred [f.base] ++ [.row f.tile.toNat i]
    traps := x.latchTraps 3 [f.base] ++ fifoOffTraps f ++ x.fifoTraps 3 q
    fifo := some q
    eff := x.pushBank q (x.r.tileRow f.tile.toNat i)
    cls := some 5 }

/-! Atomics (R258). -/

def amoOp (op : Nat) (f : FmtMA) (x : Ctx) : SlotOp :=
  let size := if op = 0x18 then 4 else 8
  let m : MemOp := { slot := 3, va := (x.opnd f.base).toNat, size := size, acc := .amo, cls := f.cls.toNat }
  let q := x.mkReq m op ((x.r.getX f.data.toNat).setWidth 2048) (x.r.getX f.dst.toNat) (x.r.cellX f.dst.toNat) 0 0
  memOp x m f.pred [f.base] ([.x (x.r.cellX f.data.toNat)] ++ (if op = 0x17 then [.x (x.r.cellX f.dst.toNat)] else []))
    [.x (x.r.cellX f.dst.toNat), .latch 3] none (x.send q)

def amoAddOp (f : FmtMA) (x : Ctx) : SlotOp := amoOp 0x10 f x
def amoMinIOp (f : FmtMA) (x : Ctx) : SlotOp := amoOp 0x11 f x
def amoMaxIOp (f : FmtMA) (x : Ctx) : SlotOp := amoOp 0x12 f x
def amoAndOp (f : FmtMA) (x : Ctx) : SlotOp := amoOp 0x13 f x
def amoOrOp (f : FmtMA) (x : Ctx) : SlotOp := amoOp 0x14 f x
def amoXorOp (f : FmtMA) (x : Ctx) : SlotOp := amoOp 0x15 f x
def amoSwpOp (f : FmtMA) (x : Ctx) : SlotOp := amoOp 0x16 f x
def amoCasOp (f : FmtMA) (x : Ctx) : SlotOp := amoOp 0x17 f x

/-- AMO.FADD is masked by AMOF (R183). -/
def amoFaddOp (f : FmtMA) (x : Ctx) : SlotOp := { amoOp 0x18 f x with early := x.featTrap 3 6 }

/-! PREF and fences (R259, R260). -/

/-- The line PREF asks for, where none of the conditions of R259 stands against it: its physical address. -/
def Ctx.prefLine (x : Ctx) (ea : Nat) : Option Nat :=
  if isWindow ea || ea / 2 ^ 48 != 0 then none
  else match x.trans ea with
    | .error _ => none
    | .ok e =>
      let pa := e.pa ea
      if x.s.homeOnly pa || (!e.isSealed && tokenCheck x.s (x.br.holds x.agent x.world) pa .load == some 0x07) || fare x.s x.b x.world pa 0 != .sent then none
      else some (lineOf pa)

/-- PREF brings a line into the braid cache (R259). -/
def prefOp (f : FmtMP) (x : Ctx) : SlotOp :=
  let ea := x.ea f.base f.off.toInt 128 f.lng
  { slot := 3
    runs := x.on f.pred
    guard := f.pred
    reads := x.resOf f.pred [f.base]
    traps := x.latchTraps 3 [f.base]
    walks := [ea]
    eff := fun s => match x.prefLine ea with
      | some l => if (s.braid x.b).hasLine x.arm l then s else (s.homeTouch l false []).allocLine x.b { line := l }
      | none => s
    cls := some 4 }

/-- A strand-path access in one of the classes that has not performed at a scope (R107, R109): a store held on a route is seen by the strand's own loads, which
wait for it, and by no other agent; at die scope and beyond a store has performed once its line is written back. -/
def Ctx.unperformed (x : Ctx) (scope : Nat) (classes : Nat → Bool) (s : State) : Bool :=
  ((s.strand x.b x.k).sbd.any fun v => v.req.any fun r => classes r.2.cls && (scope != 0 || r.2.kind != 1)) ||
    (2 ≤ scope && s.dirtyStuck x.b x.k x.world classes)

/-- The write-backs a fence at a scope asks for: those a route lets through are made, the fault of any other suspends its entry (R109, R135). -/
def Ctx.flushFor (x : Ctx) (scope : Nat) (classes : Nat → Bool) (s : State) : State :=
  if scope < 2 then s
  else
    let mine := (s.braid x.b).cache.filter (·.dirtyFor x.agent classes)
    let s := mine.foldl (fun s c => (fare s x.b x.world c.line 1).apply s x.b) s
    s.cleanLines x.b fun c => c.dirtyFor x.agent classes && fare s x.b x.world c.line 1 == .sent

/-- Accesses of the strand on a path that have not performed (R110). -/
def Ctx.pathBusy (x : Ctx) (path : Nat) : Bool :=
  match path with
  | 0 => x.unperformed x.scopeOr (fun _ => true) x.s
  | 5 => false
  | p => x.br.cmds.any (fun c => c.strand == x.k && c.path == p) ||
      (p == 3 && (List.range 2).any fun n => let f := Store.get x.br.sbuf n {}; f.st == 1 && f.strand == x.k)

def fenceCOp (f : FmtMFc) (x : Ctx) : SlotOp :=
  let named := fun c => f.msk.getLsbD c
  { slot := 3
    runs := x.on f.pred
    guard := f.pred
    reads := x.resOf f.pred []
    pre := fun s => if f.msk = 0 then s else x.flushFor x.scopeOr named s
    wait := f.msk != 0 && x.unperformed x.scopeOr named x.s }

/-- The paths a FENCE.X names; fewer than two have no effect (R260). -/
def xPaths (f : FmtMFx) : List Nat :=
  let l := (List.range 6).filter f.paths.getLsbD
  if l.length < 2 then [] else l

def fenceXOp (f : FmtMFx) (x : Ctx) : SlotOp where
  slot := 3
  runs := x.on f.pred
  guard := f.pred
  reads := x.resOf f.pred []
  pre := fun s => if (xPaths f).contains 0 then x.flushFor x.scopeOr (fun _ => true) s else s
  wait := (xPaths f).any x.pathBusy

/-- A token operation of a buffered unit, held until the decision (R52, R100). -/
def State.heldToken (s : State) (v : Sbd) : Bool := v.tok.any fun n => s.xfers.any fun t => t.id == n && t.arm.isSome

/-- Every earlier memory operation of a strand is known clean or has its error pending (R118). -/
def State.quiet (s : State) (b k : Nat) : Bool :=
  (s.strand b k).sbd.all s.heldToken && !(s.braid b).cmds.any (·.strand == k) &&
    !(List.range 2).any fun n => let f := Store.get (s.braid b).sbuf n {}; f.st == 1 && f.strand == k

def fenceEOp (f : FmtMZ) (x : Ctx) : SlotOp where
  slot := 3
  runs := x.on f.pred
  guard := f.pred
  reads := x.resOf f.pred []
  traps := if x.s.quiet x.b x.k then (match x.st.pendErr with | e :: _ => [{ cause := 0x10, step := 10, slot := 3, detail := e }] | [] => []) else []
  wait := !x.s.quiet x.b x.k

/-! Instruction-cache locks (R261, R262). -/

/-- Lines locked in a braid, each once. -/
def Braid.lockedLines (t : Braid) : Nat := (t.icLocks.map (·.2)).dedup.length

/-- Lines the instruction cache holds (R12): 128 KiB, the oldest that is not locked making room (log 44, DESIGN CHOICE). -/
def Braid.icAdd (t : Braid) (l : Nat × Nat) : Braid :=
  if t.icLines.contains l then t
  else
    let t := if t.icLines.length < 1024 then t else
      match t.icLines.find? fun m => !t.icLocks.any fun e => e.2 == m with
      | some m => { t with icLines := t.icLines.erase m }
      | none => t
    { t with icLines := t.icLines ++ [l] }

/-- Whose locks: strand k's running unit has key k, the record in its slot 1 key k + 4 (R43, R262). -/
def preloadKey (k : Nat) : Nat := k + 4

/-- Locks a line under a key, where the limit of 512 allows (R261). -/
def Braid.lockLine (t : Braid) (key w line : Nat) : Option Braid :=
  if t.icLocks.contains (key, line, w) then some t
  else if t.icLocks.any (fun e => e.2 == (line, w)) || t.lockedLines < 512 then
    some { t.icAdd (line, w) with icLocks := t.icLocks ++ [(key, line, w)] }
  else none

/-- Locks lines in ascending order: the braid, and the lines now locked under the key. From the line the limit refuses on, it locks no more, and counts what
is locked already. -/
def lockLines (s : State) (b key w : Nat) : List Nat → Braid → List Nat → Braid × List Nat
  | [], t, got => (t, got)
  | l :: ls, t, got =>
    if (fetchFault s b w l).isSome then lockLines s b key w ls t got
    else match t.lockLine key w l with
      | some t' => lockLines s b key w ls t' (got ++ [l])
      | none => (t, got ++ ls.filter fun m => t.icLocks.contains (key, m, w))

/-- The line addresses that cover a byte range. -/
def linesOf (a n : Nat) : List Nat := if n = 0 then [] else (List.range ((a + n - 1) / 128 - a / 128 + 1)).map fun i => (a / 128 + i) * 128

/-- A scalar result that is scoreboarded (R75). -/
def Ctx.putSbd (x : Ctx) (slot cell : Nat) (v : Word) (s : State) : State :=
  x.mod (·.addSbd { dests := [.x cell, .latch slot], effs := [.x cell v, .latch slot v x.st.c.gen], tok := none, req := none, due := none }) s

def ilockOp (f : FmtMIl) (x : Ctx) : SlotOp :=
  let cell := x.r.cellX f.dst.toNat
  let a := bits (x.opnd f.a) 1 47 * 2
  let n := min (x.opnd f.n).toNat 65536
  { slot := 3
    runs := x.on f.pred
    guard := f.pred
    reads := x.resOf f.pred [f.a, f.n]
    dests := [.x cell, .latch 3]
    traps := x.latchTraps 3 [f.a, f.n]
    eff := fun s =>
      if n = 0 then
        x.putSbd 3 cell (BitVec.ofNat 64 (((s.braid x.b).icLocks.filter fun e => e.1 == x.k).length % 65536 + (if x.st.ilockLost then 2 ^ 63 else 0))) s
      else
        let (t, got) := lockLines s x.b x.k x.world (linesOf a n) (s.braid x.b) []
        x.putSbd 3 cell (BitVec.ofNat 64 got.length) (s.setBraid x.b t) }

def iunlkOp (f : FmtMIu) (x : Ctx) : SlotOp :=
  let a := (x.opnd f.a).toNat
  let n := (x.opnd f.n).toNat
  { slot := 3
    runs := x.on f.pred
    guard := f.pred
    reads := x.resOf f.pred [f.a, f.n]
    traps := x.latchTraps 3 [f.a, f.n]
    eff := fun s => s.modBraid x.b fun t => { t with icLocks := t.icLocks.filter fun e =>
      !(e.1 == x.k && (n == 0 || (a / 128 * 128 ≤ e.2.1 && e.2.1 < a + n))) } }

/-! Slabs (R263 to R265, R364). -/

/-- The status of a slab define (R265). -/
def defStatus (s : State) (b w : Nat) (v : Word) : Nat :=
  let t := s.braid b
  let id := bits v 26 6
  let bank := bits v 21 5
  let off := bits v 13 8
  let size := bits v 4 9
  let e := t.slabOf id
  if bits v 32 32 != 0 || bits v 0 4 != 0 || size == 0 || 256 < size || 256 < off + size || 23 < bank then 2
  else if Store.get t.bankTag bank w != w || (slabSize e != 0 && slabWorld e != w) then 8
  else if slabSize e ≠ 0 then 5
  else if t.switching bank || s.bankReserved b bank || (t.bankModeOf bank == 1 && Store.get t.bankLast bank w != w) then 1
  else if t.bankModeOf bank ≠ 1 then 4
  else if (t.slabsIn bank).any (fun i => let u := t.slabOf i; off < slabOffset u + slabSize u && slabOffset u < off + size) then 3
  else 0

/-- A slab define (R264): it takes effect, or zeroes a bank that last held another world's bytes (R364). -/
def slabDefine (s : State) (b k w : Nat) (v : Word) (ready : Bool) : State × Nat :=
  let bank := bits v 21 5
  match defStatus s b w v with
  | 0 => (s.modBraid b fun t => { t with
      slab := Store.put t.slab (bits v 26 6) (mkSlab w (if ready then 2 else 0) k (bits v 4 9) (bits v 13 8) bank)
      bankTag := Store.put t.bankTag bank w, bankLast := Store.del t.bankLast bank }, 0)
  | 1 => (s.modBraid b fun t =>
      if t.switching bank || s.bankReserved b bank then t
      else { t with pad := t.pad.filter (fun e => e.1 / 65536 != bank), bankLast := Store.del t.bankLast bank }, 1)
  | c => (s, c)

/-- A slab is released; a bank with none left loses its tag (R70, R364). -/
def Braid.freeSlab (t : Braid) (id : Nat) : Braid :=
  let e := t.slabOf id
  let t := { t with slab := Store.del t.slab id }
  if (t.slabsIn (slabBank e)).isEmpty then
    { t with bankTag := Store.del t.bankTag (slabBank e), bankLast := Store.put t.bankLast (slabBank e) (slabWorld e) }
  else t

/-- REL, RDY and EMP by a strand: the state after and the status (R72, R265). SUB 1, 3, 4. -/
def slabChange (s : State) (b k w id sub : Nat) : State × Nat :=
  let e := (s.braid b).slabOf id
  let st := slabState e
  if slabSize e = 0 then (s, 6)
  else if slabWorld e ≠ w then (s, 8)
  else if slabOwner e ≠ k then (s, 7)
  else match sub with
    | 1 => if st == 0 || st == 2 || st == 4 then (s.modBraid b (·.freeSlab id), 0) else (s, 1)
    | 3 => if st == 0 then (s.modBraid b (·.setSlabState id 2), 0) else (s, 1)
    | _ => if st == 2 || st == 4 then (s.modBraid b (·.setSlabState id 0), 0) else (s, 1)

/-- A SLAB operation: what it does and what d receives. -/
def slabOp (f : FmtMSl) (x : Ctx) (go : State → State × Word) : SlotOp :=
  let cell := x.r.cellX f.dst.toNat
  { slot := 3
    runs := x.on f.pred
    guard := f.pred
    reads := x.resOf f.pred [f.x]
    dests := [.x cell, .latch 3]
    traps := x.latchTraps 3 [f.x]
    eff := fun s => let (s', v) := go s; x.putSbd 3 cell v s'
    cls := some 5 }

/-- The slab id of an operand. -/
def Ctx.slabId (x : Ctx) (f : FmtMSl) : Nat := bits (x.opnd f.x) 0 6

def slabDefOp (f : FmtMSl) (x : Ctx) : SlotOp :=
  slabOp f x fun s => let (s', c) := slabDefine s x.b x.k x.world (x.opnd f.x) false; (s', BitVec.ofNat 64 c)
def slabRelOp (f : FmtMSl) (x : Ctx) : SlotOp :=
  slabOp f x fun s => let (s', c) := slabChange s x.b x.k x.world (x.slabId f) 1; (s', BitVec.ofNat 64 c)
def slabQryOp (f : FmtMSl) (x : Ctx) : SlotOp :=
  slabOp f x fun s => let e := (s.braid x.b).slabOf (x.slabId f); (s, if slabSize e = 0 ∨ slabWorld e ≠ x.world then 0 else e)
def slabRdyOp (f : FmtMSl) (x : Ctx) : SlotOp :=
  slabOp f x fun s => let (s', c) := slabChange s x.b x.k x.world (x.slabId f) 3; (s', BitVec.ofNat 64 c)
def slabEmpOp (f : FmtMSl) (x : Ctx) : SlotOp :=
  slabOp f x fun s => let (s', c) := slabChange s x.b x.k x.world (x.slabId f) 4; (s', BitVec.ofNat 64 c)

/-! The meanings of slot M. -/

def execNopM (s : State) : Host.Outcome State Fault Refusal := issueOne .nopM (fun _ => nopOp 3) s
def execLdI8 (f : FmtML) (s : State) : Host.Outcome State Fault Refusal := issueOne (.ldI8 f) (ldI8Op f) s
def execLdW8 (f : FmtML) (s : State) : Host.Outcome State Fault Refusal := issueOne (.ldW8 f) (ldW8Op f) s
def execLdI16 (f : FmtML) (s : State) : Host.Outcome State Fault Refusal := issueOne (.ldI16 f) (ldI16Op f) s
def execLdW16 (f : FmtML) (s : State) : Host.Outcome State Fault Refusal := issueOne (.ldW16 f) (ldW16Op f) s
def execLdI32 (f : FmtML) (s : State) : Host.Outcome State Fault Refusal := issueOne (.ldI32 f) (ldI32Op f) s
def execLdW32 (f : FmtML) (s : State) : Host.Outcome State Fault Refusal := issueOne (.ldW32 f) (ldW32Op f) s
def execLd64 (f : FmtML) (s : State) : Host.Outcome State Fault Refusal := issueOne (.ld64 f) (ld64Op f) s
def execSt8 (f : FmtMS) (s : State) : Host.Outcome State Fault Refusal := issueOne (.st8 f) (st8Op f) s
def execSt16 (f : FmtMS) (s : State) : Host.Outcome State Fault Refusal := issueOne (.st16 f) (st16Op f) s
def execSt32 (f : FmtMS) (s : State) : Host.Outcome State Fault Refusal := issueOne (.st32 f) (st32Op f) s
def execSt64 (f : FmtMS) (s : State) : Host.Outcome State Fault Refusal := issueOne (.st64 f) (st64Op f) s
def execLdt (f : FmtMT) (s : State) : Host.Outcome State Fault Refusal := issueOne (.ldt f) (ldtOp f) s
def execStt (f : FmtMT) (s : State) : Host.Outcome State Fault Refusal := issueOne (.stt f) (sttOp f) s
def execLdtf (f : FmtMT) (s : State) : Host.Outcome State Fault Refusal := issueOne (.ldtf f) (ldtfOp f) s
def execSttf (f : FmtMT) (s : State) : Host.Outcome State Fault Refusal := issueOne (.sttf f) (sttfOp f) s
def execAmoAdd (f : FmtMA) (s : State) : Host.Outcome State Fault Refusal := issueOne (.amoAdd f) (amoAddOp f) s
def execAmoMinI (f : FmtMA) (s : State) : Host.Outcome State Fault Refusal := issueOne (.amoMinI f) (amoMinIOp f) s
def execAmoMaxI (f : FmtMA) (s : State) : Host.Outcome State Fault Refusal := issueOne (.amoMaxI f) (amoMaxIOp f) s
def execAmoAnd (f : FmtMA) (s : State) : Host.Outcome State Fault Refusal := issueOne (.amoAnd f) (amoAndOp f) s
def execAmoOr (f : FmtMA) (s : State) : Host.Outcome State Fault Refusal := issueOne (.amoOr f) (amoOrOp f) s
def execAmoXor (f : FmtMA) (s : State) : Host.Outcome State Fault Refusal := issueOne (.amoXor f) (amoXorOp f) s
def execAmoSwp (f : FmtMA) (s : State) : Host.Outcome State Fault Refusal := issueOne (.amoSwp f) (amoSwpOp f) s
def execAmoCas (f : FmtMA) (s : State) : Host.Outcome State Fault Refusal := issueOne (.amoCas f) (amoCasOp f) s
def execAmoFadd (f : FmtMA) (s : State) : Host.Outcome State Fault Refusal := issueOne (.amoFadd f) (amoFaddOp f) s
def execPref (f : FmtMP) (s : State) : Host.Outcome State Fault Refusal := issueOne (.pref f) (prefOp f) s
def execFenceC (f : FmtMFc) (s : State) : Host.Outcome State Fault Refusal := issueOne (.fenceC f) (fenceCOp f) s
def execFenceX (f : FmtMFx) (s : State) : Host.Outcome State Fault Refusal := issueOne (.fenceX f) (fenceXOp f) s
def execFenceE (f : FmtMZ) (s : State) : Host.Outcome State Fault Refusal := issueOne (.fenceE f) (fenceEOp f) s
def execIlock (f : FmtMIl) (s : State) : Host.Outcome State Fault Refusal := issueOne (.ilock f) (ilockOp f) s
def execIunlk (f : FmtMIu) (s : State) : Host.Outcome State Fault Refusal := issueOne (.iunlk f) (iunlkOp f) s
def execSlabDef (f : FmtMSl) (s : State) : Host.Outcome State Fault Refusal := issueOne (.slabDef f) (slabDefOp f) s
def execSlabRel (f : FmtMSl) (s : State) : Host.Outcome State Fault Refusal := issueOne (.slabRel f) (slabRelOp f) s
def execSlabQry (f : FmtMSl) (s : State) : Host.Outcome State Fault Refusal := issueOne (.slabQry f) (slabQryOp f) s
def execSlabRdy (f : FmtMSl) (s : State) : Host.Outcome State Fault Refusal := issueOne (.slabRdy f) (slabRdyOp f) s
def execSlabEmp (f : FmtMSl) (s : State) : Host.Outcome State Fault Refusal := issueOne (.slabEmp f) (slabEmpOp f) s

end Sys2Proof.Machine
end

