-- ==== Sys2Proof/Machine/Control.lean ====
section
/-!
DEFINITION. Slot C (R215 to R233): branches, calls and the link stack, hardware loops, SAFE, YIELD, HALT, TRAP, BRK, barriers, ERET.
-/

namespace Sys2Proof.Machine

/-! Targets (R193, R215). -/

/-- A target counted from the transfer's own bundle or tag word. -/
def Ctx.relTarget (x : Ctx) (n : Int) : Nat := ((x.pc : Int) + n * (if x.native then 32 else 4)).emod (2 ^ 64) |>.toNat

/-- A direct target outside its own native region makes the bundle illegal (R193). -/
def Ctx.directTraps (x : Ctx) (t : Nat) : List Trap :=
  let base := regionOf x.pc
  let ok := match regionHeader x.s x.b x.world base with
    | some (n, _) => base + 64 < t && (t - 1 - base - 64) / 32 < n
    | none => false
  trapIf (x.native && !ok) { cause := 0x01, step := 3 }

/-- The checks of an indirect target (R215, R195); one that a fetch would fault on is left to its own bundle. -/
def Ctx.indirectTraps (x : Ctx) (t : Nat) : List Trap :=
  let bad : Trap := { cause := 0x0B, step := 7, addr := t }
  if t % 2 = 0 then trapIf (t / 2 % 2 == 1) bad
  else if (fetchFault x.s x.b x.world (t - 1)).isSome then []
  else
    let base := regionOf t
    match regionHeader x.s x.b x.world base with
    | none => [bad]
    | some (n, sig) =>
      if base + 64 < t ∧ (t - 1 - base) % 32 = 0 ∧ (t - 1 - base - 64) / 32 < n then trapIf (sig != x.br.sig) { cause := 0x14, step := 5 } else [bad]

/-- The bundle is the last of the body of the top loop entry at its call depth (R225). -/
def Ctx.lastOfBody (x : Ctx) : Bool :=
  match x.st.c.loops with
  | e :: _ => e.last == x.pc && e.depth == x.st.c.callDepth
  | [] => false

def Ctx.endTraps (x : Ctx) : List Trap := trapIf x.lastOfBody { cause := 0x01, step := 3 }

/-! Branches (R216). -/

/-- A direct branch: taken when it runs. -/
def branchOp (x : Ctx) (runs : Bool) (pred : BitVec 3) (n : Int) : SlotOp where
  slot := 0
  runs := runs
  guard := pred
  reads := x.resOf pred []
  early := x.directTraps (x.relTarget n)
  cls := some 0
  flow := .goto (BitVec.ofNat 64 (x.relTarget n))

def brOp (f : FmtCB) (x : Ctx) : SlotOp := branchOp x (x.on f.pred) f.pred f.off.toInt
def brnOp (f : FmtCB) (x : Ctx) : SlotOp := branchOp x (!x.on f.pred) f.pred f.off.toInt
def brLOp (f : FmtCL) (x : Ctx) : SlotOp := branchOp x (x.on f.pred) f.pred f.lng.toInt

def briOp (f : FmtCO) (x : Ctx) : SlotOp where
  slot := 0
  runs := x.on f.pred
  guard := f.pred
  reads := x.resOf f.pred [f.tgt]
  traps := x.latchTraps 0 [f.tgt] ++ x.indirectTraps (x.opnd f.tgt).toNat
  cls := some 0
  flow := .goto (x.opnd f.tgt)

/-! Calls and the link stack (R217 to R221). -/

/-- A spill entry in memory (R221). -/
def LinkEntry.word (e : LinkEntry) : Nat := e.depth.toNat * 2 ^ 48 + e.ret.toNat

/-- The spill of the oldest entry (R218). -/
def Ctx.spill (x : Ctx) : MemOp := { slot := 0, va := x.st.c.linkTop.toNat, size := 8, acc := .store, dbg := false }

/-- The link stack is full. -/
def Ctx.linkFull (x : Ctx) : Bool := 8 ≤ x.st.c.links.length

/-- A call's effect on the link stack. -/
def Ctx.pushLink (x : Ctx) (s : State) : State :=
  let c := x.st.c
  let e : LinkEntry := { ret := BitVec.ofNat 48 x.next, depth := BitVec.ofNat 3 c.loops.length }
  let s := if x.linkFull then x.send (x.mkReq x.spill 0x0B (BitVec.ofNat 2048 ((c.links.getLast?.map LinkEntry.word).getD 0)) 0 0 0 0) (x.useTlb x.spill.va s) else s
  x.mod (fun t => { t with c := { t.c with
    links := e :: (if x.linkFull then c.links.dropLast else c.links)
    linkTop := if x.linkFull then c.linkTop + 8 else c.linkTop
    callDepth := c.callDepth + 1 } }) s

/-- A call to a target. -/
def callOp' (x : Ctx) (pred : BitVec 3) (os : List Operand) (early traps : List Trap) (t : Word) : SlotOp where
  slot := 0
  runs := x.on pred
  guard := pred
  reads := x.resOf pred os
  early := early
  traps := x.latchTraps 0 os ++ x.endTraps ++ traps ++
    (if x.linkFull then
      trapIf (x.st.c.linkLimit.toNat < x.st.c.linkTop.toNat + 8) { cause := 0x05, step := 5 } ++ x.memTraps x.spill else [])
  walks := if x.linkFull then [x.spill.va] else []
  stage1 := x.linkFull && x.ownXfer x.spill
  wait := x.linkFull && x.memWait x.spill
  eff := x.pushLink
  cls := some 0
  flow := .goto t

def callOp (f : FmtCB) (x : Ctx) : SlotOp :=
  callOp' x f.pred [] (x.directTraps (x.relTarget f.off.toInt)) [] (BitVec.ofNat 64 (x.relTarget f.off.toInt))
def callLOp (f : FmtCL) (x : Ctx) : SlotOp :=
  callOp' x f.pred [] (x.directTraps (x.relTarget f.lng.toInt)) [] (BitVec.ofNat 64 (x.relTarget f.lng.toInt))
def calliOp (f : FmtCO) (x : Ctx) : SlotOp := callOp' x f.pred [f.tgt] [] (x.indirectTraps (x.opnd f.tgt).toNat) (x.opnd f.tgt)

/-- The refill of the newest spilled entry (R219). -/
def Ctx.refill (x : Ctx) : MemOp := { slot := 0, va := x.st.c.linkTop.toNat - 8, size := 8, acc := .load, dbg := false }

/-- The entry RET pops, where it can be read. -/
def Ctx.retEntry (x : Ctx) : Option LinkEntry :=
  match x.st.c.links with
  | e :: _ => some e
  | [] => (x.paOf x.refill.va).map fun pa =>
      let v := leNat (readBuf x.s x.b x.arm pa 8)
      { ret := BitVec.ofNat 48 v, depth := BitVec.ofNat 3 (v / 2 ^ 48) }

/-- The refill as a request of class c0 (R221). -/
def Ctx.refillReq (x : Ctx) : Req := x.mkReq x.refill 34 0 0 64 0 0

/-- A refill of the strand is held (R107, R135). -/
def Strand.refilling (t : Strand) : Bool := t.sbd.any fun v => v.req.any fun r => r.2.op == 34

/-- The refill cannot be made now: RET waits. -/
def Ctx.refillHeld (x : Ctx) : Bool := x.st.refilling || (reqHeld x.s x.b x.k x.world x.refillReq).isSome

/-- A refill that cannot be made is held, once. -/
def Ctx.holdRefill (x : Ctx) (s : State) : State :=
  if x.st.refilling then s
  else match reqHeld s x.b x.k x.world x.refillReq with
    | some (s, i, lost) => s.holdReq x.b x.k { dests := [], effs := [], tok := none, req := some (i, x.refillReq), due := none, lost := lost }
    | none => s

def retOp (f : FmtCZ) (x : Ctx) : SlotOp :=
  let c := x.st.c
  let empty := c.links.isEmpty
  let e := x.retEntry
  let own := if empty then trapIf (c.linkTop.toNat ≤ c.linkBase.toNat) { cause := 0x05, step := 5 } ++ x.memTraps x.refill else []
  { slot := 0
    runs := x.on f.pred
    guard := f.pred
    reads := x.resOf f.pred []
    -- the entry is loaded before its target is checked
    traps := x.endTraps ++ own ++
      (if own.isEmpty && !(empty && x.refillHeld) then (match e with | some e => x.indirectTraps e.ret.toNat | none => []) else [])
    walks := if empty then [x.refill.va] else []
    stage1 := empty && x.ownXfer x.refill
    wait := empty && x.refillHeld
    pre := fun s => if empty then x.holdRefill s else s
    eff := fun s =>
      let s := if empty then (x.refillReq.performBy (x.useTlb x.refill.va s) x.b x.k).1 else s
      x.mod (fun t => { t with c := { t.c with
        links := t.c.links.drop 1
        linkTop := if empty then t.c.linkTop - 8 else t.c.linkTop
        loops := t.c.loops.drop (t.c.loops.length - ((e.map (·.depth.toNat)).getD 0))
        callDepth := t.c.callDepth - 1 } }) s
    cls := some 0
    flow := .goto ((e.map (·.ret.setWidth 64)).getD 0) }

/-! Loops (R222 to R226). -/

/-- The address of block n after an address in dense form; a tag that cannot be read counts one word (log 14). -/
def Ctx.blockAfter (x : Ctx) : Nat → Nat → Nat
  | 0, a => a
  | n + 1, a =>
    let words := match readVALE x.s x.b x.world a 4 with
      | .ok tag => 1 + tagCount (BitVec.ofNat 32 tag)
      | .error _ => 1
    x.blockAfter n (a + 4 * words)

/-- The last bundle of a body of len bundles and the address after it (R223). -/
def Ctx.bodyEnd (x : Ctx) (len : Nat) : Nat × Nat :=
  if x.native then (x.pc + 32 * len, x.pc + 32 * (len + 1))
  else
    let last := x.blockAfter (len - 1) x.next
    (last, x.blockAfter 1 last)

/-- The illegal bodies of R225. -/
def Ctx.bodyTraps (x : Ctx) (len last : Nat) : List Trap :=
  let base := regionOf x.pc
  let beyond := x.native && (match regionHeader x.s x.b x.world base with
    | some (n, _) => decide (n ≤ (x.pc - 1 - base - 64) / 32 + len)
    | none => true)
  let outer := match x.st.c.loops.find? (·.depth == x.st.c.callDepth) with
    | some e => decide (e.last < last)
    | none => false
  trapIf (beyond || outer) { cause := 0x01, step := 3 }

/-- A loop of a count, with N for a rotating one. -/
def loopOp' (x : Ctx) (pred : BitVec 3) (os : List Operand) (len count : Nat) (rot : Option Nat) : SlotOp :=
  let (last, exit) := x.bodyEnd len
  let e : LoopEntry := { first := x.next, last := last, exit := exit, count := count, n := rot.getD 0, idx := 0, depth := x.st.c.callDepth, rot := rot.isSome }
  { slot := 0
    runs := x.on pred
    guard := pred
    reads := x.resOf pred os
    dests := if rot.isSome then [.p (x.r.cellP 4), .p (x.r.cellP 5), .p (x.r.cellP 6), .p (x.r.cellP 7)] else []
    traps := x.latchTraps 0 os ++ x.bodyTraps len last ++ trapIf (count != 0 && 6 ≤ x.st.c.loops.length) { cause := 0x04, step := 5 }
    eff := fun s => if count = 0 then s else x.mod (fun t =>
      let t := { t with c := { t.c with loops := e :: t.c.loops } }
      match rot with
      | none => t
      | some n => t.addPends (x.br.latency 0) [.p (x.r.cellP 4) (decide (0 < n)), .p (x.r.cellP 5) false, .p (x.r.cellP 6) false, .p (x.r.cellP 7) false]) s
    cls := some 0
    flow := if count = 0 then .skip exit last else .seq }

def loopOp (f : FmtCR) (x : Ctx) : SlotOp := loopOp' x f.pred [f.cnt] f.len.toNat (bits (x.opnd f.cnt) 0 32) none
def looprOp (f : FmtCR) (x : Ctx) : SlotOp :=
  let c := x.opnd f.cnt
  loopOp' x f.pred [f.cnt] f.len.toNat (bits c 0 32 + bits c 32 2) (some (bits c 0 32))
def loopLOp (f : FmtCRL) (x : Ctx) : SlotOp := loopOp' x f.pred [] f.len.toNat f.lng.toNat none

/-- The top loop entry at the current call depth. -/
def Ctx.topHere (x : Ctx) : Option LoopEntry :=
  match x.st.c.loops with
  | e :: _ => if e.depth = x.st.c.callDepth then some e else none
  | [] => none

def leaveOp (f : FmtCZ) (x : Ctx) : SlotOp where
  slot := 0
  runs := x.on f.pred
  guard := f.pred
  reads := x.resOf f.pred []
  traps := trapIf x.topHere.isNone { cause := 0x04, step := 5 }
  eff := x.mod fun t => { t with c := { t.c with loops := t.c.loops.drop 1 } }
  cls := some 0
  flow := .goto (BitVec.ofNat 64 ((x.topHere.map (·.exit)).getD 0))

/-! Safe points, yields, ends (R227 to R230). -/

def safeOp (f : FmtCX) (x : Ctx) : SlotOp where
  slot := 0
  runs := x.on f.pred
  guard := f.pred
  reads := x.resOf f.pred []
  cls := some 0
  safe := some f.code.toNat

/-- The strand gives up the lease (R58, R228). -/
def Ctx.endRun (x : Ctx) (s : State) : State :=
  (s.modBraid x.b (·.dropLease x.k)).modStrand x.b x.k fun t => { t with c := { t.c with leaseHas := false } }

/-- YIELD ends the strand's run; a request it has pending stays in arbitration (R60, R228). -/
def Ctx.yieldRun (x : Ctx) (s : State) : State :=
  (s.modBraid x.b fun t => { t with holder := none, left := 0 }).modStrand x.b x.k fun t =>
    { t with c := { t.c with leaseHas := x.br.leaseReqs.any (·.strand == x.k) } }

/-- A packet that waits for router injection at a braid (R57). -/
def Packet.waits (p : Packet) (b : Nat) : Bool := p.at_ == .router b && p.arrived == startsHere && !p.net && !p.delivered

/-- The shared resources of R57 on which the strand has a request pending: the lease, the engines, router injection. -/
def Ctx.waitingFor (x : Ctx) : List Nat :=
  (if x.br.leaseReqs.any (·.strand == x.k) then [0] else []) ++
  ([0, 1, 2].filter fun g => x.br.cmds.any fun c => c.strand == x.k && !c.begun && c.engine == g).map (· + 1) ++
  (if x.s.packets.any fun p => p.waits x.b && p.owner.any fun o => o.1 == x.b && x.br.cmds.any fun c => c.seq == o.2 && c.strand == x.k then [4] else [])

def yieldOp (f : FmtCZ) (x : Ctx) : SlotOp where
  slot := 0
  runs := x.on f.pred
  guard := f.pred
  reads := x.resOf f.pred []
  eff := fun s => x.mod (fun t => { t with yielded := x.waitingFor }) (if x.br.holder = some x.k then x.yieldRun s else s)
  cls := some 0

def haltOp (f : FmtCZ) (x : Ctx) : SlotOp where
  slot := 0
  runs := x.on f.pred
  guard := f.pred
  reads := x.resOf f.pred []
  cls := some 0
  flow := .halt

def trapOp (f : FmtCX) (x : Ctx) : SlotOp where
  slot := 0
  runs := x.on f.pred
  guard := f.pred
  reads := x.resOf f.pred []
  traps := [{ cause := 0x11, step := 10, code := f.code.toNat }]
  cls := some 0

def brkOp (f : FmtCX) (x : Ctx) : SlotOp where
  slot := 0
  runs := x.on f.pred
  guard := f.pred
  reads := x.resOf f.pred []
  traps := [{ cause := 0x12, step := 10, code := f.code.toNat, brk := true }]
  cls := some 0

/-! Barriers (R61, R233). -/

/-- A strand's recorded arrival is released. -/
def Strand.release (t : Strand) (j : Nat) : Strand := { t with c := { t.c with barArr := Store.del t.c.barArr j } }

/-- The generation flips: every arrival recorded at the barrier is released (R61). -/
def flipBar (s : State) (b j : Nat) : State :=
  let s := s.modBraid b fun t =>
    let v := Store.get t.bars j {}
    { t with bars := Store.put t.bars j { v with gen := !v.gen, arrived := 0 } }
  let s := (List.range 4).foldl (fun s k => if Store.has (s.strand b k).c.barArr j then s.modStrand b k (·.release j) else s) s
  { s with images := s.images.map fun i => if i.braid == b then { i with body := i.body.release j } else i }

/-- A strand arrives at a barrier. -/
def arriveBar (s : State) (b k j : Nat) : State :=
  let v := Store.get (s.braid b).bars j {}
  let s := s.modStrand b k fun t => { t with c := { t.c with barArr := Store.put t.c.barArr j v.gen } }
  let s := s.modBraid b fun t => { t with bars := Store.put t.bars j { v with arrived := v.arrived + 1 } }
  if v.expected ≤ v.arrived + 1 then flipBar s b j else s

/-- An arrival of the strand is unreleased. -/
def State.unreleased (s : State) (b k j : Nat) : Bool := Store.has (s.strand b k).c.barArr j

/-- The checks of R233. -/
def Ctx.barTraps (x : Ctx) (j : Nat) (arrives : Bool) : List Trap :=
  trapIf (dBarCfg x.desc j == 0 || (arrives && x.s.unreleased x.b x.k j)) { cause := 0x16, step := 6 }

def barArrOp (f : FmtCBar) (x : Ctx) : SlotOp where
  slot := 0
  runs := x.on f.pred
  guard := f.pred
  reads := x.resOf f.pred []
  traps := x.barTraps f.bar.toNat true
  wait := x.st.heldAccess
  eff := fun s => arriveBar s x.b x.k f.bar.toNat
  cls := some 0

def barWaitOp (f : FmtCBar) (x : Ctx) : SlotOp where
  slot := 0
  runs := x.on f.pred
  guard := f.pred
  reads := x.resOf f.pred []
  traps := x.barTraps f.bar.toNat false
  wait := x.s.unreleased x.b x.k f.bar.toNat
  cls := some 0

/-- The arrival of BAR.SYNC, once, when its bundle reaches issue: an arrival waits for the strand's held accesses, which its release orders (R114; log 53, DEDUCED). -/
def Ctx.syncArrive (x : Ctx) (j : Nat) (s : State) : State :=
  if x.st.c.syncArr || x.st.heldAccess then s
  else (arriveBar s x.b x.k j).modStrand x.b x.k fun t => { t with c := { t.c with syncArr := true } }

def barSyncOp (f : FmtCBar) (x : Ctx) : SlotOp where
  slot := 0
  runs := x.on f.pred
  guard := f.pred
  reads := x.resOf f.pred []
  traps := x.barTraps f.bar.toNat (!x.st.c.syncArr)
  pre := x.syncArrive f.bar.toNat
  wait := (!x.st.c.syncArr && x.st.heldAccess) || (x.syncArrive f.bar.toNat x.s).unreleased x.b x.k f.bar.toNat
  eff := x.mod fun t => { t with c := { t.c with syncArr := false } }
  cls := some 0

def eretOp (f : FmtCZ) (x : Ctx) : SlotOp where
  slot := 0
  runs := x.on f.pred
  guard := f.pred
  reads := x.resOf f.pred []
  early := x.privTrap 0
  traps := trapIf (!x.st.c.trapCtl.getLsbD 3) { cause := 0x03, step := 4 } ++ x.endTraps ++ x.indirectTraps x.st.c.trapEpc.toNat
  cls := some 0
  flow := .eret

/-! The meanings of slot C. -/

def execNopC (s : State) : Host.Outcome State Fault Refusal := issueOne .nopC (fun _ => nopOp 0) s
def execBr (f : FmtCB) (s : State) : Host.Outcome State Fault Refusal := issueOne (.br f) (brOp f) s
def execBrn (f : FmtCB) (s : State) : Host.Outcome State Fault Refusal := issueOne (.brn f) (brnOp f) s
def execBrL (f : FmtCL) (s : State) : Host.Outcome State Fault Refusal := issueOne (.brL f) (brLOp f) s
def execBri (f : FmtCO) (s : State) : Host.Outcome State Fault Refusal := issueOne (.bri f) (briOp f) s
def execCall (f : FmtCB) (s : State) : Host.Outcome State Fault Refusal := issueOne (.call f) (callOp f) s
def execCallL (f : FmtCL) (s : State) : Host.Outcome State Fault Refusal := issueOne (.callL f) (callLOp f) s
def execCalli (f : FmtCO) (s : State) : Host.Outcome State Fault Refusal := issueOne (.calli f) (calliOp f) s
def execRet (f : FmtCZ) (s : State) : Host.Outcome State Fault Refusal := issueOne (.ret f) (retOp f) s
def execLoop (f : FmtCR) (s : State) : Host.Outcome State Fault Refusal := issueOne (.loop f) (loopOp f) s
def execLoopr (f : FmtCR) (s : State) : Host.Outcome State Fault Refusal := issueOne (.loopr f) (looprOp f) s
def execLoopL (f : FmtCRL) (s : State) : Host.Outcome State Fault Refusal := issueOne (.loopL f) (loopLOp f) s
def execLeave (f : FmtCZ) (s : State) : Host.Outcome State Fault Refusal := issueOne (.leave f) (leaveOp f) s
def execSafe (f : FmtCX) (s : State) : Host.Outcome State Fault Refusal := issueOne (.safe f) (safeOp f) s
def execYield (f : FmtCZ) (s : State) : Host.Outcome State Fault Refusal := issueOne (.yield f) (yieldOp f) s
def execHalt (f : FmtCZ) (s : State) : Host.Outcome State Fault Refusal := issueOne (.halt f) (haltOp f) s
def execTrap (f : FmtCX) (s : State) : Host.Outcome State Fault Refusal := issueOne (.trap f) (trapOp f) s
def execBrk (f : FmtCX) (s : State) : Host.Outcome State Fault Refusal := issueOne (.brk f) (brkOp f) s
def execBarArr (f : FmtCBar) (s : State) : Host.Outcome State Fault Refusal := issueOne (.barArr f) (barArrOp f) s
def execBarWait (f : FmtCBar) (s : State) : Host.Outcome State Fault Refusal := issueOne (.barWait f) (barWaitOp f) s
def execBarSync (f : FmtCBar) (s : State) : Host.Outcome State Fault Refusal := issueOne (.barSync f) (barSyncOp f) s
def execEret (f : FmtCZ) (s : State) : Host.Outcome State Fault Refusal := issueOne (.eret f) (eretOp f) s

end Sys2Proof.Machine
end

