-- ==== Sys2Proof/Machine/Vector.lean ====
section
/-!
DEFINITION. Slot V (R293 to R318): lanes and masks, elementwise operations, conversions, rotations, reductions, shuffles, partition,
gather and scatter, moves, accumulator reads and tile release.
-/

namespace Sys2Proof.Machine

/-! Lanes and types (R177, R293). -/

/-- Width of a TYPE. -/
def tyW (ty : Nat) : Nat := match ty with | 0 => 32 | 1 => 16 | 2 => 16 | 3 => 32 | 4 => 32 | 5 => 16 | _ => 8
def tyLanes (ty : Nat) : Nat := 2048 / tyW ty
def tyFloat (ty : Nat) : Bool := ty < 3
def tySigned (ty : Nat) : Bool := ty == 3 || ty == 5 || ty == 6
def tyFmt (ty : Nat) : FFmt := match ty with | 0 => f32 | 1 => bf16 | _ => f16

/-- The lanes of a row. -/
def lanesOf (w : Nat) (v : Row) : List Nat := (List.range (2048 / w)).map fun j => v.toNat / 2 ^ (w * j) % 2 ^ w

/-- A lane as a signed or unsigned integer. -/
def laneInt (ty c : Nat) : Int := if tySigned ty && 2 ^ (tyW ty - 1) ≤ c then (c : Int) - 2 ^ tyW ty else c

/-- An integer as a lane, modulo its width. -/
def intLane (w : Nat) (v : Int) : Nat := (v.emod (2 ^ w)).toNat

/-- A lane's value, and a value as a lane (R140, R153). -/
def decTy (ty c : Nat) : Num := if tyFloat ty then (tyFmt ty).decode c else Num.ofInt (laneInt ty c)
def encTy (ty : Nat) (r : Rnd) (v : Num) : Nat :=
  if tyFloat ty then (tyFmt ty).encode r v else intLane (tyW ty) (toIntSat (tySigned ty) (tyW ty) r v)

/-- A mask by its 2-bit name: 0 enables every lane. -/
def Regs.maskOf (r : Regs) (i : Nat) : BitVec 256 := if i = 0 then BitVec.allOnes 256 else Store.get r.mask i 0

/-- The bits of a row in lanes that a list enables. -/
def enableRow (w : Nat) (en : List Bool) : Row := packLanes w (en.map fun b => if b then 2 ^ w - 1 else 0)

/-- Lane enables of a mask. -/
def enables (m : BitVec 256) (n : Nat) : List Bool := (List.range n).map m.getLsbD

/-! Forms of slot V. -/

def Ctx.vrow (x : Ctx) (f : FmtV) : Nat := x.rowIndex f.row
def Ctx.vmask (x : Ctx) (f : FmtV) : BitVec 256 := x.r.maskOf f.msk.toNat
def Ctx.rowTA (x : Ctx) (f : FmtV) : Row := x.r.tileRow f.ta.toNat (x.vrow f)
def Ctx.rowTB (x : Ctx) (f : FmtV) : Row := x.r.tileRow f.tb.toNat (x.vrow f)
def Ctx.rowTD (x : Ctx) (f : FmtV) : Row := x.r.tileRow f.td.toNat (x.vrow f)
/-- Operand register o(TB). -/
def Ctx.oTB (x : Ctx) (f : FmtV) : Word := x.r.getX (48 + f.tb.toNat)
def Ctx.resTA (x : Ctx) (f : FmtV) : List Res := [.row f.ta.toNat (x.vrow f)]
def Ctx.resTB (x : Ctx) (f : FmtV) : List Res := [.row f.tb.toNat (x.vrow f)]
def Ctx.resO (_x : Ctx) (f : FmtV) : List Res := [.x (48 + f.tb.toNat)]
def Ctx.resMask (_x : Ctx) (f : FmtV) : List Res := if f.msk = 0 then [] else [.mask f.msk.toNat]
/-- Every row of a tile. -/
def tileRes (t : Nat) : List Res := (List.range 16).map fun i => .row t i

/-- An operation that writes one row under its mask (R294). -/
def vOp (x : Ctx) (f : FmtV) (cls : Nat) (reads : List Res) (out : List Nat) (traps : List Trap := []) : SlotOp where
  slot := 4
  runs := x.on f.pred
  guard := f.pred
  reads := x.resOf f.pred [] ++ x.resMask f ++ reads
  dests := [.row f.td.toNat (x.vrow f)]
  traps := traps
  eff := x.mod fun t => t.addPend (x.br.latency cls)
    (.tile f.td.toNat (x.vrow f) (packLanes (tyW f.ty.toNat) out) (enableRow (tyW f.ty.toNat) (enables (x.vmask f) out.length)))
  cls := some cls

/-- Elementwise on ta and tb. -/
def v2Op (x : Ctx) (f : FmtV) (cls : Nat) (g : Nat → Nat → Nat) : SlotOp :=
  let w := tyW f.ty.toNat
  vOp x f cls (x.resTA f ++ x.resTB f) (List.zipWith g (lanesOf w (x.rowTA f)) (lanesOf w (x.rowTB f)))

/-- Elementwise on td, ta and tb. -/
def v3Op (x : Ctx) (f : FmtV) (cls : Nat) (g : Nat → Nat → Nat → Nat) : SlotOp :=
  let w := tyW f.ty.toNat
  vOp x f cls (x.resTA f ++ x.resTB f ++ [.row f.td.toNat (x.vrow f)])
    (List.zipWith (fun d ab => g d ab.1 ab.2) (lanesOf w (x.rowTD f)) (List.zip (lanesOf w (x.rowTA f)) (lanesOf w (x.rowTB f))))

/-- Elementwise on ta. -/
def v1Op (x : Ctx) (f : FmtV) (cls : Nat) (g : Nat → Nat) : SlotOp :=
  vOp x f cls (x.resTA f) ((lanesOf (tyW f.ty.toNat) (x.rowTA f)).map g)

/-! Arithmetic, logic and shifts (R296, R297). -/

/-- A float operation of the type under FRM, or an integer one that wraps. -/
def vArith (x : Ctx) (f : FmtV) (g : FFmt → Rnd → Nat → Nat → Nat) (h : Int → Int → Int) (a b : Nat) : Nat :=
  let ty := f.ty.toNat
  if tyFloat ty then g (tyFmt ty) (Rnd.ofArith x.r.frm) a b else intLane (tyW ty) (h (laneInt ty a) (laneInt ty b))

def vFused (x : Ctx) (f : FmtV) (g : FFmt → Rnd → Nat → Nat → Nat → Nat) (h : Int → Int → Int → Int) (d a b : Nat) : Nat :=
  let ty := f.ty.toNat
  if tyFloat ty then g (tyFmt ty) (Rnd.ofArith x.r.frm) d a b else intLane (tyW ty) (h (laneInt ty d) (laneInt ty a) (laneInt ty b))

def vaddOp (f : FmtV) (x : Ctx) : SlotOp := v2Op x f 6 (vArith x f FFmt.add (· + ·))
def vsubOp (f : FmtV) (x : Ctx) : SlotOp := v2Op x f 6 (vArith x f FFmt.sub (· - ·))
def vmulOp (f : FmtV) (x : Ctx) : SlotOp := v2Op x f 7 (vArith x f FFmt.mul (· * ·))
def vfmaOp (f : FmtV) (x : Ctx) : SlotOp := v3Op x f 7 (vFused x f FFmt.fma fun d a b => d + a * b)
def vfmsOp (f : FmtV) (x : Ctx) : SlotOp := v3Op x f 7 (vFused x f FFmt.fms fun d a b => d - a * b)
def vminOp (f : FmtV) (x : Ctx) : SlotOp := v2Op x f 6 (vArith x f (fun t _ => t.min) min)
def vmaxOp (f : FmtV) (x : Ctx) : SlotOp := v2Op x f 6 (vArith x f (fun t _ => t.max) max)

/-- A float lane with its sign bit set to a value; a NaN is canonical. -/
def fSign (t : FFmt) (neg : Bool) (c : Nat) : Nat := if (t.decode c).isNan then t.nanCode else t.signed neg (c % 2 ^ (t.eb + t.mb))

def laneAbs (ty c : Nat) : Nat := if tyFloat ty then fSign (tyFmt ty) false c else intLane (tyW ty) (laneInt ty c).natAbs
def laneNeg (ty c : Nat) : Nat :=
  if tyFloat ty then fSign (tyFmt ty) (c / 2 ^ (tyW ty - 1) % 2 == 0) c else intLane (tyW ty) (-(laneInt ty c))

def vabsOp (f : FmtV) (x : Ctx) : SlotOp := v1Op x f 6 (laneAbs f.ty.toNat)
def vnegOp (f : FmtV) (x : Ctx) : SlotOp := v1Op x f 6 (laneNeg f.ty.toNat)
def vandOp (f : FmtV) (x : Ctx) : SlotOp := v2Op x f 6 (· &&& ·)
def vorOp (f : FmtV) (x : Ctx) : SlotOp := v2Op x f 6 (· ||| ·)
def vxorOp (f : FmtV) (x : Ctx) : SlotOp := v2Op x f 6 (· ^^^ ·)

/-- Shifts of a lane of width w by an unsigned amount. -/
def laneShl (w k c : Nat) : Nat := if k < w then c * 2 ^ k % 2 ^ w else 0
def laneShr (w k c : Nat) : Nat := if k < w then c / 2 ^ k else 0
def laneSar (w k c : Nat) : Nat :=
  let s : Int := if 2 ^ (w - 1) ≤ c then (c : Int) - 2 ^ w else c
  intLane w (s / 2 ^ (min k w))

def vShift (x : Ctx) (f : FmtV) (g : Nat → Nat → Nat → Nat) : SlotOp :=
  let o := v1Op x f 6 (g (tyW f.ty.toNat) (x.oTB f).toNat)
  { o with reads := x.resO f ++ o.reads }

def vshlOp (f : FmtV) (x : Ctx) : SlotOp := vShift x f laneShl
def vshrOp (f : FmtV) (x : Ctx) : SlotOp := vShift x f laneShr
def vsarOp (f : FmtV) (x : Ctx) : SlotOp := vShift x f laneSar

/-! Compares, selection, masks (R298 to R301). -/

/-- A mask register is written where m enables it. -/
def maskOp (x : Ctx) (f : FmtV) (reads : List Res) (v m : BitVec 256) : SlotOp where
  slot := 4
  runs := x.on f.pred
  guard := f.pred
  reads := x.resOf f.pred [] ++ reads
  dests := [.mask f.td.toNat]
  eff := x.mod fun t => t.addPend (x.br.latency 6) (.mask f.td.toNat v m)
  cls := some 6

/-- Bits of a list, bit 0 first. -/
def bitsOf (bs : List Bool) : BitVec 256 := BitVec.ofNat 256 (bs.foldr (fun b a => 2 * a + (if b then 1 else 0)) 0)

/-- Disabled bits stay; bits above the lanes are written zero. -/
def vcmp (x : Ctx) (f : FmtV) (g : FFmt → Nat → Nat → Bool) (h : Int → Int → Bool) : SlotOp :=
  let ty := f.ty.toNat
  let w := tyW ty
  let c := List.zipWith (fun a b => if tyFloat ty then g (tyFmt ty) a b else h (laneInt ty a) (laneInt ty b)) (lanesOf w (x.rowTA f)) (lanesOf w (x.rowTB f))
  maskOp x f (x.resMask f ++ x.resTA f ++ x.resTB f) (bitsOf c) (x.vmask f ||| ~~~ bitsOf (List.replicate (tyLanes ty) true))

def vcmpeqOp (f : FmtV) (x : Ctx) : SlotOp := vcmp x f FFmt.eqv (fun a b => a == b)
def vcmpneOp (f : FmtV) (x : Ctx) : SlotOp := vcmp x f (fun t a b => !t.eqv a b) (fun a b => a != b)
def vcmpltOp (f : FmtV) (x : Ctx) : SlotOp := vcmp x f FFmt.lt (fun a b => decide (a < b))
def vcmpleOp (f : FmtV) (x : Ctx) : SlotOp := vcmp x f FFmt.le (fun a b => decide (a ≤ b))

def vselOp (f : FmtV) (x : Ctx) : SlotOp :=
  let w := tyW f.ty.toNat
  let out := List.zipWith (fun (b : Bool) (p : Nat × Nat) => if b then p.1 else p.2) (enables (x.vmask f) (tyLanes f.ty.toNat))
    (List.zip (lanesOf w (x.rowTA f)) (lanesOf w (x.rowTB f)))
  { vOp x f 6 (x.resTA f ++ x.resTB f) out with
    eff := x.mod fun t => t.addPend (x.br.latency 6) (.tile f.td.toNat (x.vrow f) (packLanes w out) rowOnes) }

/-- Sources of a mask operation. -/
def maskRes (i : Nat) : List Res := if i = 0 then [] else [.mask i]

def vmskOp (x : Ctx) (f : FmtV) (g : BitVec 256 → BitVec 256 → BitVec 256) : SlotOp :=
  maskOp x f (maskRes f.ta.toNat ++ maskRes f.tb.toNat) (g (x.r.maskOf f.ta.toNat) (x.r.maskOf f.tb.toNat)) (BitVec.allOnes 256)

def vmskAndOp (f : FmtV) (x : Ctx) : SlotOp := vmskOp x f (· &&& ·)
def vmskOrOp (f : FmtV) (x : Ctx) : SlotOp := vmskOp x f (· ||| ·)
def vmskXorOp (f : FmtV) (x : Ctx) : SlotOp := vmskOp x f (· ^^^ ·)
def vmskAndnOp (f : FmtV) (x : Ctx) : SlotOp := vmskOp x f fun a b => a &&& ~~~ b
def vmskCopyOp (f : FmtV) (x : Ctx) : SlotOp := vmskOp x f fun a _ => a
def vmskNotOp (f : FmtV) (x : Ctx) : SlotOp := vmskOp x f fun a _ => ~~~ a
def vmskFirstOp (f : FmtV) (x : Ctx) : SlotOp :=
  maskOp x f (x.resO f) (bitsOf (List.replicate (min (x.oTB f).toNat (tyLanes f.ty.toNat)) true)) (BitVec.allOnes 256)

/-- Set bits among the first n. -/
def maskCount (m : BitVec 256) (n : Nat) : Nat := (enables m n).countP id

def vmcntOp (f : FmtV) (x : Ctx) : SlotOp :=
  let o := scalarOp x 4 f.pred false (48 + f.td.toNat) 6 [] (BitVec.ofNat 64 (maskCount (x.vmask f) (tyLanes f.ty.toNat)))
  { o with reads := x.resMask f ++ o.reads }

/-! Moves, splats, iota (R302 to R305). -/

def vmovOp (f : FmtV) (x : Ctx) : SlotOp := v1Op x f 6 id

/-- The bank o(N) names in the FIFO forms of VMOV (R303). -/
def Ctx.vbank (x : Ctx) (f : FmtV) : Nat := (x.r.getX (48 + f.tb.toNat % 4)).toNat

def vmovPopOp (f : FmtV) (x : Ctx) : SlotOp :=
  let w := tyW f.ty.toNat
  { slot := 4
    runs := x.on f.pred
    guard := f.pred
    reads := x.resOf f.pred [] ++ x.resMask f ++ [.x (48 + f.tb.toNat % 4)]
    dests := [.row f.td.toNat (x.vrow f)]
    traps := x.fifoTraps 4 (x.vbank f)
    fifo := some (x.vbank f)
    pop := true
    eff := x.popBank (x.vbank f) f.td.toNat (x.vrow f) (enableRow w (enables (x.vmask f) (tyLanes f.ty.toNat)))
    cls := some 5 }

def vmovPushOp (f : FmtV) (x : Ctx) : SlotOp :=
  let w := tyW f.ty.toNat
  { slot := 4
    runs := x.on f.pred
    guard := f.pred
    reads := x.resOf f.pred [] ++ x.resMask f ++ x.resTA f ++ [.x (48 + f.tb.toNat % 4)]
    traps := x.fifoTraps 4 (x.vbank f)
    fifo := some (x.vbank f)
    eff := x.pushBank (x.vbank f) (x.rowTA f &&& enableRow w (enables (x.vmask f) (tyLanes f.ty.toNat)))
    cls := some 6 }

def vsplatOp (f : FmtVS) (x : Ctx) : SlotOp :=
  let ty := f.ty.toNat
  let w := tyW ty
  let s : Word := match f.lng with | some l => l.signExtend 64 | none => x.r.getX (48 + f.tb.toNat)
  let i := x.rowIndex f.row
  { slot := 4
    runs := x.on f.pred
    guard := f.pred
    reads := x.resOf f.pred [] ++ maskRes f.msk.toNat ++ (if f.lng.isSome then [] else [.x (48 + f.tb.toNat)])
    dests := [.row f.td.toNat i]
    eff := x.mod fun t => t.addPend (x.br.latency 6) (.tile f.td.toNat i (packLanes w (List.replicate (tyLanes ty) (s.toNat % 2 ^ w)))
      (enableRow w (enables (x.r.maskOf f.msk.toNat) (tyLanes ty))))
    cls := some 6 }

def viotaOp (f : FmtV) (x : Ctx) : SlotOp :=
  let ty := f.ty.toNat
  vOp x f 6 (x.resO f) ((List.range (tyLanes ty)).map fun j => ((x.oTB f).toNat + j) % 2 ^ tyW ty)
    (trapIf (tyFloat ty) { cause := 0x16, step := 6, slot := 4 })

/-! Conversions (R306 to R308, R154). -/

/-- Converts lanes in order: a lane that is written draws once under STOCH. -/
def convLanes (frm : BitVec 3) (g : Rnd → Num → Nat) : List (Bool × Num) → BitVec 32 → List Nat × BitVec 32
  | [], st => ([], st)
  | (en, v) :: t, st =>
    if en then
      let (r, st') := Rnd.ofConv frm st
      let (o, st'') := convLanes frm g t st'
      (g r v :: o, st'')
    else
      let (o, st'') := convLanes frm g t st
      (0 :: o, st'')

/-- An operation that converts lanes into part P of a row of lanes of width w, and leaves the rest. -/
def convOp (x : Ctx) (f : FmtV) (reads : List Res) (traps : List Trap) (w first : Nat) (src : List (Bool × Num)) (g : Rnd → Num → Nat) : SlotOp where
  slot := 4
  runs := x.on f.pred
  guard := f.pred
  reads := x.resOf f.pred [] ++ x.resMask f ++ x.resTA f ++ reads
  dests := [.row f.td.toNat (x.vrow f)]
  traps := traps
  eff := fun s =>
    let (out, st) := convLanes x.r.frm g src (s.strand x.b x.k).r.stoch
    x.mod (fun t => { t with r := { t.r with stoch := st } }.addPend (x.br.latency 20)
      (.tile f.td.toNat (x.vrow f) (packLanes w (List.replicate first 0 ++ out)) (enableRow w (List.replicate first false ++ src.map Prod.fst)))) s
  cls := some 20

def vcvtOp (f : FmtV) (x : Ctx) : SlotOp :=
  let dt := f.ty.toNat
  let fr := f.tb.toNat % 8
  let p := f.tb.toNat / 8
  let ls := tyLanes fr
  let ld := tyLanes dt
  let bad := (ls == ld && p == 1) || 4 * ls == ld || ls == 4 * ld
  let src := (lanesOf (tyW fr) (x.rowTA f)).map (decTy fr)
  let (first, taken) := if ld = 2 * ls then (p * ls, src) else if 2 * ld = ls then (0, (src.drop (p * ld)).take ld) else (0, src)
  convOp x f [] (trapIf bad { cause := 0x16, step := 6, slot := 4 }) (tyW dt) first
    (taken.zipIdx.map fun (v, j) => ((x.vmask f).getLsbD (first + j), v)) (encTy dt)

/-- The image of an installed converter (R394). -/
def Braid.converter (t : Braid) (id : Nat) : Option Nat :=
  ((List.range 96).find? fun i => let v := Store.get t.blocks i 0; bits v 28 4 == 3 && bits v 0 8 == 0x80 + id / 2 * 2).map
    fun i => bits (Store.get t.blocks i 0) 12 16

/-- A format register of kind 15 that is masked, or whose converter is not installed, traps as an undefined opcode does (R142, R183): a false predicate
does not suppress it (R167). -/
def Ctx.fabTraps (x : Ctx) (slot : Nat) (v : BitVec 32) : List Trap :=
  if fmtKind v = 15 then
    if x.masked 0 then [{ cause := 0x02, step := 2, slot := slot, detail := maskedMark }]
    else trapIf (x.br.converter (fmtConv v)).isNone { cause := 0x02, step := 2, slot := slot }
  else []

/-- The format register of VCVTN and VCVTW, its wide type and part (R307). -/
def Ctx.cvFmt (x : Ctx) (f : FmtV) : BitVec 32 := Store.get x.r.fmt (f.tb.toNat % 8) 0
def cvWide (f : FmtV) : Nat := f.ty.toNat / 4
def cvPart (f : FmtV) : Nat := f.ty.toNat % 4

def Ctx.cvTraps (x : Ctx) (f : FmtV) : List Trap :=
  let v := x.cvFmt f
  let k := fmtKind v
  trapIf ((cvWide f == 1 && 2 ≤ cvPart f) || !fmtValid v || !(k == 0 || k == 3 || k == 4)) { cause := 0x16, step := 6, slot := 4 }

/-- A value as a narrow code, and a narrow code's value (R143, R307, R308). -/
def encNarrow (v : BitVec 32) (r : Rnd) (n : Num) : Nat :=
  match fmtKind v with
  | 3 => intLane 8 (toIntSat true 8 r n)
  | 4 => intLane 8 (toIntSat false 8 r n)
  | _ => (narrowFmt v).encode r n

def decNarrow (v : BitVec 32) (c : Nat) : Num :=
  match fmtKind v with
  | 3 => Num.ofInt (laneInt 6 c)
  | 4 => Num.ofInt c
  | _ => (narrowFmt v).decode (c % 2 ^ fmtW v)

def vcvtnOp (f : FmtV) (x : Ctx) : SlotOp :=
  let ty := cvWide f
  let src := (lanesOf (tyW ty) (x.rowTA f)).map (decTy ty)
  { convOp x f [.fmt (f.tb.toNat % 8)] (x.cvTraps f) 8 (cvPart f * tyLanes ty)
      (src.zipIdx.map fun (v, j) => ((x.vmask f).getLsbD j, v)) (encNarrow (x.cvFmt f)) with early := x.fabTraps 4 (x.cvFmt f) }

def vcvtwOp (f : FmtV) (x : Ctx) : SlotOp :=
  let ty := cvWide f
  let ld := tyLanes ty
  let src := ((lanesOf 8 (x.rowTA f)).drop (cvPart f * ld)).take ld
  { convOp x f [.fmt (f.tb.toNat % 8)] (x.cvTraps f) (tyW ty) 0
      (src.zipIdx.map fun (c, j) => ((x.vmask f).getLsbD j, decNarrow (x.cvFmt f) c)) (encTy ty) with early := x.fabTraps 4 (x.cvFmt f) }

/-! Rotations, broadcasts, reductions (R309 to R311). -/

def vrotrOp (f : FmtV) (x : Ctx) : SlotOp :=
  let n := tyLanes f.ty.toNat
  let k := (x.oTB f).toNat % n
  let src := lanesOf (tyW f.ty.toNat) (x.rowTA f)
  vOp x f 8 (x.resO f ++ x.resTA f) (src.drop (n - k) ++ src.take (n - k))

/-- Every row of td is written, under the mask. -/
def vTileOp (x : Ctx) (f : FmtV) (cls : Nat) (reads : List Res) (g : Nat → Row) : SlotOp where
  slot := 4
  runs := x.on f.pred
  guard := f.pred
  reads := x.resOf f.pred [] ++ x.resMask f ++ reads
  dests := tileRes f.td.toNat
  eff := x.mod fun t => t.addPends (x.br.latency cls) ((List.range 16).map fun i =>
    .tile f.td.toNat i (g i) (enableRow (tyW f.ty.toNat) (enables (x.vmask f) (tyLanes f.ty.toNat))))
  cls := some cls

def vrotcOp (f : FmtV) (x : Ctx) : SlotOp :=
  let k := (x.oTB f).toNat % 16
  vTileOp x f 9 (x.resO f ++ tileRes f.ta.toNat) fun i => x.r.tileRow f.ta.toNat ((i + 16 - k) % 16)

def vbcrOp (f : FmtV) (x : Ctx) : SlotOp :=
  let n := tyLanes f.ty.toNat
  vOp x f 10 (x.resO f ++ x.resTA f) (List.replicate n ((lanesOf (tyW f.ty.toNat) (x.rowTA f)).getD ((x.oTB f).toNat % n) 0))

def vbccOp (f : FmtV) (x : Ctx) : SlotOp := vTileOp x f 11 (x.resTA f) fun _ => x.rowTA f

/-- Neighbours combined. -/
def pairUp (op : Nat → Nat → Nat) : List Nat → List Nat
  | a :: b :: t => op a b :: pairUp op t
  | l => l

/-- The fixed pairwise tree. -/
def reduceTree (op : Nat → Nat → Nat) : Nat → List Nat → Nat
  | 0, l => l.headD 0
  | n + 1, l => match l with
    | [a] => a
    | l => reduceTree op n (pairUp op l)

/-- The combining step: 0 add, 1 max, 2 min. -/
def redOp (x : Ctx) (f : FmtV) (k : Nat) (a b : Nat) : Nat :=
  match k with
  | 0 => vArith x f FFmt.add (· + ·) a b
  | 1 => vArith x f (fun t _ => t.max) max a b
  | _ => vArith x f (fun t _ => t.min) min a b

/-- The identity that stands for a disabled lane. -/
def redId (ty k : Nat) : Nat :=
  if tyFloat ty then (match k with
    | 0 => 2 ^ (tyW ty - 1)
    | 1 => (tyFmt ty).encode .rne (.inf true)
    | _ => (tyFmt ty).encode .rne (.inf false))
  else match k with
    | 0 => 0
    | 1 => intLane (tyW ty) (intMin (tySigned ty) (tyW ty))
    | _ => intLane (tyW ty) (intMax (tySigned ty) (tyW ty))

def vredr (x : Ctx) (f : FmtV) (k : Nat) : SlotOp :=
  let ty := f.ty.toNat
  let n := tyLanes ty
  let src := List.zipWith (fun (b : Bool) c => if b then c else redId ty k) (enables (x.vmask f) n) (lanesOf (tyW ty) (x.rowTA f))
  { vOp x f 12 (x.resTA f) [] with
    eff := x.mod fun t => t.addPend (x.br.latency 12) (.tile f.td.toNat (x.vrow f) (BitVec.ofNat 2048 (reduceTree (redOp x f k) 8 src)) rowOnes) }

def vredrAddOp (f : FmtV) (x : Ctx) : SlotOp := vredr x f 0
def vredrMaxOp (f : FmtV) (x : Ctx) : SlotOp := vredr x f 1
def vredrMinOp (f : FmtV) (x : Ctx) : SlotOp := vredr x f 2

def vredc (x : Ctx) (f : FmtV) (k : Nat) : SlotOp :=
  let w := tyW f.ty.toNat
  let rows := (List.range 16).map fun i => lanesOf w (x.r.tileRow f.ta.toNat i)
  vOp x f 13 (tileRes f.ta.toNat) ((List.range (tyLanes f.ty.toNat)).map fun j => reduceTree (redOp x f k) 4 (rows.map (·.getD j 0)))

def vredcAddOp (f : FmtV) (x : Ctx) : SlotOp := vredc x f 0
def vredcMaxOp (f : FmtV) (x : Ctx) : SlotOp := vredc x f 1
def vredcMinOp (f : FmtV) (x : Ctx) : SlotOp := vredc x f 2

/-! Shuffles (R312 to R314). -/

def vshufOp (f : FmtVF) (x : Ctx) : SlotOp :=
  let i := x.rowIndex f.row
  let e := Store.get x.r.pat (64 * bit x.r.patBank + f.idx.toNat) 0
  let a := lanesOf 32 (x.r.tileRow f.ta.toNat i)
  let b := lanesOf 32 (x.r.tileRow f.tb.toNat i)
  let out := (List.range 64).map fun j =>
    let s := bits e (8 * j) 8
    if 128 ≤ s then 0 else if s < 64 then a.getD s 0 else b.getD (s - 64) 0
  { slot := 4
    runs := x.on f.pred
    guard := f.pred
    reads := x.resOf f.pred [] ++ [.row f.ta.toNat i, .row f.tb.toNat i, .pat]
    dests := [.row f.td.toNat i]
    early := x.featTrap 4 7
    eff := x.mod fun t => t.addPend (x.br.latency 14) (.tile f.td.toNat i (packLanes 32 out) rowOnes)
    cls := some 14 }

/-- Four entries of the inactive bank. -/
def Regs.loadPats (r : Regs) (i : Nat) (v : Row) : Regs :=
  let base := 64 * bit (!r.patBank) + i
  { r with pat := (List.range 4).foldl (fun p m => Store.set p (base + m) (BitVec.ofNat 512 (v.toNat / 2 ^ (512 * m))) 0) r.pat }

def vpatldOp (f : FmtVF) (x : Ctx) : SlotOp :=
  let i := x.rowIndex f.row
  { slot := 4
    runs := x.on f.pred
    guard := f.pred
    reads := x.resOf f.pred [] ++ [.row f.ta.toNat i]
    early := x.featTrap 4 7
    eff := x.mod fun t => { t with r := t.r.loadPats f.idx.toNat (x.r.tileRow f.ta.toNat i) } }

def vpatswOp (f : FmtV) (x : Ctx) : SlotOp where
  slot := 4
  runs := x.on f.pred
  guard := f.pred
  reads := x.resOf f.pred []
  early := x.featTrap 4 7
  eff := x.mod fun t => { t with r := { t.r with patBank := !t.r.patBank } }

/-! Partition, gather, scatter (R315, R316). -/

def vpartOp (f : FmtV) (x : Ctx) : SlotOp :=
  let n := tyLanes f.ty.toNat
  let m := x.vmask f
  let idx := (List.range n).filter m.getLsbD ++ (List.range n).filter fun j => !m.getLsbD j
  let cnt : Word := BitVec.ofNat 64 (maskCount m n)
  let lat := x.br.latency 15
  { slot := 4
    runs := x.on f.pred
    guard := f.pred
    reads := x.resOf f.pred [] ++ x.resMask f
    dests := [.row f.td.toNat (x.vrow f), .x (48 + f.tb.toNat)]
    early := x.featTrap 4 8
    eff := x.mod fun t => t.addPends lat [.tile f.td.toNat (x.vrow f) (packLanes 8 idx) rowOnes, .x (48 + f.tb.toNat) cnt, .latch 4 cnt x.st.c.gen]
    cls := some 15 }

/-- Lane indices of row r of tb. -/
def Ctx.laneIdx (x : Ctx) (f : FmtV) : List Nat :=
  ((lanesOf 8 (x.rowTB f)).take (tyLanes f.ty.toNat)).map (· % tyLanes f.ty.toNat)

/-- A lane move is scoreboarded. -/
def vLaneOp (x : Ctx) (f : FmtV) (v m : Row) : SlotOp where
  slot := 4
  runs := x.on f.pred
  guard := f.pred
  reads := x.resOf f.pred [] ++ x.resMask f ++ x.resTA f ++ x.resTB f
  dests := [.row f.td.toNat (x.vrow f)]
  early := x.featTrap 4 8
  eff := x.mod (·.addSbd {
    dests := [.row f.td.toNat (x.vrow f)]
    effs := [.tile f.td.toNat (x.vrow f) v m]
    tok := none
    req := none
    due := none
    early := x.st.clk + x.br.latency 23 })
  cls := some 23

def vgathOp (f : FmtV) (x : Ctx) : SlotOp :=
  let w := tyW f.ty.toNat
  let src := lanesOf w (x.rowTA f)
  vLaneOp x f (packLanes w ((x.laneIdx f).map fun i => src.getD i 0)) (enableRow w (enables (x.vmask f) (tyLanes f.ty.toNat)))

def vscatOp (f : FmtV) (x : Ctx) : SlotOp :=
  let w := tyW f.ty.toNat
  let n := tyLanes f.ty.toNat
  let src := lanesOf w (x.rowTA f)
  let moves := ((x.laneIdx f).zip src).zip (enables (x.vmask f) n)
  let out := moves.foldl (fun (a : Store Nat) m => if m.2 then Store.put a m.1.1 m.1.2 else a) []
  vLaneOp x f (packLanes w ((List.range n).map fun j => Store.get out j 0)) (enableRow w ((List.range n).map fun j => Store.has out j))

/-! Accumulator reads and release (R317, R318). -/

/-- A bank in use accepts a TYPE of its own kind; one not in use accepts any (R317, R329). -/
def bankTypeOk (r : Regs) (bank ty : Nat) : Bool := !r.aUse.getLsbD bank || (r.aInt.getLsbD bank == !tyFloat ty)

/-- The value of a bank's lane. -/
def bankNum (r : Regs) (bank c : Nat) : Num := if r.aUse.getLsbD bank && r.aInt.getLsbD bank then Num.ofInt (laneInt 3 c) else f32.decode c

def vaccOp (f : FmtV) (x : Ctx) : SlotOp :=
  let ty := f.ty.toNat
  let bank := f.ta.toNat
  let q := f.tb.toNat
  let w := tyW ty
  let out := (lanesOf 32 (x.r.bankRow bank q)).map fun c => encTy ty (Rnd.ofArith x.r.frm) (bankNum x.r bank c)
  let en := enables (x.vmask f) 64 ++ List.replicate (tyLanes ty - 64) true
  { slot := 4
    runs := x.on f.pred
    guard := f.pred
    reads := x.resOf f.pred [] ++ x.resMask f ++ [.bank bank q]
    dests := [.row f.td.toNat (x.vrow f)]
    traps := trapIf (!bankTypeOk x.r bank ty) { cause := 0x16, step := 6, slot := 4 }
    eff := x.mod fun t => t.addPend (x.br.latency 21) (.tile f.td.toNat (x.vrow f) (packLanes w out) (enableRow w en))
    cls := some 21 }

/-- A tile is no longer in use. -/
def Regs.freeTile (r : Regs) (t : Nat) : Regs :=
  { r with tile := r.tile.filter (fun e => e.1 / 16 != t), tUse := setBit r.tUse t false, tDirty := setBit r.tDirty t false }

def vfreeOp (f : FmtV) (x : Ctx) : SlotOp where
  slot := 4
  runs := x.on f.pred
  guard := f.pred
  reads := x.resOf f.pred []
  dests := tileRes f.td.toNat
  eff := x.mod fun t => { t with r := t.r.freeTile f.td.toNat }

/-! The meanings of slot V. -/

def execNopV (s : State) : Host.Outcome State Fault Refusal := issueOne .nopV (fun _ => nopOp 4) s
def execVadd (f : FmtV) (s : State) : Host.Outcome State Fault Refusal := issueOne (.vadd f) (vaddOp f) s
def execVsub (f : FmtV) (s : State) : Host.Outcome State Fault Refusal := issueOne (.vsub f) (vsubOp f) s
def execVmul (f : FmtV) (s : State) : Host.Outcome State Fault Refusal := issueOne (.vmul f) (vmulOp f) s
def execVfma (f : FmtV) (s : State) : Host.Outcome State Fault Refusal := issueOne (.vfma f) (vfmaOp f) s
def execVfms (f : FmtV) (s : State) : Host.Outcome State Fault Refusal := issueOne (.vfms f) (vfmsOp f) s
def execVmin (f : FmtV) (s : State) : Host.Outcome State Fault Refusal := issueOne (.vmin f) (vminOp f) s
def execVmax (f : FmtV) (s : State) : Host.Outcome State Fault Refusal := issueOne (.vmax f) (vmaxOp f) s
def execVabs (f : FmtV) (s : State) : Host.Outcome State Fault Refusal := issueOne (.vabs f) (vabsOp f) s
def execVneg (f : FmtV) (s : State) : Host.Outcome State Fault Refusal := issueOne (.vneg f) (vnegOp f) s
def execVand (f : FmtV) (s : State) : Host.Outcome State Fault Refusal := issueOne (.vand f) (vandOp f) s
def execVor (f : FmtV) (s : State) : Host.Outcome State Fault Refusal := issueOne (.vor f) (vorOp f) s
def execVxor (f : FmtV) (s : State) : Host.Outcome State Fault Refusal := issueOne (.vxor f) (vxorOp f) s
def execVshl (f : FmtV) (s : State) : Host.Outcome State Fault Refusal := issueOne (.vshl f) (vshlOp f) s
def execVshr (f : FmtV) (s : State) : Host.Outcome State Fault Refusal := issueOne (.vshr f) (vshrOp f) s
def execVsar (f : FmtV) (s : State) : Host.Outcome State Fault Refusal := issueOne (.vsar f) (vsarOp f) s
def execVcmpeq (f : FmtV) (s : State) : Host.Outcome State Fault Refusal := issueOne (.vcmpeq f) (vcmpeqOp f) s
def execVcmpne (f : FmtV) (s : State) : Host.Outcome State Fault Refusal := issueOne (.vcmpne f) (vcmpneOp f) s
def execVcmplt (f : FmtV) (s : State) : Host.Outcome State Fault Refusal := issueOne (.vcmplt f) (vcmpltOp f) s
def execVcmple (f : FmtV) (s : State) : Host.Outcome State Fault Refusal := issueOne (.vcmple f) (vcmpleOp f) s
def execVsel (f : FmtV) (s : State) : Host.Outcome State Fault Refusal := issueOne (.vsel f) (vselOp f) s
def execVcvt (f : FmtV) (s : State) : Host.Outcome State Fault Refusal := issueOne (.vcvt f) (vcvtOp f) s
def execVcvtn (f : FmtV) (s : State) : Host.Outcome State Fault Refusal := issueOne (.vcvtn f) (vcvtnOp f) s
def execVcvtw (f : FmtV) (s : State) : Host.Outcome State Fault Refusal := issueOne (.vcvtw f) (vcvtwOp f) s
def execVrotr (f : FmtV) (s : State) : Host.Outcome State Fault Refusal := issueOne (.vrotr f) (vrotrOp f) s
def execVrotc (f : FmtV) (s : State) : Host.Outcome State Fault Refusal := issueOne (.vrotc f) (vrotcOp f) s
def execVbcr (f : FmtV) (s : State) : Host.Outcome State Fault Refusal := issueOne (.vbcr f) (vbcrOp f) s
def execVbcc (f : FmtV) (s : State) : Host.Outcome State Fault Refusal := issueOne (.vbcc f) (vbccOp f) s
def execVredrAdd (f : FmtV) (s : State) : Host.Outcome State Fault Refusal := issueOne (.vredrAdd f) (vredrAddOp f) s
def execVredrMax (f : FmtV) (s : State) : Host.Outcome State Fault Refusal := issueOne (.vredrMax f) (vredrMaxOp f) s
def execVredrMin (f : FmtV) (s : State) : Host.Outcome State Fault Refusal := issueOne (.vredrMin f) (vredrMinOp f) s
def execVredcAdd (f : FmtV) (s : State) : Host.Outcome State Fault Refusal := issueOne (.vredcAdd f) (vredcAddOp f) s
def execVredcMax (f : FmtV) (s : State) : Host.Outcome State Fault Refusal := issueOne (.vredcMax f) (vredcMaxOp f) s
def execVredcMin (f : FmtV) (s : State) : Host.Outcome State Fault Refusal := issueOne (.vredcMin f) (vredcMinOp f) s
def execVshuf (f : FmtVF) (s : State) : Host.Outcome State Fault Refusal := issueOne (.vshuf f) (vshufOp f) s
def execVpatld (f : FmtVF) (s : State) : Host.Outcome State Fault Refusal := issueOne (.vpatld f) (vpatldOp f) s
def execVpatsw (f : FmtV) (s : State) : Host.Outcome State Fault Refusal := issueOne (.vpatsw f) (vpatswOp f) s
def execVpart (f : FmtV) (s : State) : Host.Outcome State Fault Refusal := issueOne (.vpart f) (vpartOp f) s
def execVgath (f : FmtV) (s : State) : Host.Outcome State Fault Refusal := issueOne (.vgath f) (vgathOp f) s
def execVscat (f : FmtV) (s : State) : Host.Outcome State Fault Refusal := issueOne (.vscat f) (vscatOp f) s
def execVmov (f : FmtV) (s : State) : Host.Outcome State Fault Refusal := issueOne (.vmov f) (vmovOp f) s
def execVmovPop (f : FmtV) (s : State) : Host.Outcome State Fault Refusal := issueOne (.vmovPop f) (vmovPopOp f) s
def execVmovPush (f : FmtV) (s : State) : Host.Outcome State Fault Refusal := issueOne (.vmovPush f) (vmovPushOp f) s
def execVsplat (f : FmtVS) (s : State) : Host.Outcome State Fault Refusal := issueOne (.vsplat f) (vsplatOp f) s
def execViota (f : FmtV) (s : State) : Host.Outcome State Fault Refusal := issueOne (.viota f) (viotaOp f) s
def execVmskAnd (f : FmtV) (s : State) : Host.Outcome State Fault Refusal := issueOne (.vmskAnd f) (vmskAndOp f) s
def execVmskOr (f : FmtV) (s : State) : Host.Outcome State Fault Refusal := issueOne (.vmskOr f) (vmskOrOp f) s
def execVmskXor (f : FmtV) (s : State) : Host.Outcome State Fault Refusal := issueOne (.vmskXor f) (vmskXorOp f) s
def execVmskAndn (f : FmtV) (s : State) : Host.Outcome State Fault Refusal := issueOne (.vmskAndn f) (vmskAndnOp f) s
def execVmskCopy (f : FmtV) (s : State) : Host.Outcome State Fault Refusal := issueOne (.vmskCopy f) (vmskCopyOp f) s
def execVmskNot (f : FmtV) (s : State) : Host.Outcome State Fault Refusal := issueOne (.vmskNot f) (vmskNotOp f) s
def execVmskFirst (f : FmtV) (s : State) : Host.Outcome State Fault Refusal := issueOne (.vmskFirst f) (vmskFirstOp f) s
def execVmcnt (f : FmtV) (s : State) : Host.Outcome State Fault Refusal := issueOne (.vmcnt f) (vmcntOp f) s
def execVacc (f : FmtV) (s : State) : Host.Outcome State Fault Refusal := issueOne (.vacc f) (vaccOp f) s
def execVfree (f : FmtV) (s : State) : Host.Outcome State Fault Refusal := issueOne (.vfree f) (vfreeOp f) s

end Sys2Proof.Machine
end

