-- ==== Sys2Proof/Machine/Matrix.lean ====
section
/-!
DEFINITION. Slot X (R58 to R60, R320 to R333): the array lease, loads of stationary buffers, matrix multiplication, accumulator
transfers and status, key slots, usage counters.
-/

namespace Sys2Proof.Machine

/-! The lease (R58, R323). -/

/-- The strand holds a run with commands left. -/
def Ctx.runLeft (x : Ctx) : Bool := x.br.holder == some x.k && x.br.left != 0

/-- N of an MLEASE. -/
def leaseN (n : BitVec 6) : Nat := if n = 0 then 64 else n.toNat

def mleaseOp (f : FmtXL) (x : Ctx) : SlotOp where
  slot := 5
  runs := x.on f.pred
  guard := f.pred
  reads := x.resOf f.pred []
  pre := fun s =>
    if x.st.c.leaseAsked then s
    else (askLease (x.endRun s) x.b x.k (leaseN f.n)).modStrand x.b x.k fun t => { t with c := { t.c with leaseAsked := true } }
  wait := !(x.st.c.leaseAsked && x.runLeft)
  eff := x.mod fun t => { t with c := { t.c with leaseAsked := false, leaseRun := leaseN f.n } }

def mrelOp (f : FmtXZ) (x : Ctx) : SlotOp where
  slot := 5
  runs := x.on f.pred
  guard := f.pred
  reads := x.resOf f.pred []
  eff := fun s => if x.st.c.leaseHas then x.endRun s else s

/-- A matrix command whose run is spent asks for another (R58). -/
def Ctx.askRun (x : Ctx) (s : State) : State := if x.runLeft then s else askLease s x.b x.k x.st.c.leaseRun

/-- One command of the run is used. -/
def Braid.useRun (t : Braid) : Braid := { t with left := t.left - 1 }

/-! Stationary buffers (R320 to R325). -/

def Braid.sbufOf (t : Braid) (n : Nat) : SBuf := Store.get t.sbuf n {}
def Braid.keyOf (t : Braid) (m : Nat) : KeySlot := Store.get t.keys m {}

/-- An MMA in flight will still read buffer n. -/
def State.stillRead (s : State) (b n : Nat) : Bool :=
  braidClk s b < ((s.braid b).sbufOf n).busy && (List.range 4).any fun k => (s.strand b k).pend.any fun p => !p.mmaRows.isEmpty

/-- The 96-bit IV of sector i of a set (R322). -/
def setIv (region set i : Nat) : Nat := region * 2 ^ 64 + set * 2 ^ 16 + i

/-- The 99 sectors decrypted and verified, where every tag verifies (R322, R325, R28). -/
def Braid.openSet (t : Braid) (key : BitVec 256) (region set base : Nat) : Option Nat :=
  if !t.bstOn then none
  else
    ((List.range 99).mapM fun i =>
      if Store.has t.bstTag (base + i) then
        gcmOpen key (setIv region set i) (leBytes 512 (Store.get t.bst (base + i) 0).toNat) (Store.get t.bstTag (base + i) 0).toNat
      else none).map fun ss => leNat ss.flatten

/-- v of MLDS keeps its limits (R324). -/
def mldsValid (v : Word) : Bool := bits v 48 16 == 0 && bits v 14 18 == 0 && bits v 0 14 % 2 == 0 && bits v 0 14 ≤ 16186

/-- A format that the stationary operand may have (R324). -/
def mldsFmt (fb : BitVec 32) : Bool := fmtValid fb && fmtKind fb != 2 && !((fmtKind fb == 0 || fmtKind fb == 15) && fmtScale fb == 1)

/-- A usage counter would pass its largest value (R378). -/
def State.counterFull (s : State) (w r loads steps : Nat) : Bool :=
  match s.pair w r with
  | some p => 2 ^ 64 - 2 < p.loads + loads || 2 ^ 64 - 2 < p.steps + steps
  | none => false

/-- A usage counter would pass its floor in flash (R378). -/
def State.floorHit (s : State) (w r loads steps : Nat) : Bool :=
  match s.pair w r with
  | some p => p.floorLoads < p.loads + loads || p.floorSteps < p.steps + steps
  | none => false

def mldsOp (f : FmtXD) (x : Ctx) : SlotOp :=
  let v := x.opnd f.off
  let fb := Store.get x.r.fmt f.fb.toNat 0
  let n := f.sb.toNat
  let key := x.br.keyOf f.key.toNat
  let empty := !key.valid || key.world != x.world
  { slot := 5
    runs := x.on f.pred
    guard := f.pred
    reads := x.resOf f.pred [f.off] ++ [.fmt f.fb.toNat]
    early := x.fabTraps 5 fb
    traps := x.latchTraps 5 [f.off] ++
      trapIf (!mldsValid v || !mldsFmt fb || (!empty && x.s.counterFull x.world key.region 50688 0)) { cause := 0x16, step := 6, slot := 5 } ++
      trapIf (!x.st.c.leaseHas) { cause := 0x0D, step := 6, sub := 1, slot := 5 } ++
      trapIf empty { cause := 0x17, step := 6, sub := 2, slot := 5 }
    pre := x.askRun
    wait := !x.runLeft || x.s.floorHit x.world key.region 50688 0
    soon := (x.br.sbufOf n).st == 1 || x.s.stillRead x.b n || x.st.clk < x.br.mldsAt ||
      (x.br.cmds ++ x.st.heldOps).any fun c => c.strand == x.k && c.op == 7 && c.cls == 0
    eff := fun s =>
      let plain := x.br.openSet key.key key.region (bits v 32 16) (bits v 0 14 / 2)
      s.modBraid x.b fun t => { t.useRun with
        mldsAt := x.st.clk + x.br.interval 18
        sbuf := Store.put t.sbuf n { st := 1, world := x.world, slot := f.key.toNat, region := key.region, fmt := fb, set := plain.getD 0,
                                     good := plain.isSome, strand := x.k, due := x.st.clk + x.br.latency 18 } } }

/-! MMA (R326 to R328). -/

/-- The pairing of the formats is one of R148. -/
def mmaPair (fa fb : BitVec 32) : Bool :=
  let ka := fmtKind fa
  let kb := fmtKind fb
  ((ka == 0 || ka == 15) && (kb == 0 || kb == 15)) || (ka == 1 && kb == 1) ||
    ((ka == 3 || ka == 4) && (kb == 3 || kb == 4) && fmtScale fa == 0 && fmtScale fb == 0)

/-- The pairing accumulates integers. -/
def mmaInt (fa : BitVec 32) : Bool := fmtKind fa == 3 || fmtKind fa == 4

/-- A decode table as one number of 32-bit entries (R394); 0 for a format of another kind. -/
def Ctx.tableOf (x : Ctx) (f : BitVec 32) : Nat :=
  if fmtKind f = 15 then
    match (x.br.converter (fmtConv f)).bind fun id => x.s.flash.find? (·.id == id) with
    | some i => i.table.foldr (fun e a => a * 2 ^ 32 + e.toNat) 0
    | none => 0
  else 0

/-- Types of a group's banks, flags cleared: what ACC 0 does at issue. -/
def Regs.startBanks (r : Regs) (g : Nat) (int : Bool) : Regs :=
  [0, 1, 2].foldl (fun r c => { r with
    aInt := setBit r.aInt (3 * g + c) int
    aFlag := r.aFlag &&& ~~~ BitVec.ofNat 18 (7 * 8 ^ (3 * g + c)) }) r

def mmaOp' (f : FmtXM) (accum : Bool) (x : Ctx) : SlotOp :=
  let fa := Store.get x.r.fmt f.fa.toNat 0
  let n := f.sb.toNat
  let buf := x.br.sbufOf n
  let g := f.g.toNat
  let ta := f.ta.toNat
  let int := mmaInt fa
  let empty := buf.st == 0 || buf.world != x.world
  let other := accum && [0, 1, 2].any fun c => x.r.aUse.getLsbD (3 * g + c) && x.r.aInt.getLsbD (3 * g + c) != int
  let scaled := fmtScale fa != 0
  let zs := if scaled then Store.get x.r.zbuf f.za.toNat 0 else 0
  let tab := x.tableOf fa + 2 ^ 8192 * x.tableOf buf.fmt
  let c := x.st.clk
  let l := x.br.latency 19
  { slot := 5
    runs := x.on f.pred
    guard := f.pred
    reads := x.resOf f.pred [] ++ [.fmt f.fa.toNat] ++ tileRes ta ++ (if scaled then [.zbuf f.za.toNat] else [])
    dests := [0, 1, 2].flatMap fun b => (List.range 16).map fun r => .bank (3 * g + b) r
    early := x.fabTraps 5 fa
    traps := trapIf (!fmtValid fa || fmtKind fa == 2 || empty || !mmaPair fa buf.fmt || other || x.s.counterFull x.world buf.region 0 16)
        { cause := 0x16, step := 6, slot := 5 } ++
      trapIf (!x.st.c.leaseHas) { cause := 0x0D, step := 6, sub := 1, slot := 5 } ++
      trapIf (buf.st == 3) { cause := 0x18, step := 9, slot := 5 }
    stage1 := buf.st == 1 && buf.world == x.world
    pre := x.askRun
    wait := !x.runLeft || x.s.floorHit x.world buf.region 0 16
    soon := c < x.br.mmaAt
    eff := fun s =>
      let s := s.modBraid x.b fun t => { t.useRun with
        mmaAt := c + x.br.interval 19
        sbuf := Store.put t.sbuf n { t.sbufOf n with busy := max (t.sbufOf n).busy (c + 15 + l) } }
      let s := s.modPair x.world buf.region fun p => { p with steps := p.steps + 16 }
      x.mod (fun t =>
        let t := if accum then t else { t with r := t.r.startBanks g int }
        let first : Pend := ⟨c + l, c, .mmaOut g 0 accum int (x.r.tileRow ta 0) fa buf.fmt tab zs buf.set⟩
        let rest : List Pend := (List.range 15).map fun r => ⟨c + r + 1, mmaOrd + c, .mmaIn g ta (r + 1) l accum int fa buf.fmt tab zs buf.set⟩
        { t with pend := (first :: rest).foldl (fun ps p => insertPend p ps) t.pend }) s }

def mmaOp (f : FmtXM) (x : Ctx) : SlotOp := mmaOp' f false x
def mmaAccOp (f : FmtXM) (x : Ctx) : SlotOp := mmaOp' f true x

/-! Accumulator transfers and status (R329 to R331). -/

def macrOp (f : FmtXR) (x : Ctx) : SlotOp :=
  let ty := f.ty.toNat
  let bank := f.bank.toNat
  let row := f.brow.toNat
  let src := (lanesOf 32 (x.r.bankRow bank row)).map fun c => (true, bankNum x.r bank c)
  { slot := 5
    runs := x.on f.pred
    guard := f.pred
    reads := x.resOf f.pred [] ++ [.bank bank row]
    dests := [.row f.tile.toNat f.trow.toNat]
    traps := trapIf (!bankTypeOk x.r bank ty) { cause := 0x16, step := 6, slot := 5 }
    eff := fun s =>
      let st0 := (s.strand x.b x.k).r.stoch
      let (out, st) := if tyFloat ty then convLanes x.r.frm (encTy ty) src st0 else (src.map fun v => encTy ty .rne v.2, st0)
      x.mod (fun t => { t with r := { t.r with stoch := st } }.addPend (x.br.latency 21)
        (.tile f.tile.toNat f.trow.toNat (packLanes (tyW ty) out) rowOnes)) s
    cls := some 21 }

def macwOp (f : FmtXR) (x : Ctx) : SlotOp :=
  let ty := f.ty.toNat
  let bank := f.bank.toNat
  let int := !tyFloat ty
  let out := ((lanesOf (tyW ty) (x.r.tileRow f.tile.toNat f.trow.toNat)).take 64).map fun c =>
    if int then intLane 32 (toIntSat true 32 .rne (decTy ty c)) else f32.encode .rne (decTy ty c)
  { slot := 5
    runs := x.on f.pred
    guard := f.pred
    reads := x.resOf f.pred [] ++ [.row f.tile.toNat f.trow.toNat]
    dests := [.bank bank f.brow.toNat]
    traps := trapIf (!bankTypeOk x.r bank ty) { cause := 0x16, step := 6, slot := 5 }
    eff := x.mod fun t => t.addPend (x.br.latency 21) (.acc bank f.brow.toNat (packLanes 32 out) int)
    cls := some 21 }

/-- A bank is no longer in use: no rows, no flags, no type (R330). -/
def Regs.freeBank (r : Regs) (a : Nat) : Regs :=
  { r with acc := r.acc.filter (fun e => e.1 / 16 != a), aUse := setBit r.aUse a false, aDirty := setBit r.aDirty a false
           aInt := setBit r.aInt a false, aFlag := r.aFlag &&& ~~~ BitVec.ofNat 18 (7 * 8 ^ a) }

def maczOp (f : FmtXB) (x : Ctx) : SlotOp where
  slot := 5
  runs := x.on f.pred
  guard := f.pred
  reads := x.resOf f.pred []
  dests := (List.range 16).map fun r => .bank f.bank.toNat r
  eff := x.mod fun t => { t with r := t.r.freeBank f.bank.toNat }

/-- The status word of a bank and the two buffers (R331). -/
def Ctx.mstatWord (x : Ctx) (bank : Nat) : Word :=
  let sb := fun n => let f := x.br.sbufOf n; if f.world = x.world then f.st else 0
  let use := x.r.aUse.getLsbD bank
  BitVec.ofNat 64 (sb 1 * 2 ^ 14 + sb 0 * 2 ^ 12 + bit (use && x.r.aInt.getLsbD bank) * 32 + bit (x.r.aDirty.getLsbD bank) * 16 + bit use * 8 +
    bits x.r.aFlag (3 * bank) 3)

/-- In dense form every row of the bank is complete before MSTAT reads it (R198). -/
def mstatOp (f : FmtXS) (x : Ctx) : SlotOp :=
  let o := scalarOp x 5 f.pred false f.dst.toNat 21 [] (x.mstatWord f.bank.toNat)
  { o with reads := o.reads ++ (List.range 16).map fun r => .bank f.bank.toNat r }

/-! Key slots (R332). -/

/-- A key slot returns to its reset values, and the buffers loaded through it are empty. -/
def Braid.zeroise (t : Braid) (m : Nat) : Braid :=
  { t with keys := Store.del t.keys m
           sbuf := t.sbuf.filter fun e => !(e.2.st != 0 && e.2.slot == m) }

/-- An MMA in flight reads a buffer loaded through the slot. -/
def State.keyBusy (s : State) (b m : Nat) : Bool :=
  [0, 1].any fun n => let f := (s.braid b).sbufOf n; f.st != 0 && f.slot == m && s.stillRead b n

def mkzOp (f : FmtXK) (x : Ctx) : SlotOp where
  slot := 5
  runs := x.on f.pred
  guard := f.pred
  reads := x.resOf f.pred []
  early := x.privTrap 5
  soon := x.s.keyBusy x.b f.key.toNat
  eff := fun s => s.modBraid x.b (·.zeroise f.key.toNat)

/-- A world with a record in a bind slot or a saved context in the partition. -/
def State.worldInPart (s : State) (p w : Nat) : Bool :=
  (braidsOf p).any (fun b => (List.range 4).any fun k => (s.strand b k).slot.any fun e => e.2.st != .empty && recWorld e.2.bind == w) ||
    s.images.any fun i => i.part == p && i.world == w

/-- Slots that MKZ.ALL names: braid and number. -/
def Ctx.mkzSlots (x : Ctx) : List (Nat × Nat) :=
  (braidsOf (partOf x.b)).flatMap fun b => ((x.s.braid b).keys.filter fun e => !x.s.worldInPart (partOf x.b) e.2.world).map fun e => (b, e.1)

def mkzAllOp (f : FmtXZ) (x : Ctx) : SlotOp where
  slot := 5
  runs := x.on f.pred
  guard := f.pred
  reads := x.resOf f.pred []
  early := x.privTrap 5
  soon := x.mkzSlots.any fun q => x.s.keyBusy q.1 q.2
  eff := fun s => x.mkzSlots.foldl (fun s q => s.modBraid q.1 (·.zeroise q.2)) s

/-! Counters (R333). -/

def mcntOp (f : FmtXC) (steps : Bool) (x : Ctx) : SlotOp :=
  let v := x.opnd f.reg
  let cell := x.r.cellX f.dst.toNat
  let reg := bits v 0 12
  { slot := 5
    runs := x.on f.pred
    guard := f.pred
    reads := x.resOf f.pred [f.reg]
    dests := [.x cell, .latch 5]
    early := x.featTrap 5 9
    traps := x.latchTraps 5 [f.reg] ++ trapIf (4095 < v.toNat) { cause := 0x16, step := 6, slot := 5 }
    eff := fun s =>
      let bound := x.br.keys.any fun e => e.2.valid && e.2.world == x.world && e.2.region == reg
      let n := match s.pair x.world reg with
        | some p => if bound then (if steps then p.steps else p.loads) else 2 ^ 64 - 1
        | none => 2 ^ 64 - 1
      x.putSbd 5 cell (BitVec.ofNat 64 n) s }

def mcntLoadsOp (f : FmtXC) (x : Ctx) : SlotOp := mcntOp f false x
def mcntStepsOp (f : FmtXC) (x : Ctx) : SlotOp := mcntOp f true x

/-! The meanings of slot X. -/

def execNopX (s : State) : Host.Outcome State Fault Refusal := issueOne .nopX (fun _ => nopOp 5) s
def execMlease (f : FmtXL) (s : State) : Host.Outcome State Fault Refusal := issueOne (.mlease f) (mleaseOp f) s
def execMrel (f : FmtXZ) (s : State) : Host.Outcome State Fault Refusal := issueOne (.mrel f) (mrelOp f) s
def execMlds (f : FmtXD) (s : State) : Host.Outcome State Fault Refusal := issueOne (.mlds f) (mldsOp f) s
def execMma (f : FmtXM) (s : State) : Host.Outcome State Fault Refusal := issueOne (.mma f) (mmaOp f) s
def execMmaAcc (f : FmtXM) (s : State) : Host.Outcome State Fault Refusal := issueOne (.mmaAcc f) (mmaAccOp f) s
def execMacr (f : FmtXR) (s : State) : Host.Outcome State Fault Refusal := issueOne (.macr f) (macrOp f) s
def execMacw (f : FmtXR) (s : State) : Host.Outcome State Fault Refusal := issueOne (.macw f) (macwOp f) s
def execMacz (f : FmtXB) (s : State) : Host.Outcome State Fault Refusal := issueOne (.macz f) (maczOp f) s
def execMkz (f : FmtXK) (s : State) : Host.Outcome State Fault Refusal := issueOne (.mkz f) (mkzOp f) s
def execMkzAll (f : FmtXZ) (s : State) : Host.Outcome State Fault Refusal := issueOne (.mkzAll f) (mkzAllOp f) s
def execMcntLoads (f : FmtXC) (s : State) : Host.Outcome State Fault Refusal := issueOne (.mcntLoads f) (mcntLoadsOp f) s
def execMcntSteps (f : FmtXC) (s : State) : Host.Outcome State Fault Refusal := issueOne (.mcntSteps f) (mcntStepsOp f) s
def execMstat (f : FmtXS) (s : State) : Host.Outcome State Fault Refusal := issueOne (.mstat f) (mstatOp f) s

end Sys2Proof.Machine
end

