-- ==== Sys2Proof/Machine/Levels.lean ====
section
/-!
DEFINITION. Entries of the level table (R47): their fields, free indices, the job above an object and its supervisor agent (R34).
-/

namespace Sys2Proof.Machine

/-- Entry i of a partition's level table. -/
def Part.lv (p : Part) (i : Nat) : BitVec 256 := Store.get p.level i 0

/-- Fields of an entry (R47). -/
def lvKind (e : BitVec 256) : Nat := bits e 61 3
def lvState (e : BitVec 256) : Nat := bits e 58 3
def lvBuf (e : BitVec 256) : Bool := e.getLsbD 57
def lvFault (e : BitVec 256) : Bool := e.getLsbD 56
def lvParent (e : BitVec 256) : Nat := bits e 44 12
def lvLink (e : BitVec 256) : Nat := bits e 32 12
def lvWorld (e : BitVec 256) : Nat := bits e 24 8
def lvAgent (e : BitVec 256) : BitVec 24 := BitVec.ofNat 24 (bits e 0 24)
def lvDone (e : BitVec 256) : Nat := bits e 80 24
def lvTarget (e : BitVec 256) : Nat := bits e 104 24
def lvNotify (e : BitVec 256) : BitVec 24 := BitVec.ofNat 24 (bits e 128 24)
def lvEvt (e : BitVec 256) : Nat := bits e 152 4
def lvNotifyEn (e : BitVec 256) : Bool := e.getLsbD 156
def lvArm0 (e : BitVec 256) : Nat := bits e 192 12
def lvArm1 (e : BitVec 256) : Nat := bits e 204 12
def lvOutcome (e : BitVec 256) : Nat := bits e 216 2

/-- A field of n bits from bit lo up replaced. -/
def setBits {w : Nat} (v : BitVec w) (lo n x : Nat) : BitVec w :=
  BitVec.ofNat w (v.toNat / 2 ^ (lo + n) * 2 ^ (lo + n) + x % 2 ^ n * 2 ^ lo + v.toNat % 2 ^ lo)

/-- An entry of a kind: state, parent, world, children, agent. -/
def mkLevel (kind st parent world target : Nat) (agent : BitVec 24) : BitVec 256 :=
  BitVec.ofNat 256 (target % 2 ^ 24 * 2 ^ 104 + kind * 2 ^ 61 + st * 2 ^ 58 + parent % 4096 * 2 ^ 44 + world % 256 * 2 ^ 24 + agent.toNat)

/-- The entry is allocated and neither done nor cancelled. -/
def lvLive (e : BitVec 256) : Bool := lvKind e != 0 && lvState e != 2 && lvState e != 4

/-- Changes entry i. -/
def State.modLv (s : State) (p i : Nat) (f : BitVec 256 → BitVec 256) : State :=
  s.modPart p fun t => { t with level := Store.set t.level i (f (t.lv i)) 0 }

def State.lv (s : State) (p i : Nat) : BitVec 256 := (s.part p).lv i

/-- An ended object that nothing unended refers to: its entry may be used again (R48). -/
def Part.reusable (p : Part) (i : Nat) : Bool :=
  !lvLive (p.lv i) && !(p.level.any fun j => lvLive j.2 && (lvLink j.2 == i || lvParent j.2 == i))

/-- The first n entries for new objects: free ones, then ended ones (R47, R48). -/
def Part.freeLevels (p : Part) (n : Nat) : List Nat :=
  let free := ((List.range 4095).filter fun i => lvKind (p.lv i) == 0).take n
  if free.length = n then free
  else free ++ (((List.range 4095).filter fun i => lvKind (p.lv i) != 0 && p.reusable i).take (n - free.length))

/-- The job above an object: at most five levels. -/
def Part.jobOf (p : Part) : Nat → Nat → Nat
  | 0, i => i
  | n + 1, i => if lvKind (p.lv i) = 4 then i else p.jobOf n (lvParent (p.lv i))

/-- The job of an object. -/
def State.jobOf (s : State) (p i : Nat) : Nat := (s.part p).jobOf 6 i

/-- The supervisor agent of a unit's job (R34). -/
def State.supervisorOf (s : State) (p launch : Nat) : BitVec 24 := lvAgent (s.lv p (s.jobOf p launch))

/-- Objects under another: those whose chain of parents meets it. -/
def Part.under (p : Part) (top : Nat) : Nat → Nat → Bool
  | 0, i => i == top
  | n + 1, i => i == top || (lvKind (p.lv i) != 0 && lvKind (p.lv i) != 4 && p.under top n (lvParent (p.lv i)))

/-- The objects of a partition at or under one. -/
def State.subtree (s : State) (p top : Nat) : List Nat :=
  ((s.part p).level.map (·.1)).filter fun i => (s.part p).under top 6 i

end Sys2Proof.Machine
end

