-- ==== Sys2Proof/Machine/Tokens.lean ====
section
/-!
DEFINITION. Owner tokens (R84 to R105, R276 to R278): held-token places, the transfers and the other token operations as they are done at
the home, operations in progress, what the end of a unit and a braid does to tokens, and the token operations of slot E.
-/

namespace Sys2Proof.Machine

/-! Held-token places (R90, R91). -/

/-- An agent of one of this device's braids. -/
def State.isLocal (s : State) (a : BitVec 24) : Bool := agentDev a == s.device && agentBraid a < 96

/-- The saved image that holds the places of a strand's unit of a world. -/
def State.heldImage (s : State) (a : BitVec 24) (w : Nat) : Bool :=
  agentNo a < 4 && !((s.strand (agentBraid a) (agentNo a)).slot0.live && recWorld (s.strand (agentBraid a) (agentNo a)).slot0.bind == w) &&
    s.images.any fun i => i.braid == agentBraid a && i.strand == agentNo a && i.world == w && i.slotNo == 0

/-- Changes the places of an agent where they stand: in its braid, or in its unit's saved image. -/
def State.modHeld (s : State) (a : BitVec 24) (w : Nat) (f : List Held → List Held) : State :=
  if !s.isLocal a then s
  else if s.heldImage a w then
    { s with images := s.images.map fun i => if i.braid == agentBraid a && i.strand == agentNo a && i.world == w && i.slotNo == 0 then { i with held := f i.held } else i }
  else s.modBraid (agentBraid a) fun t => { t with held := f t.held }

/-- The places of an agent's unit of a world. -/
def State.heldOf (s : State) (a : BitVec 24) (w : Nat) : List Held :=
  (s.braid (agentBraid a)).held.filter (fun h => h.agent == a && h.world == w) ++
    (s.images.filter fun i => i.braid == agentBraid a && i.strand == agentNo a && i.world == w).flatMap (·.held)

/-- The places of an agent in every world. -/
def State.heldAll (s : State) (a : BitVec 24) : List Held :=
  if !s.isLocal a then []
  else (s.braid (agentBraid a)).held.filter (·.agent == a) ++ (s.images.filter fun i => i.braid == agentBraid a && i.strand == agentNo a).flatMap (·.held)

/-- The world of the unit whose place an entry of an agent takes (R91): that of the token where the strand has a unit of it, else that of the unit it has. -/
def State.unitWorld (s : State) (a : BitVec 24) (w : Nat) : Nat :=
  let z := (s.strand (agentBraid a) (agentNo a)).slot0
  if !(s.isLocal a && agentNo a < 4) || s.hasUnit (agentBraid a) (agentNo a) w || z.st == .empty then w else recWorld z.bind

/-- Free places for one more entry of each agent of a list (R90): 256 of a strand in a world, 256 of a braid's engines, 1,024 of a braid. The braid's places count
against a recipient whose world is switched out too, whose entry waits in its context (log 57, DESIGN CHOICE: R91 is silent). Agents outside the device's
braids need none. -/
def State.roomFor (s : State) (as : List (BitVec 24)) (w : Nat) : Bool :=
  let as := as.filter s.isLocal
  let engine := fun (a c : BitVec 24) => 4 ≤ agentNo c && agentBraid c == agentBraid a
  as.all fun a =>
    let t := s.braid (agentBraid a)
    t.held.length + (as.filter fun c => agentBraid c == agentBraid a).length ≤ 1024 &&
      (if agentNo a < 4 then (s.heldOf a (s.unitWorld a w)).length + (as.filter (· == a)).length ≤ 256
       else (t.held.filter fun h => engine a h.agent).length + (as.filter (engine a)).length ≤ 256)

/-- The world under which a place of an agent stands: the one asked for, where it has such a place. -/
def State.heldWorld (s : State) (a : BitVec 24) (w kind base log2 : Nat) : Nat :=
  if (s.heldOf a w).contains ⟨a, w, kind, base, log2⟩ then w
  else match (s.heldAll a).find? fun h => h.kind == kind && h.base == base && h.log2 == log2 with
    | some h => h.world
    | none => w

/-- Adds a place; removes one; puts others where one stands, as a lend does (R90). -/
def State.addHeld (s : State) (a : BitVec 24) (w kind base log2 : Nat) : State :=
  let v := s.unitWorld a w
  s.modHeld a v (· ++ [⟨a, v, kind, base, log2⟩])
def State.swapHeld (s : State) (a : BitVec 24) (w kind base log2 : Nat) (new : List (Nat × Nat × Nat)) : State :=
  let v := s.heldWorld a w kind base log2
  s.modHeld a v fun l => if l.contains ⟨a, v, kind, base, log2⟩ then l.erase ⟨a, v, kind, base, log2⟩ ++ new.map fun n => ⟨a, v, n.1, n.2.1, n.2.2⟩ else l
def State.dropHeld (s : State) (a : BitVec 24) (w kind base log2 : Nat) : State := s.swapHeld a w kind base log2 []
def State.hasHeld (s : State) (a : BitVec 24) (kind base log2 : Nat) : Bool :=
  (s.heldAll a).any fun h => h.kind == kind && h.base == base && h.log2 == log2

/-! Operations at the home. -/

/-- A token operation of an agent of a world (R95, R96, R277): opcode of slot E, range, recipient, counter, the world of a new token, and the
operation in progress that this is, if any. -/
structure TokArgs where
  op : Nat
  issuer : BitVec 24
  world : Nat
  base : Nat
  log2 : Nat
  agent : BitVec 24 := 0
  evt : Nat := 0
  tworld : Nat := 0
  self : Option Nat := none
  /-- The base translated to no aligned range (R85). -/
  bad : Bool := false
  deriving DecidableEq, Repr

/-- The base or size breaks R85. -/
def TokArgs.badAlign (q : TokArgs) : Bool := q.bad || q.log2 < 12 || 36 < q.log2 || q.base % 2 ^ q.log2 != 0

/-- Steps 1 to 3 of another transfer of the token, or of its halves, are in progress (R98). -/
def State.tokenBusy (s : State) (q : TokArgs) : Bool :=
  s.xfers.any fun t => t.started && t.moves && q.self != some t.id && t.base < q.base + 2 ^ q.log2 && q.base < t.base + t.span

/-- The arm, with its partition, of an agent's buffered unit of a world (R100). -/
def State.agentArm (s : State) (a : BitVec 24) (w : Nat) : Option (Nat × Nat) :=
  if !(s.isLocal a && agentNo a < 4) then none
  else
    let z := (s.strand (agentBraid a) (agentNo a)).slot0
    let r := if z.st != .empty && recWorld z.bind == w then some z.bind
      else (s.images.find? fun i => i.braid == agentBraid a && i.strand == agentNo a && i.world == w && i.slotNo == 0).map (·.slot.bind)
    r.bind fun r => if recBuf r then some (partOf (agentBraid a), recLaunch r) else none

/-- The token is held provisionally by another arm than the issuer's (R100). -/
def State.otherArm (s : State) (q : TokArgs) (t : Token) : Bool := t.prov && s.agentArm q.issuer q.world != some (t.armPart, t.arm)

/-- A recipient is refused (R89, R91): NOAGENT, ROSTER, WORLD; 0 where it may receive. -/
def State.recipientStatus (s : State) (w : Nat) (a : BitVec 24) : Nat :=
  if !agentOk a then 12
  else if agentDev a ≠ s.device then (if s.onRoster w (agentDev a) then 0 else 8)
  else if 96 ≤ agentBraid a then 0
  else if agentNo a < 4 then (if s.hasUnit (agentBraid a) (agentNo a) w then 0 else 7)
  else if (List.range 4).any fun k => s.hasUnit (agentBraid a) k w then 0 else 7

/-- The issuer's unit is the holder: an agent of a braid has its place for the token in that unit's world (R91). -/
def State.isHolder (s : State) (q : TokArgs) (t : Token) : Bool :=
  t.holder == q.issuer && (!s.isLocal q.issuer || (s.heldOf q.issuer q.world).contains ⟨q.issuer, q.world, 0, t.base, t.log2⟩)

/-- The requirements of R96 in their order: the status of the first not met, else 0. -/
def tokenRequires (s : State) (q : TokArgs) (t : Token) : Nat :=
  let me := s.isHolder q t
  match q.op with
  | 9 => if !me then 2 else if t.lend.length ≠ 0 then 4 else if t.mode ≠ 0 then 3 else 0
  | 10 => if !me then 2 else if t.mode ≠ 0 then 3 else if 4 ≤ t.lend.length then 4 else 0
  | 11 => if !me then 2 else if t.mode ≠ 0 then 3 else 0
  | 12 => if !me then 2 else if t.mode ≠ 0 then 3 else if t.lend.isEmpty then 4 else 0
  | 13 => if !me then 2 else if t.mode ≠ 0 then 3 else if t.log2 ≤ 12 then 9 else 0
  | 14 =>
    if !me then 2
    else match s.tokenExact (t.base + 2 ^ t.log2) t.log2 with
      | none => 10
      | some u =>
        if s.isHolder q u && t.mode == 0 && u.mode == 0 && t.lend == u.lend && t.world == u.world && t.orph == u.orph &&
          t.dmg == u.dmg && !t.prov && !u.prov then 0 else 10
  | 15 => if !me then 2 else if t.mode ≠ 0 then 3 else if t.dmg then 11 else 0
  | 16 => if !me then 2 else if t.mode ≠ 0 then 3 else if t.dmg then 11 else if !isDevMem t.base then 3 else 0
  | 17 => if !me then 2 else if t.mode = 0 then 3 else if t.count ≠ 0 then 5 else 0
  | 18 => if q.world ≠ t.world then 7 else if t.mode = 0 then 3 else if 65535 ≤ t.count then 5 else 0
  | 19 => if t.mode ≠ 0 && (s.heldOf q.issuer q.world).contains ⟨q.issuer, q.world, t.mode, t.base, t.log2⟩ then 0 else 2
  | _ => if !me then 2 else if !t.dmg then 3 else 0

/-- The recipient of a transfer (R96). -/
def tokenTo (q : TokArgs) (t : Token) : BitVec 24 :=
  match q.op with
  | 10 => q.agent
  | 11 => q.agent
  | 12 => t.lend.headD 0
  | _ => q.issuer

/-- Entries of a home's table in use (R88). -/
def State.homeCount (s : State) (home : Nat) : Nat := (s.tokens.filter fun t => homeSlice t.base == home).length

/-- Agents that need one more place (R90): the recipient, a lender whose entry is gone, and for a split every agent with a place for the token. -/
def State.tokenNeeds (s : State) (q : TokArgs) (t : Token) : List (BitVec 24) :=
  match q.op with
  | 10 => [q.agent]
  | 11 => [q.agent]
  | 12 => if s.hasHeld (t.lend.headD 0) 3 t.base t.log2 then [] else [t.lend.headD 0]
  | 13 => t.holder :: t.lend.dedup.flatMap fun a =>
      List.replicate (min (t.lend.count a) ((s.heldAll a).countP fun h => h.kind == 3 && h.base == t.base && h.log2 == t.log2)) a
  | 18 => [q.issuer]
  | _ => []

/-- A provisional change: the first one keeps the state from before (R100). -/
def State.provision (s : State) (rcv : BitVec 24) (old new : Token) : Token :=
  match s.agentArm rcv old.world with
  | none => new
  | some (p, m) =>
    if old.prov then new
    else { new with prov := true, arm := m, armPart := p, snapHolder := old.holder, snapDepth := old.lend.length, snapMode := old.mode, snapLend := old.lend }

/-- The effect of R96 on the home entry and the held-token entries; the bump of step 4 is the caller's. -/
def tokenEffect (s : State) (q : TokArgs) (t : Token) : State :=
  let w := q.world
  let b := t.base
  let l := t.log2
  let upd (f : Token → Token) : State := s.setToken b l (f t)
  match q.op with
  | 9 => { s with tokens := s.tokens.filter fun u => !(u.base == b && u.log2 == l) }.dropHeld q.issuer w 0 b l
  | 10 => ((upd fun t => s.provision q.agent t { t with holder := q.agent, lend := q.issuer :: t.lend }).swapHeld q.issuer w 0 b l [(3, b, l)]).addHeld q.agent t.world 0 b l
  | 11 => ((upd fun t => s.provision q.agent t { t with holder := q.agent }).dropHeld q.issuer w 0 b l).addHeld q.agent t.world 0 b l
  | 12 =>
    let rcv := t.lend.headD 0
    let rest := t.lend.drop 1
    (((upd fun t => s.provision rcv t { t with holder := rcv, lend := rest, orph := t.orph && !rest.isEmpty }).dropHeld q.issuer w 0 b l).dropHeld rcv t.world 3 b l).addHeld
      rcv t.world 0 b l
  | 13 =>
    let h := 2 ^ (l - 1)
    let s1 := { s with tokens := (s.tokens.map fun u => if u.base == b && u.log2 == l then { t with log2 := l - 1 } else u) ++ [{ t with base := b + h, log2 := l - 1 }] }
    let halve (s : State) (a : BitVec 24) (w kind : Nat) : State := s.swapHeld a w kind b l [(kind, b, l - 1), (kind, b + h, l - 1)]
    t.lend.foldl (fun s a => halve s a t.world 3) (halve s1 t.holder w 0)
  | 14 =>
    let h := 2 ^ l
    let s1 := { s with tokens := (s.tokens.filter fun u => !(u.base == b + h && u.log2 == l)).map fun u => if u.base == b && u.log2 == l then { t with log2 := l + 1 } else u }
    let join (s : State) (a : BitVec 24) (w kind : Nat) : State := (s.dropHeld a w kind (b + h) l).swapHeld a w kind b l [(kind, b, l + 1)]
    t.lend.foldl (fun s a => join s a t.world 3) (join s1 t.holder w 0)
  | 15 => upd fun t => { t with mode := 1, count := 0 }
  | 16 => upd fun t => { t with mode := 2, count := 0 }
  | 17 => upd fun t => { t with mode := 0 }
  | 18 => (upd fun t => s.provision q.issuer t { t with count := t.count + 1 }).addHeld q.issuer w t.mode b l
  | 19 => (upd fun t => { t with count := t.count - 1 }).dropHeld q.issuer w t.mode b l
  | _ => upd fun t => { t with dmg := false }

/-- The bump of step 4: only a strand of this device has a counter (R95). -/
def State.bumpAgent (s : State) (a : BitVec 24) (w evt : Nat) : State :=
  if s.isLocal a && agentNo a < 4 then s.modUnit (agentBraid a) (agentNo a) (s.unitWorld a w) fun t => { t with r := t.r.bumpOnly evt } else s

/-- A range listed by a teardown that is not complete (R387). -/
def State.listedRange (s : State) (base log2 : Nat) : Bool :=
  s.worlds.any fun e => e.2.phase == 2 && e.2.listRanges.any fun r => r.1 < base + 2 ^ log2 && base < r.1 + 2 ^ r.2

/-- TNEW at the homes (R277). -/
def tokenNew (s : State) (q : TokArgs) : Nat × State :=
  if q.badAlign then (9, s)
  else if !agentOk q.agent then (12, s)
  else if s.tokens.any (fun t => t.base < q.base + 2 ^ q.log2 && q.base < t.base + 2 ^ t.log2) || s.listedRange q.base q.log2 then (13, s)
  else if 262144 ≤ s.homeCount (homeSlice q.base) || !s.roomFor [q.agent] q.tworld then (1, s)
  else
    let t : Token := { holder := q.agent, lend := [], mode := 0, prov := false, orph := false, dmg := false, count := 0, world := q.tworld,
                       log2 := q.log2, base := q.base, snapHolder := 0, snapDepth := 0, snapMode := 0, arm := 0 }
    (0, (({ s with tokens := s.tokens ++ [t] }).addHeld q.agent q.tworld 0 q.base q.log2).bumpAgent q.agent q.tworld q.evt)

/-- A transfer, or TDEL, at the home (R85, R95 to R98, R277): its status (R97), and the machine after it, unchanged unless the status is OK. The order of the
checks the rules do not order among each other is log 24's: ALIGN, NOTHELD, BUSY, the row of R96, the recipient, FULL. -/
def tokenTransfer (s : State) (q : TokArgs) : Nat × State :=
  if q.badAlign || (q.op == 14 && (35 < q.log2 || q.base % 2 ^ (q.log2 + 1) != 0)) then (9, s)
  else match s.tokenExact q.base q.log2 with
    | none => (2, s)
    | some t =>
      if s.tokenBusy q || s.otherArm q t then (6, s)
      else
        let c := tokenRequires s q t
        let rcv := tokenTo q t
        let r := if q.op = 10 ∨ q.op = 11 ∨ q.op = 12 then s.recipientStatus t.world rcv else 0
        if c ≠ 0 then (c, s)
        else if r ≠ 0 then (r, s)
        else if !s.roomFor (s.tokenNeeds q t) t.world then (1, s)
        else if q.op = 13 && 262144 ≤ s.homeCount (homeSlice (q.base + 2 ^ (q.log2 - 1))) then (1, s)
        else (0, (tokenEffect s q t).bumpAgent rcv t.world q.evt)

/-- Any token operation but TQRY. -/
def tokenRun (s : State) (q : TokArgs) : Nat × State := if q.op = 8 then tokenNew s q else tokenTransfer s q

/-- An entry of the owner token table (R88). -/
def Token.entry (t : Token) : BitVec 256 :=
  let ln := fun i => (t.lend.getD i 0).toNat
  BitVec.ofNat 256 (t.holder.toNat * 2 ^ 232 + ln 0 * 2 ^ 208 + ln 1 * 2 ^ 184 + ln 2 * 2 ^ 160 + ln 3 * 2 ^ 136 + t.lend.length % 8 * 2 ^ 133 +
    t.mode % 4 * 2 ^ 131 + bit t.prov * 2 ^ 130 + bit t.orph * 2 ^ 129 + bit t.dmg * 2 ^ 128 + t.count % 65536 * 2 ^ 112 + t.world % 256 * 2 ^ 104 +
    t.log2 % 64 * 2 ^ 98 + t.base / 4096 % 2 ^ 40 * 2 ^ 58 + t.snapHolder.toNat * 2 ^ 34 + t.snapDepth % 8 * 2 ^ 31 + t.snapMode % 4 * 2 ^ 29 +
    t.arm % 4096 * 2 ^ 17 + 1)

/-- TQRY's answer (R278): status and the four words. -/
def tokenQuery (s : State) (w pa : Nat) : Nat × BitVec 256 :=
  match s.tokenAt pa with
  | some t => if t.world = w then (0, t.entry) else (2, 0)
  | none => (2, 0)

/-! The end of a unit (R34, R50, R102) and of speculation (R53, R100). -/

/-- A token moves with nothing asked and no counter bumped: from its holder to another agent, popping the chain where it returns. -/
def moveToken (s : State) (t : Token) (rcv : BitVec 24) (pop : Bool) : State :=
  let rest := if pop then t.lend.drop 1 else t.lend
  let s := s.setToken t.base t.log2 { t with holder := rcv, lend := rest, orph := t.orph && !rest.isEmpty }
  let s := s.dropHeld t.holder t.world 0 t.base t.log2
  let s := if pop then s.dropHeld rcv t.world 3 t.base t.log2 else s
  s.addHeld rcv t.world 0 t.base t.log2

/-- A chain whose lender's unit has ended (R102): the earliest lender is replaced by the supervisor agent, any other entry removed. -/
def orphanChain (chain : List (BitVec 24)) (a sup : BitVec 24) : List (BitVec 24) :=
  (chain.zipIdx.filter fun e => e.1 != a || e.2 + 1 == chain.length).map fun e => if e.1 == a then sup else e.1

/-- A lender's unit has ended (R102). A supervisor that replaces the earliest lender and has no free place stands in the chain without a lent-out entry (log 57,
DESIGN CHOICE); the state kept from before speculation follows the same rule (log 57, DEDUCED). -/
def orphanToken (s : State) (t : Token) (a sup : BitVec 24) : State :=
  let s := s.dropHeld a t.world 3 t.base t.log2
  let put := t.lend.getLast? == some a && s.roomFor [sup] t.world
  let chain := orphanChain t.lend a sup
  let s := s.setToken t.base t.log2 { t with
    lend := chain
    orph := !chain.isEmpty
    snapLend := orphanChain t.snapLend a sup
    snapHolder := if t.prov && t.snapHolder == a && !t.snapLend.contains a then sup else t.snapHolder }
  if put then s.addHeld sup t.world 3 t.base t.log2 else s

/-- A token that ends a unit's hold: back to LEND0, or passed to the supervisor agent, or to the host agent where that would end FULL or WORLD. -/
def dropToken (s : State) (t : Token) (sup : BitVec 24) : State :=
  match t.lend with
  | l :: _ => moveToken s t l true
  | [] => moveToken s t (if s.recipientStatus t.world sup = 0 && s.roomFor [sup] t.world then sup else hostAgent s.device) false

/-- What a unit's agent holds is given back, passed on and released, and its lends are orphaned (R34, R102). Each move is a transfer: the range leaves the
caches of the agent's braid (R95). -/
def endTokens (s : State) (a : BitVec 24) (w : Nat) (sup : BitVec 24) (hs : List Held) : State :=
  hs.foldl (fun s h =>
    if !(s.heldOf a w).contains ⟨a, w, h.kind, h.base, h.log2⟩ then s
    else match s.tokenExact h.base h.log2 with
    | none => s.dropHeld a w h.kind h.base h.log2
    | some t =>
      let s := if h.kind ≠ 3 && s.isLocal a then s.flushRange (agentBraid a) h.base (2 ^ h.log2) else s
      match h.kind with
      | 0 => if t.holder == a then dropToken s t sup else s.dropHeld a w 0 h.base h.log2
      | 3 => orphanToken s t a sup
      | k => (s.setToken h.base h.log2 { t with count := t.count - 1 }).dropHeld a w k h.base h.log2) s

/-- Tickets and participations that the agents of a token's arm hold of it: those of units, and those of units that have halted (R100). -/
def State.armTickets (s : State) (t : Token) : List Held :=
  let of (h : Held) : Bool := (h.kind == 1 || h.kind == 2) && h.base == t.base && h.log2 == t.log2
  ((braidsOf t.armPart).flatMap fun b => (s.braid b).held.filter fun h => of h && s.agentArm h.agent h.world == some (t.armPart, t.arm)) ++
    (s.images.flatMap fun i => i.held.filter fun h => of h && s.agentArm h.agent h.world == some (t.armPart, t.arm)) ++
    (braidsOf t.armPart).flatMap fun b => (List.range 4).flatMap fun k => ((s.strand b k).heldOps.filter fun c => c.op == 63 && c.launch == t.arm).flatMap fun c =>
      (c.held.map fun h => ({ agent := agentId s.device b k, world := c.world, kind := h.2.2, base := h.1, log2 := h.2.1 } : Held)).filter of

/-- A token held provisionally by a losing arm returns to its state from before speculation, and the arm's entries for it are removed, each ticket with its count
(R100; log 57, DEDUCED). A holder from before whose unit has ended gives way to the host agent (log 57, DESIGN CHOICE). -/
def revertToken (s : State) (t : Token) : State :=
  let back := if s.recipientStatus t.world t.snapHolder = 0 then t.snapHolder else hostAgent s.device
  let tickets := s.armTickets t
  let s := s.setToken t.base t.log2 { t with
    holder := back
    lend := t.snapLend
    mode := t.snapMode
    prov := false
    orph := t.orph && !t.snapLend.isEmpty
    count := t.count - tickets.length }
  let s := tickets.foldl (fun s h => s.dropHeld h.agent h.world h.kind t.base t.log2) s
  let s := s.dropHeld t.holder t.world 0 t.base t.log2
  let s := (t.lend.diff t.snapLend).foldl (fun s a => s.dropHeld a t.world 3 t.base t.log2) s
  let s := (t.snapLend.diff t.lend).foldl (fun s a => s.addHeld a t.world 3 t.base t.log2) s
  s.addHeld back t.world 0 t.base t.log2

/-- Provisional tokens of an arm revert. -/
def revertArm (s : State) (p arm : Nat) : State :=
  (s.tokens.filter fun t => t.prov && t.armPart == p && t.arm == arm).foldl revertToken s

/-- Provisional tokens of an arm become firm. -/
def firmArm (s : State) (p arm : Nat) : State :=
  { s with tokens := s.tokens.map fun t => if t.prov && t.armPart == p && t.arm == arm then { t with prov := false } else t }

/-! Operations in progress (R95, R98 to R100). -/

/-- The context of a strand's unit of a world, where it stands. -/
def State.unitBody (s : State) (b k w : Nat) : Option Strand :=
  if (s.strand b k).slot0.live && recWorld (s.strand b k).slot0.bind == w then some (s.strand b k)
  else (s.images.find? fun i => i.braid == b && i.strand == k && i.world == w && i.slotNo == 0).map (·.body)

/-- Step 1 of R95: every access of a unit to a range made before is performed: what a route holds, its engine commands and those saved with it
among them (R292). A message that has been sent has read its payload, and a later transfer does not affect a receive (R281). -/
def State.rangeIdle (s : State) (b k w base size before : Nat) : Bool :=
  let touches := fun (c : Cmd) => c.seq < before && c.op != 23 && !(c.sent && c.engine == 2) && cmdTouches s b c base size
  (match s.unitBody b k w with
    | some u => !(u.sbd.any fun v => v.req.any fun r => !r.2.slab && r.2.addr < base + size && base < r.2.addr + r.2.size) && !u.savedCmds.any touches
    | none => true) &&
  !(s.braid b).cmds.any fun c => c.strand == k && c.world == w && touches c

/-- Step 2 of R95 can be done: every dirty line of the range can be written back by its route. -/
def State.canFlush (s : State) (b w base size : Nat) : Bool :=
  !(s.braid b).cache.any fun c => c.dirty && c.arm.isNone && base ≤ c.line && c.line < base + size && fare s b w c.line 1 != .sent

/-- The braids whose caches step 2 of an operation clears of the range (R95, R96): every braid for TASHR. -/
def Xfer.flushes (t : Xfer) (s : State) : List Nat :=
  match t.op with
  | 8 => []
  | 21 => []
  | 16 => s.braids.map (·.1)
  | _ => [t.braid]

/-- The operation as the home sees it. -/
def Xfer.args (t : Xfer) (dev : Nat) : TokArgs where
  op := t.op
  issuer := agentId dev t.braid t.strand
  world := t.world
  base := t.base
  log2 := t.log2
  agent := t.agent
  evt := t.evt
  tworld := t.tworld
  self := some t.id
  bad := t.badAlign

/-- Steps 1 and 2 of R95 can end now. A query waits for the transfers of its token that have reached the home (R278). -/
def State.xferReady (s : State) (t : Xfer) : Bool :=
  match t.op with
  | 8 => true
  | 21 => !s.tokenBusy { t.args s.device with log2 := 0 }
  | _ => s.rangeIdle t.braid t.strand t.world t.base t.span t.id && (t.flushes s).all fun b => s.canFlush b t.world t.base t.span

/-- An earlier operation of the same unit comes first: one that has not reached the same home (R127), or any where both were held until a decision (R100). -/
def State.xferBehind (s : State) (t : Xfer) : Bool :=
  s.xfers.any fun u => u.id < t.id && u.braid == t.braid && u.strand == t.strand && u.world == t.world &&
    ((!u.started && homeSlice u.base == homeSlice t.base) || (u.inOrder && t.inOrder))

/-- The status and, for TQRY, the entry reach the unit's registers (R276, R278). -/
def Xfer.deliver (t : Xfer) (status : Nat) (entry : BitVec 256) (st : Strand) : Strand :=
  { st with sbd := st.sbd.map fun v =>
      if v.tok = some t.id then
        { v with tok := none, effs := [.x t.dst (BitVec.ofNat 64 status), .latch 6 (BitVec.ofNat 64 status) t.latchGen] ++
            (if t.op = 21 then (List.range 4).map fun i => .k (t.kb + i) (BitVec.ofNat 64 (bits entry (64 * i) 64)) else []) }
      else v }

/-- The lines of a damaged range lost to an error read as zero once it is revived (R105, R420). -/
def State.clearPoison (s : State) (base size : Nat) : State :=
  let bad := s.poison.filter fun l => base ≤ l && l < base + size
  { bad.foldl (fun s l => s.writeN l (List.replicate 128 0)) s with poison := s.poison.filter fun l => !(base ≤ l && l < base + size) }

/-- An operation in progress ends with its status (R95, R277, R278); what waited for it is accepted (R99). -/
def xferComplete (s : State) (t : Xfer) : State :=
  let (c, s') := if t.op = 21 then ((tokenQuery s t.world t.base).1, s) else tokenRun s (t.args s.device)
  let e := if t.op = 21 then (tokenQuery s t.world t.base).2 else 0
  let s' := if c ≠ 0 then s' else (t.flushes s).foldl (fun s b => s.flushRange b t.base t.span) s'
  let s' := if c = 0 && t.op == 20 then s'.clearPoison t.base t.span else s'
  acceptPass ({ s' with xfers := s'.xfers.filter fun u => u.id != t.id }.modUnit t.braid t.strand t.world (t.deliver c e)) t.braid

/-- An operation in progress with a change. -/
def State.putXfer (s : State) (t : Xfer) : State := { s with xfers := s.xfers.map fun u => if u.id = t.id then t else u }

/-- TOKEN_TRANSFER_COMPLETE (R95 to R99, R134, R135): an operation reaches its home by the route book, or is held on a suspended entry; it takes effect once its
earlier accesses are done, and waits at its home until then. Another transfer of the token that is in progress there ends it with BUSY at once. One whose
entry is gone stays where it is (log 57, DESIGN CHOICE). -/
def completeTransfer (s : State) (n : Nat) : State :=
  match s.xfers[n]? with
  | none => s
  | some t =>
    if t.arm.isSome || t.entry.isSome || s.xferBehind t then s
    else if t.started then (if s.xferReady t then xferComplete s t else s)
    else match fareHome s t.braid t.world t.base with
      | .noEntry => s
      | .offRoster => s
      | .held i f => ((Fare.held i f).apply s t.braid).putXfer { t with entry := some i }
      | .lost i => s.putXfer { t with entry := some i, lost := true }
      | .sent => if s.xferReady t || (t.moves && s.tokenBusy (t.args s.device)) then xferComplete s t else s.putXfer { t with started := true }

/-! Slot E: words, staging blocks and checks (R180, R266). -/

/-- Staging register KB + i as the bundle reads it. -/
def Ctx.kw (x : Ctx) (f : FmtE) (i : Nat) : Word := Store.get x.r.k (f.kb.toNat + i) 0

/-- The block of n registers. -/
def Ctx.block (x : Ctx) (f : FmtE) (n : Nat) : List Word := (List.range n).map (x.kw f)

/-- Registers of the block. -/
def blockRes (f : FmtE) (n : Nat) : List Res := (List.range n).map fun i => .k (f.kb.toNat + i)

/-- The block would pass k15. -/
def pastK15 (f : FmtE) (n : Nat) : Bool := 16 < f.kb.toNat + n

/-- The parameter trap of slot E (R266). -/
def badParam (c : Bool) : List Trap := trapIf c { cause := 0x16, step := 6, slot := 6 }

/-- Opcode of a token operation: its block, and whether it names an agent. -/
def tokBlock (op : Nat) : Nat := match op with | 8 => 3 | 21 => 4 | _ => 2
def tokAgent (op : Nat) : Bool := op == 8 || op == 10 || op == 11 || op == 21

/-- The faults of the base of a token operation, which are precise, and a home with no entry in the route book (R83, R85, R134). -/
def Ctx.baseTraps (x : Ctx) (va : Nat) : List Trap :=
  let t (d : Nat) : Trap := { cause := 0x06, step := 7, sub := 1, slot := 6, addr := va, detail := d }
  if va / 2 ^ 48 ≠ 0 then [t 2]
  else match x.trans va with
    | .error f => [t f]
    | .ok e => match fareHome x.s x.b x.world (e.pa va) with
      | .noEntry => [{ cause := 0x0E, step := 8, slot := 6, detail := 9 * 128 }]
      | _ => []

/-- A token operation of slot E (R276 to R278): it enters its transfer, and its status is scoreboarded. -/
def tokOp (op : Nat) (f : FmtE) (x : Ctx) : SlotOp :=
  let n := tokBlock op
  let va := (x.kw f 0).toNat
  let w1 := x.kw f 1
  let l := bits w1 0 6
  let cell := x.r.cellX f.dst.toNat
  let pa := (x.paOf va).getD 0
  let regs : List Res := if op = 21 then (List.range 4).map fun i => .k (f.kb.toNat + i) else []
  { slot := 6
    runs := x.on f.pred
    guard := f.pred
    reads := x.resOf f.pred [] ++ blockRes f (if op = 8 then 3 else 2)
    dests := [.x cell, .latch 6] ++ regs
    early := if op = 8 ∨ op = 9 then x.privTrap 6 else []
    traps := badParam (pastK15 f n || f.flags.toNat % 32 != 0 || f.cls != 0 || (op == 21 && f.evt != 0) || bits w1 32 32 != 0 || bits w1 6 2 != 0 ||
        (!tokAgent op && bits w1 8 24 != 0) || (op == 8 && bits (x.kw f 2) 8 56 != 0)) ++ x.baseTraps va
    walks := [va]
    eff := fun s =>
      let t : Xfer := { id := s.serial, op := op, braid := x.b, strand := x.k, world := x.world, base := pa, log2 := l,
                        agent := BitVec.ofNat 24 (bits w1 8 24), evt := f.evt.toNat, tworld := bits (x.kw f 2) 0 8, badAlign := pa % 2 ^ l != 0 && op != 21,
                        dst := cell, latchGen := x.st.c.gen, kb := f.kb.toNat, started := false, arm := x.arm }
      x.mod (·.addSbd { dests := [.x cell, .latch 6] ++ regs, effs := [], tok := some t.id, req := none, due := none })
        (x.useTlb va { s with xfers := s.xfers ++ [t], serial := s.serial + 1 }) }

def tnewOp (f : FmtE) (x : Ctx) : SlotOp := tokOp 8 f x
def tdelOp (f : FmtE) (x : Ctx) : SlotOp := tokOp 9 f x
def tlendOp (f : FmtE) (x : Ctx) : SlotOp := tokOp 10 f x
def tgiveOp (f : FmtE) (x : Ctx) : SlotOp := tokOp 11 f x
def tretOp (f : FmtE) (x : Ctx) : SlotOp := tokOp 12 f x
def tsplitOp (f : FmtE) (x : Ctx) : SlotOp := tokOp 13 f x
def tmergeOp (f : FmtE) (x : Ctx) : SlotOp := tokOp 14 f x
def tshareOp (f : FmtE) (x : Ctx) : SlotOp := tokOp 15 f x
def tashrOp (f : FmtE) (x : Ctx) : SlotOp := tokOp 16 f x
def tunshOp (f : FmtE) (x : Ctx) : SlotOp := tokOp 17 f x
def tacqOp (f : FmtE) (x : Ctx) : SlotOp := tokOp 18 f x
def trelOp (f : FmtE) (x : Ctx) : SlotOp := tokOp 19 f x
def treviveOp (f : FmtE) (x : Ctx) : SlotOp := tokOp 20 f x
def tqryOp (f : FmtE) (x : Ctx) : SlotOp := tokOp 21 f x

/-! The meanings of the token operations. -/

def execTnew (f : FmtE) (s : State) : Host.Outcome State Fault Refusal := issueOne (.tnew f) (tnewOp f) s
def execTdel (f : FmtE) (s : State) : Host.Outcome State Fault Refusal := issueOne (.tdel f) (tdelOp f) s
def execTlend (f : FmtE) (s : State) : Host.Outcome State Fault Refusal := issueOne (.tlend f) (tlendOp f) s
def execTgive (f : FmtE) (s : State) : Host.Outcome State Fault Refusal := issueOne (.tgive f) (tgiveOp f) s
def execTret (f : FmtE) (s : State) : Host.Outcome State Fault Refusal := issueOne (.tret f) (tretOp f) s
def execTsplit (f : FmtE) (s : State) : Host.Outcome State Fault Refusal := issueOne (.tsplit f) (tsplitOp f) s
def execTmerge (f : FmtE) (s : State) : Host.Outcome State Fault Refusal := issueOne (.tmerge f) (tmergeOp f) s
def execTshare (f : FmtE) (s : State) : Host.Outcome State Fault Refusal := issueOne (.tshare f) (tshareOp f) s
def execTashr (f : FmtE) (s : State) : Host.Outcome State Fault Refusal := issueOne (.tashr f) (tashrOp f) s
def execTunsh (f : FmtE) (s : State) : Host.Outcome State Fault Refusal := issueOne (.tunsh f) (tunshOp f) s
def execTacq (f : FmtE) (s : State) : Host.Outcome State Fault Refusal := issueOne (.tacq f) (tacqOp f) s
def execTrel (f : FmtE) (s : State) : Host.Outcome State Fault Refusal := issueOne (.trel f) (trelOp f) s
def execTrevive (f : FmtE) (s : State) : Host.Outcome State Fault Refusal := issueOne (.trevive f) (treviveOp f) s
def execTqry (f : FmtE) (s : State) : Host.Outcome State Fault Refusal := issueOne (.tqry f) (tqryOp f) s

end Sys2Proof.Machine
end

