-- ==== Sys2Proof/Machine/Units.lean ====
section
/-!
DEFINITION. What the level table and the bind slots do together (R33, R34, R41, R45, R47 to R53, R61): packets sent by commands, commands
accepted and commands held until a decision, launches, the end of a unit, and what follows when a level object ends, is cancelled or decided.
-/

namespace Sys2Proof.Machine

/-! Routes of slot E (R134, R137). -/

/-- Where the route book sends a packet: no entry, a peer off the roster, an entry with its suspension and words. -/
inductive Way where
  | noEntry
  | offRoster
  | entry (i : Nat) (susp : Bool) (ws : List Word)
  deriving DecidableEq, Repr

def State.wayTo (s : State) (b dest w : Nat) : Way :=
  let t := s.braid b
  match t.lookup dest w with
  | none => .noEntry
  | some i =>
    let e := t.rbOf i
    if e.roster && !s.onRoster w (dest / 256) then .offRoster else .entry i e.susp e.words

/-- A packet enters the network. -/
def State.inject (s : State) (p : Packet) : State := { s with packets := s.packets ++ [p], serial := s.serial + 1 }

/-- A request of a command's own network traffic: it is sent, held on a suspended entry, or fails with a status (R134, R135). The command
stands in the braid's list; `user` are the words of a user route. -/
def sendPacket (s : State) (b : Nat) (c : Cmd) (user : Option (List Word)) (dest : Nat) (mk : List Word → Packet)
    (fail : State → Nat → Nat → State) : State :=
  match user with
  | some ws => (s.putCmd b { c with sent := true, begun := true, entry := none }).inject (mk ws)
  | none =>
    match s.wayTo b dest c.world with
    | .noEntry => fail s 8 (9 * 128)
    | .offRoster => fail s 11 0
    | .entry i true _ => s.putCmd b { c with entry := some i, sent := false, begun := true }
    | .entry i false ws => (s.putCmd b { c with sent := true, begun := true, entry := some i }).inject (mk ws)

/-! Event bumps sent to other strands (R281, R282, R286). -/

/-- The bump packet of a command: NOTIFY (31), SEND with BUMP (22), the READY bump of a RECV (64). -/
def bumpPacket (s : State) (b : Nat) (c : Cmd) (ws : List Word) : Packet :=
  let n := match c.op with
    | 31 => (bits (c.word 0) 16 8 * 256 + bits (c.word 0) 9 7, bits (c.word 0) 5 4, bits (c.word 0) 24 4)
    | 22 => (bits (c.word 1) 0 16, bits (c.word 1) 24 2, bits (c.word 1) 28 4)
    | _ => (bits (c.word 2) 0 16, bits (c.word 2) 16 2, bits (c.word 2) 20 4)
  { mkPacket s b 7 ws n.1 c.world c.scope c.cls with strand := n.2.1, counter := n.2.2, owner := some (b, c.seq) }

/-- The words of a user route in a staging block (R279): they start at register `at_`. -/
def Cmd.userWords (c : Cmd) (at_ : Nat) : Option (List Word) :=
  if c.flags / 2 % 2 = 1 then some ((c.blk.drop at_).take (c.flags / 4 % 4 + 1)) else none

/-- NOTIFY's bump is sent (R286). -/
def sendNotify (s : State) (b : Nat) (c : Cmd) : State :=
  sendPacket s b c none (bits (c.word 0) 16 8 * 256 + bits (c.word 0) 9 7) (bumpPacket s b c) fun s code d => endCmd s b c code d

/-- The READY bump of a posted receive is sent; a failure writes the counter's status alone (R281). -/
def sendReady (s : State) (b : Nat) (c : Cmd) : State :=
  sendPacket s b c (c.userWords 3) (bits (c.word 2) 0 16) (bumpPacket s b c) fun s code d =>
    (s.modBraid b fun t => { t with cmds := t.cmds.filter fun e => e.seq != c.seq }).failUnit b c.strand c.world c.evt code d

/-! Launches (R287). -/

/-- The fields of a launch descriptor outside their limits; its reserved fields are ignored (R2). -/
def launchBad (d : Nat) : Bool :=
  (24 ≤ d / 2 ^ 240 % 32 && d / 2 ^ 240 % 32 != 31) || 16 < d / 2 ^ 112 % 32 || 64 < d / 2 ^ 176 % 128 || d % 64 != 0 ||
    (d / 2 ^ 112 % 32 != 0 && d / 2 ^ 128 % 16 != 0) || (d / 2 ^ 176 % 128 != 0 && d / 2 ^ 192 % 8 != 0) || d / 2 ^ 64 % 2 ^ 24 == 0

/-- Some token-list entry lends exclusively, where the list can be read. -/
def launchLends (s : State) (b w d : Nat) : Bool :=
  (List.range (d / 2 ^ 112 % 32)).any fun i =>
    match readVALE s b w (d / 2 ^ 128 % 2 ^ 48 + 16 * i) 16 with
    | .ok e => e / 2 ^ 88 % 4 == 0
    | .error _ => false

/-- A launch entered under a parent, which counts one child more. -/
def addLaunch (s : State) (p idx parent world count : Nat) : State :=
  (s.modLv p idx fun _ => mkLevel 1 1 parent world count 0).modLv p parent fun e => setBits e 104 24 (lvTarget e + 1)

/-- LAUNCH at the halyard: status, DETAIL and the machine after it. -/
def launchCmd (s : State) (b w va : Nat) : Nat × Nat × State :=
  let p := partOf b
  match readVALE s b w va 64 with
  | .error f => (1, f, s)
  | .ok d =>
    let parent := d / 2 ^ 88 % 2 ^ 12
    let e := s.lv p parent
    let fits := (lvKind e == 2 || lvKind e == 4) && lvWorld e == w
    if fits && (lvState e == 2 || lvState e == 4) then (14, 0, s)
    else if !fits || lvState e != 1 then (15, 1, s)
    else if launchBad d then (15, 2, s)
    else if 1 < d / 2 ^ 64 % 2 ^ 24 && launchLends s b w d then (15, 3, s)
    else match (s.part p).freeLevels 1 with
      | i :: _ => (0, i, addLaunch s p i parent w (d / 2 ^ 64 % 2 ^ 24))
      | [] => (15, 4, s)

/-! Slots (R40, R41, R45). -/

/-- The record of another slot moves in; the bits that tell of the slot's own past stay (R40). -/
def Slot.take (old new : Slot) : Slot :=
  { new with refused := old.refused, invalid := old.invalid, reason := old.reason, cause := old.cause }

/-- The records above slot n move down by one; a record that reaches slot 0 waits to start (R41). -/
def Strand.shift (t : Strand) (n : Nat) : Strand :=
  { t with slot := (List.range 4).foldl (fun m i =>
      if i < n then m
      else
        let z := (Store.get t.slot i {}).take (if i < 3 then Store.get t.slot (i + 1) {} else {})
        Store.set m i (if i = 0 ∧ z.st ≠ .empty then { z with st := .waiting } else z) {}) t.slot }

/-- A lock that the preload of the record in slot n made (R43): the record of slot 1 has a key of its own, a record in slot 0 that waits has that or, after a
rerun, its strand's. -/
def preloadLock (t : Strand) (k n : Nat) (e : Nat × Nat × Nat) : Bool :=
  let z := Store.get t.slot n {}
  (e.1 == preloadKey k || (n == 0 && e.1 == k)) && z.lines.contains e.2.1 && e.2.2 == recWorld z.bind

/-- A record's preload is discarded (R45): its locked lines, the preloaded bytes and the reservation of its bank. -/
def discardPreload (s : State) (b k n : Nat) : State :=
  let z := Store.get (s.strand b k).slot n {}
  let bank := recPbank z.bind
  let s := s.modBraid b fun t =>
    let t := { t with icLocks := t.icLocks.filter fun e => !preloadLock (s.strand b k) k n e }
    if z.pad then { t with pad := t.pad.filter fun e => !(e.1 / 65536 == bank && e.1 % 65536 < 256 * dPlen z.descr) } else t
  s.modStrand b k fun t => { t with slot := Store.set t.slot n { z with pad := false, predone := false, lines := [],
                                                                        st := if z.st = .preloading ∨ z.st = .ready then .waiting else z.st } {} }

/-- Slabs of a strand and world are released (R34, R42); one that a command fills or drains keeps its state (R72). -/
def releaseSlabs (s : State) (b k w : Nat) : State :=
  s.modBraid b fun t => ((List.range 64).filter fun i =>
    let e := t.slabOf i
    slabSize e != 0 && slabWorld e == w && slabOwner e == k && slabState e != 1 && slabState e != 3).foldl (fun t i => t.freeSlab i) t

/-- Start-time transfers are undone, newest first (R42): a lend returns to its lender, a ticket or participation is released. -/
def undoStart (s : State) (b k : Nat) (z : Slot) : State :=
  let a := agentId s.device b k
  let w := recWorld z.bind
  let s := z.made.foldl (fun s m =>
    match s.tokenExact m.2.2.1 m.2.2.2 with
    | none => s
    | some t =>
      let s := s.flushRange b t.base (2 ^ t.log2)
      if m.1 = 0 then moveToken s t (t.lend.headD m.2.1) true
      else (s.setToken t.base t.log2 { t with count := t.count - 1 }).dropHeld a w m.1 t.base t.log2) s
  releaseSlabs s b k w

/-! Barriers of a unit that ends (R61). -/

/-- Records of a launch on a braid that name a barrier, as (strand, slot): bound ones, and those of units whose record is in a saved image alone. -/
def State.barUnits (s : State) (b launch j : Nat) : List (Nat × Nat) :=
  let names := fun (z : Slot) => z.st != .empty && recLaunch z.bind == launch && dBarCfg z.descr j != 0
  ((List.range 4).flatMap fun i => ((List.range 4).filter fun n => names (Store.get (s.strand b i).slot n {})).map fun n => (i, n)) ++
    (s.images.filter fun i => i.braid == b && i.evicted && recLaunch i.slot.bind == launch && dBarCfg i.slot.descr j != 0).map fun i => (i.strand, i.slotNo)

/-- A barrier with no unit of its launch left on the braid is free (R61). -/
def State.sweepBars (s : State) (b : Nat) : State :=
  s.modBraid b fun t => { t with bars := t.bars.map fun e =>
    match e.2.launch with
    | some l => if (s.barUnits b l e.1).isEmpty then (e.1, { e.2 with launch := none, expected := 0, arrived := 0 }) else e
    | none => e }

/-- One barrier loses a participant, whose partners never wait on it; or, where the unit starts again, its arrival alone. -/
def leaveBar (s : State) (b launch : Nat) (arrived again : Bool) (j : Nat) : State :=
  let v := Store.get (s.braid b).bars j {}
  if v.launch ≠ some launch then s
  else
    let v := { v with expected := if again then v.expected else v.expected - 1, arrived := if arrived then v.arrived - 1 else v.arrived }
    let s := s.modBraid b fun t => { t with bars := Store.put t.bars j v }
    if v.expected ≤ v.arrived ∧ v.arrived ≠ 0 then flipBar s b j else s

def leaveBars (s : State) (b launch : Nat) (desc : Rec) (arr : Store Bool) (again : Bool) : State :=
  ((List.range 8).filter fun j => dBarCfg desc j != 0).foldl (fun s j => leaveBar s b launch (Store.has arr j) again j) s

/-! The end of a unit (R34, R50). -/

/-- A strand with no unit: what belongs to the strand and its slots stays. Its registers hold what the unit left, what is in flight landed, until the
next unit starts (R36). -/
def Strand.vacate (t : Strand) (w : Nat) : Strand :=
  ({ slot := t.slot, r := (t.landUpTo (2 ^ 64)).r, c := { t.c with leaseHas := false, leaseAsked := false, barArr := [], syncArr := false }
     clk := t.clk, runCyc := t.runCyc, lastClk := t.lastClk, lastWorld := some w, heldOps := t.heldOps
     dbgAddr := t.dbgAddr, dbgCtl := t.dbgCtl, l1 := t.l1, mtlb := t.mtlb } : Strand).shift 0

/-- What a cancelled unit has under way stops (R50): its commands go, the slabs they had in a state leaving it; a packet that is out still gets its answer, with no
counter to tell; its receives are withdrawn and its token operations dropped (log 57, DEDUCED); its pending errors are logged against its world. -/
def dropWork (s : State) (b k w : Nat) (saved : List Cmd) (errs : List Nat) : State :=
  let mine := fun (c : Cmd) => c.strand == k && c.world == w
  let s := s.modBraid b fun t =>
    let gone := saved ++ t.cmds.filter fun c => mine c && !c.sent
    let t := { t with
      cmds := (t.cmds.filter fun c => !(mine c && !c.sent)).map fun c => if mine c then { c with evt := 16 } else c
      recvs := t.recvs.filter fun c => !mine c }
    gone.foldl (fun t c => t.endSlabs c false) t
  { s.modWorld w fun t => { t with lostErrs := t.lostErrs ++ errs } with
    xfers := s.xfers.filter fun t => !(t.braid == b && t.strand == k && t.world == w) }

/-- A saved unit ends by a cancel (R50). -/
def endImage (s : State) (i : Image) (again : Bool := false) : State :=
  let r := i.slot.bind
  let s := if i.slotNo = 0 then endTokens s (agentId s.device i.braid i.strand) i.world (s.supervisorOf i.part (recLaunch r)) i.held else s
  let s := { s with images := s.images.filter fun j => !(j.braid == i.braid && j.strand == i.strand && j.world == i.world && j.slotNo == i.slotNo) }
  let s := if i.slotNo = 0 then dropWork s i.braid i.strand i.world i.body.savedCmds i.body.pendErr else s
  let s := if i.slotNo = 0 then leaveBars s i.braid (recLaunch r) i.slot.descr i.body.c.barArr again else s
  if again then s else s.sweepBars i.braid

/-- The image of the unit whose record stands in slot 0 of a strand (R351). -/
def State.imageAt (s : State) (b k : Nat) : Option Image :=
  s.images.find? fun i => i.braid == b && i.strand == k && !i.evicted && i.world == recWorld (s.strand b k).slot0.bind

/-- The buffered lines a unit of an arm wrote leave the cache, its bytes with them; a line that another unit of the arm wrote too stays (log 15, DESIGN CHOICE). -/
def dropLines (s : State) (b arm : Nat) (mine : CLine → Bool) : State :=
  let gone := fun (c : CLine) => c.arm == some arm && mine c
  let lines := ((s.braid b).cache.filter gone).map (·.line)
  let s := s.modBraid b fun t => { t with
    cache := t.cache.filter fun c => !gone c
    buf := t.buf.filter fun e => !(e.arm == arm && lines.contains (lineOf e.addr)) }
  s.l1DropAll b lines.contains

/-- The end of the unit in slot 0 of a strand: its tokens, slabs, locks, lease, barriers and unmatched receives; its engine commands stop where
it is cancelled. The count in its launch is the caller's. Tokens of a buffered unit that halts wait for the decision (R100). `again`: the unit is rerun. -/
def endLive (s : State) (b k : Nat) (cancelled again : Bool) : State :=
  let z := (s.strand b k).slot0
  let r := z.bind
  let w := recWorld r
  let sup := s.supervisorOf (partOf b) (recLaunch r)
  let a := agentId s.device b k
  let s := if !cancelled then s
    else
      let s := stopCmds s b k
      dropWork s b k w (s.strand b k).savedCmds (s.strand b k).pendErr
  let s := if cancelled && recBuf r then dropLines s b (recLaunch r) fun c => c.who.all fun e => e.1 == a else s
  let held := (s.braid b).held.filter fun h => h.agent == a && h.world == w
  let wait : Cmd := { seq := s.serial, strand := k, world := w, op := 63, cls := 0, scope := 0, evt := 16, flags := 0,
                      blk := [BitVec.ofNat 64 sup.toNat], held := held.map fun h => (h.base, h.log2, h.kind), launch := recLaunch r }
  let s := if recBuf r && !cancelled then
      { s.modStrand b k fun t => { t with heldOps := t.heldOps.map (fun c => if c.launch = recLaunch r then { c with evt := 16 } else c) ++ [wait] }
        with serial := s.serial + 1 }
    else endTokens s a w sup held
  let s := releaseSlabs s b k w
  let s := s.modBraid b fun t => { (t.dropLease k) with
    icLocks := t.icLocks.filter fun e => e.1 != k
    recvs := t.recvs.filter fun c => !(c.strand == k && c.world == w) }
  let s := leaveBars s b (recLaunch r) z.descr (s.strand b k).c.barArr again
  let s := s.modStrand b k fun t =>
    let t := if cancelled then { t with heldOps := t.heldOps.filter fun c => c.launch != recLaunch r || c.op == 63 } else t
    t.vacate w
  if again then s else s.sweepBars b

/-- The end of the unit in slot 0, wherever its context stands. -/
def endUnit (s : State) (b k : Nat) (cancelled : Bool) (again : Bool := false) : State :=
  if (s.strand b k).slot0.saved then
    let s := releaseSlabs s b k (recWorld (s.strand b k).slot0.bind)
    let s := match s.imageAt b k with | some i => endImage s i again | none => s
    let s := s.modStrand b k (·.shift 0)
    if again then s else s.sweepBars b
  else endLive s b k cancelled again

/-- Every bound or saved unit of a launch ends by a cancel. -/
def cancelUnits (s : State) (p launch : Nat) : State :=
  let mine := fun (z : Slot) => z.st != .empty && recLaunch z.bind == launch
  let s := (braidsOf p).foldl (fun s b => (List.range 4).foldl (fun s k =>
    let s := [3, 2, 1].foldl (fun s n =>
      if mine (Store.get (s.strand b k).slot n {}) then (discardPreload s b k n).modStrand b k (·.shift n) else s) s
    let z := (s.strand b k).slot0
    if !mine z then s
    else if z.st = .running ∨ z.st = .frozen then
      let s := if recDep (Store.get (s.strand b k).slot 1 {}).bind then discardPreload s b k 1 else s
      endUnit s b k true
    else (discardPreload (undoStart s b k z) b k 0).modStrand b k (·.shift 0)) s) s
  let s := (braidsOf p).foldl (fun s b => s.sweepBars b) s
  (s.images.filter fun i => i.part == p && recLaunch i.slot.bind == launch).foldl (fun s i => endImage s i) s

/-! The level table (R48 to R53). -/

/-- What is still to be done at the level table. -/
inductive LvAct where
  /-- A child of i has ended; FAULT is to be set. -/
  | child (i : Nat) (fault : Bool)
  /-- Object i has ended, done or cancelled. -/
  | over (i : Nat) (cancelled : Bool)
  /-- Object i, in state cancelling, ends if nothing beneath it is left. -/
  | fin (i : Nat)
  | cancel (i : Nat)
  /-- Decision node i gets an outcome. -/
  | decide (i outcome : Nat)
  /-- A graph node's predecessors have ended. -/
  | start (i : Nat)
  deriving DecidableEq, Repr

/-- The decision node that an object is an arm of. -/
def Part.nodeOf (p : Part) (i : Nat) : Option (BitVec 256) :=
  let n := p.lv (lvLink (p.lv i))
  if lvKind (p.lv i) == 1 && lvKind n == 5 && (lvArm0 n == i || lvArm1 n == i) then some n else none

/-- The object is an arm whose decision is open. -/
def Part.undecided (p : Part) (i : Nat) : Bool := (p.nodeOf i).any fun n => lvOutcome n == 0

/-- The object is an arm that a decision made lose (R48). -/
def Part.lost (p : Part) (i : Nat) : Bool :=
  (p.nodeOf i).any fun n => lvOutcome n != 0 && !(lvOutcome n == 1 && lvArm0 n == i) && !(lvOutcome n == 2 && lvArm1 n == i)

/-- What a buffered unit that has halted held is given up (R34, R100). -/
def endHeld (s : State) (b k : Nat) (c : Cmd) : State :=
  let a := agentId s.device b k
  endTokens s a c.world (BitVec.ofNat 24 (c.word 0).toNat) (c.held.map fun h => ⟨a, c.world, h.2.2, h.1, h.2.1⟩)

/-- An arm's buffered lines, provisional tokens and held commands go (R53). -/
def dropArm (s : State) (p arm : Nat) : State :=
  let s := revertArm s p arm
  let s := (braidsOf p).foldl (fun s b => (dropLines s b arm fun _ => true).modBraid b fun t => { t with buf := t.buf.filter fun e => e.arm != arm }) s
  let s := { s with xfers := s.xfers.filter fun t => !(t.arm == some arm && partOf t.braid == p) }
  (braidsOf p).foldl (fun s b => (List.range 4).foldl (fun s k =>
    let ops := (s.strand b k).heldOps.filter fun c => c.launch == arm
    let s := s.modStrand b k fun t => { t with heldOps := t.heldOps.filter fun c => c.launch != arm }
    (ops.filter (·.op == 63)).foldl (fun s c => endHeld s b k c) s) s) s

/-- CANCEL's status: ENDED, REFUSED, or 0 with the object to cancel (R288). -/
def cancelStatus (s : State) (p w obj : Nat) (supv : Bool) : Nat × Nat :=
  let e := s.lv p obj
  if !lvLive e then (14, 0)
  else if lvWorld e ≠ w ∧ !(supv && w == 0 && (s.world (lvWorld e)).phase == 1) then (15, 1)
  else (0, 0)

/-- DECIDE's status (R288). -/
def decideStatus (s : State) (p launch node : Nat) : Nat × Nat :=
  let e := s.lv p node
  if lvKind e = 5 ∧ (lvOutcome e ≠ 0 ∨ !lvLive e) then (14, 0)
  else if lvKind e ≠ 5 ∨ lvLink e ≠ launch then (15, 1)
  else (0, 0)

/-- A command held by the winning arm issues (R53): its effect, and what it does at the level table. -/
def releaseOp (s : State) (b k : Nat) (c : Cmd) : State × List LvAct :=
  let bump := fun (s : State) (code d : Nat) => s.bumpUnit b k c.world c.evt code d
  match c.op with
  | 31 => (sendNotify (s.addCmd b c) b c, [])
  | 32 =>
    let (code, d, s) := launchCmd s b c.world (c.word 0).toNat
    (bump s code d, [])
  | 33 =>
    let st := decideStatus s (partOf b) c.launch (bits (c.word 0) 0 12)
    (bump s st.1 st.2, if st.1 = 0 then [.decide (bits (c.word 0) 0 12) (if (c.word 0).getLsbD 12 then 2 else 1)] else [])
  | 34 =>
    let st := cancelStatus s (partOf b) c.world (bits (c.word 0) 0 12) c.supv
    (bump s st.1 st.2, if st.1 = 0 then [.cancel (bits (c.word 0) 0 12)] else [])
  | 63 => (endHeld s b k c, [])
  | _ => (acceptCmd s b { c with buffered := false }, [])

/-- The buffered lines of a winning arm on a braid become ordinary dirty lines (R53). -/
def firmLines (s : State) (b arm : Nat) : State :=
  let s := ((s.braid b).buf.filter fun e => e.arm == arm).foldl (fun s e => s.writeN e.addr [e.val]) s
  let lines := ((s.braid b).cache.filter fun c => c.arm == some arm).map (·.line)
  let s := s.modBraid b fun t => { t with
    buf := t.buf.filter fun e => e.arm != arm
    cache := (t.cache.filter fun c => !(c.arm.isNone && lines.contains c.line)).map fun c => if c.arm == some arm then { c with arm := none } else c }
  s.l1DropAll b lines.contains

/-- The winning arm is firm (R53, R100): its buffered lines are ordinary ones, its tokens firm, its held transfers and commands go on in program order. -/
def winArm (s : State) (p arm : Nat) : State × List LvAct :=
  let s := s.modLv p arm fun e => setBits e 57 1 0
  let s := (braidsOf p).foldl (fun s b => firmLines s b arm) s
  let s := firmArm s p arm
  let s := { s with xfers := s.xfers.map fun (t : Xfer) => if t.arm == some arm && partOf t.braid == p then { t with arm := none, inOrder := true } else t }
  let clear := fun (z : Slot) => if recLaunch z.bind = arm then { z with bind := setBit z.bind 122 false } else z
  let s := { s with images := s.images.map fun (i : Image) => if i.part = p then { i with slot := clear i.slot } else i }
  (braidsOf p).foldl (fun a b => (List.range 4).foldl (fun (a : State × List LvAct) k =>
    let ops := (a.1.strand b k).heldOps.filter fun c => c.launch == arm
    let s := a.1.modStrand b k fun t => { t with heldOps := t.heldOps.filter fun c => c.launch != arm, slot := t.slot.map fun e => (e.1, clear e.2) }
    ops.foldl (fun (a : State × List LvAct) c => let (s, l) := releaseOp a.1 b k c; (s, a.2 ++ l)) (s, a.2)) a) (s, [])

/-- Graph nodes that wait on object i, which has ended: those that now start, and those that never will. -/
def Part.successors (p : Part) (i : Nat) : List Nat := (p.preds.filter fun e => e.2.contains i).map (·.1)

/-- One thing done at the level table, and what follows from it. -/
def levelStep (s : State) (p : Nat) (a : LvAct) : State × List LvAct :=
  let t := s.part p
  match a with
  | .child i f =>
    let e := t.lv i
    if !lvLive e || lvState e == 5 then (s, [])
    else
      let e := setBits (setBits e 80 24 (lvDone e + 1)) 56 1 (bit (lvFault e || f))
      let s := s.modLv p i fun _ => e
      if lvState e = 3 then (s, [.fin i])
      else if lvDone e < lvTarget e then (s, [])
      else if t.undecided i then (s.modLv p i fun e => setBits e 58 3 5, [])
      else (s.modLv p i fun e => setBits e 58 3 2, [.over i false])
  | .over i c =>
    let e := t.lv i
    let s := if lvNotifyEn e then s.bumpAgent (lvNotify e) (lvWorld e) (lvEvt e) else s
    let up := if lvKind e = 4 then [] else [LvAct.child (lvParent e) (c && !t.lost i)]
    let next := t.successors i
    let s := s.modPart p fun t => { t with preds := next.foldl (fun m j =>
      let q := (Store.get m j []).filter (· != i)
      if c || q.isEmpty then Store.del m j else Store.put m j q) t.preds }
    let s := if c then next.foldl (fun s j => s.modLv p j fun e => setBits e 58 3 4) s else s
    let ready := next.filter fun j => !(Store.has (s.part p).preds j)
    let phase := if lvKind e = 3 then ((t.level.filter fun j => lvKind j.2 == 3 && lvState j.2 == 0 && lvParent j.2 == lvParent e && j.1 != i).map (·.1)).take 1 else []
    let s := phase.foldl (fun s j => s.modLv p j fun e => setBits e 58 3 1) s
    let open_ := (t.level.filter fun n => lvKind n.2 == 5 && lvLink n.2 == i && lvOutcome n.2 == 0 && lvLive n.2).map (·.1)
    (s, open_.map (fun n => .decide n 3) ++ (if c then next.map (fun j => .over j true) else ready.map .start) ++ up)
  | .fin i =>
    let e := t.lv i
    if lvState e ≠ 3 ∨ lvKind e = 0 ∨ (t.level.any fun j => j.1 != i && lvKind j.2 != 0 && lvParent j.2 == i && lvLive j.2) then (s, [])
    else (s.modLv p i fun e => setBits e 58 3 4, [.over i true])
  | .cancel i =>
    if !lvLive (t.lv i) then (s, [])
    else
      let down := (s.subtree p i).filter fun j => lvLive (t.lv j)
      let arms := (down.filter fun j => lvKind (t.lv j) == 5 && lvOutcome (t.lv j) == 0).flatMap fun j => [lvArm0 (t.lv j), lvArm1 (t.lv j)]
      let objs := down ++ (arms.filter fun j => lvLive (t.lv j) && !down.contains j).dedup
      let s := (objs.filter fun j => (t.undecided j) || lvBuf (t.lv j)).foldl (fun s j => dropArm s p j) s
      let s := objs.foldl (fun s j => s.modLv p j fun e => setBits e 58 3 3) s
      let ls := objs.filter fun j => lvKind (t.lv j) == 1
      let s := ls.foldl (fun s j => (cancelUnits s p j).modLv p j fun e =>
        setBits (setBits e 56 1 (bit (lvFault e || decide (lvDone e < lvTarget e)))) 80 24 (lvTarget e)) s
      let kind := fun n => objs.filter fun j => lvKind (t.lv j) == n
      (s.modPart p fun t => { t with preds := t.preds.filter fun e => !objs.contains e.1 }, (kind 1 ++ kind 5 ++ kind 2 ++ kind 3 ++ kind 4).map .fin)
  | .decide i o =>
    let e := t.lv i
    if lvKind e ≠ 5 ∨ !lvLive e ∨ lvOutcome e ≠ 0 then (s, [])
    else
      let s := s.modLv p i fun e => setBits (setBits (setBits e 216 2 o) 80 24 1) 58 3 (if lvState e = 3 then 3 else 2)
      -- a node that a cancel has reached has its arms cancelled, and ends cancelled (R53)
      if lvState e = 3 then (s, [.cancel (lvArm0 e), .cancel (lvArm1 e), .fin i])
      else match o with
      | 1 => let (s, l) := win s (lvArm0 e); (s, [.cancel (lvArm1 e)] ++ l ++ [.over i false])
      | 2 => let (s, l) := win s (lvArm1 e); (s, [.cancel (lvArm0 e)] ++ l ++ [.over i false])
      | _ => (s, [.cancel (lvArm0 e), .cancel (lvArm1 e), .over i false])
  | .start i =>
    let e := t.lv i
    if lvState e ≠ 0 then (s, [])
    else
      let s := s.modLv p i fun e => setBits e 58 3 1
      if lvKind e ≠ 5 then (s, [])
      else
        let go := fun (s : State) (j : Nat) (buf : Nat) => if lvKind (s.lv p j) = 1 ∧ lvState (s.lv p j) = 0 then
            (s.modLv p j fun e => setBits (setBits e 57 1 buf) 58 3 1).modPart p fun t => { t with preds := Store.del t.preds j } else s
        (go (go (go s (lvLink e) 0) (lvArm0 e) 1) (lvArm1 e) 1, [])
where
  /-- The winner: firm, and done where its units have all halted. -/
  win (s : State) (arm : Nat) : State × List LvAct :=
    let (s, l) := winArm s p arm
    if lvState (s.lv p arm) = 5 then (s.modLv p arm fun e => setBits e 58 3 2, l ++ [.over arm false]) else (s, l)

/-- Everything that follows: what an action causes is done before what comes after it (R49). -/
def levelRun : Nat → Nat → List LvAct → State → State
  | 0, _, _, s => s
  | _ + 1, _, [], s => s
  | n + 1, p, a :: rest, s =>
    let (s', l) := levelStep s p a
    levelRun n p (l ++ rest) s'

/-- Enough work for any table of 4,096 entries. -/
def levelFuel : Nat := 65536

def State.level (s : State) (p : Nat) (acts : List LvAct) : State := levelRun levelFuel p acts s

/-- A unit ends and counts in its launch (R34, R50). -/
def finishUnit (s : State) (b k : Nat) (cancelled : Bool) : State :=
  let launch := recLaunch (s.strand b k).slot0.bind
  (endUnit s b k cancelled).level (partOf b) [.child launch cancelled]

end Sys2Proof.Machine
end

