-- ==== Sys2Proof/Machine/EngineOps.lean ====
section
/-!
DEFINITION. Slot E (R266 to R291) but for the token operations: data commands, messages, vertical FIFOs, events, launches, decisions,
cancels and supervisor commands, as they issue; and what releases the requests an entry of the route book holds (R135, R136).
-/

namespace Sys2Proof.Machine

/-! Commands as they issue (R266, R267, R52). -/

/-- The command of a word, with its block as the bundle reads it and the tokens as they stand. -/
def Ctx.mkCmd (x : Ctx) (op : Nat) (f : FmtE) (n seq : Nat) : Cmd where
  seq := seq
  strand := x.k
  world := x.world
  op := op
  cls := f.cls.toNat
  scope := x.scopeOr
  evt := f.evt.toNat
  flags := f.flags.toNat
  blk := x.block f n
  held := heldBy x.br x.agent x.world
  buffered := x.arm.isSome
  launch := recLaunch x.rcd
  supv := x.supv

/-- A slab of the strand's own. -/
def Ctx.ownSlab (x : Ctx) (id : Nat) : Bool :=
  let e := x.br.slabOf id
  slabSize e != 0 && slabWorld e == x.world && slabOwner e == x.k

/-- A buffered unit's command is held where it writes outside the unit's own slabs (R52). -/
def Ctx.heldBack (x : Ctx) (c : Cmd) : Bool := x.arm.isSome && (match c.slabIn with | some id => !x.ownSlab id | none => true)

/-- A command is held until the decision, or goes on. -/
def Ctx.enter (x : Ctx) (op : Nat) (f : FmtE) (n : Nat) (go : State → Cmd → State) (s : State) : State :=
  let c := x.mkCmd op f n s.serial
  let s := { s with serial := s.serial + 1 }
  if x.heldBack c then x.mod (fun t => { t with heldOps := t.heldOps ++ [c] }) s else go s c

/-- The engine's places of the strand are taken (R267). -/
def Ctx.engineFull (x : Ctx) (g : Nat) : Bool := 16 ≤ (x.br.cmds.filter fun c => c.strand == x.k && c.engine == g).length

/-- A data command: its block of n registers and its checks. -/
def dataOp (op n : Nat) (bad : Bool) (f : FmtE) (x : Ctx) : SlotOp where
  slot := 6
  runs := x.on f.pred
  guard := f.pred
  reads := x.resOf f.pred [] ++ blockRes f n
  traps := badParam (pastK15 f n || bad)
  wait := x.engineFull (x.mkCmd op f n 0).engine
  eff := x.enter op f n fun s c => acceptCmd s x.b c

/-! Copies, gathers, B-store loads (R271 to R275). -/

/-- Checked mode needs multiples of 256 (R273). -/
def checkBad (f : FmtE) (src dst n : Nat) : Bool := f.flags.getLsbD 1 && (src % 256 != 0 || dst % 256 != 0 || n % 256 != 0)

def cpyOp (f : FmtE) (x : Ctx) : SlotOp :=
  let k := x.kw f
  dataOp 1 3 (4 ≤ f.flags.toNat || bits (k 2) 32 32 != 0 || (f.flags.getLsbD 0 && !isWindow (k 0).toNat) ||
    checkBad f (k 0).toNat (k 1).toNat (bits (k 2) 0 32)) f x

def cpy2dOp (f : FmtE) (x : Ctx) : SlotOp :=
  dataOp 2 4 (f.flags != 0 || 2 ^ 32 ≤ bits (x.kw f 2) 32 32 * bits (x.kw f 2) 0 32) f x

/-- The second word of CPYS and CPYD breaks its layout. -/
def slabWordBad (w : Word) : Bool := bits w 24 8 != 0 || bits w 6 2 != 0 || 65536 < bits w 32 32

def cpysOp (f : FmtE) (x : Ctx) : SlotOp :=
  let w := x.kw f 1
  dataOp 3 2 (f.flags.getLsbD 0 || 8 ≤ f.flags.toNat || slabWordBad w || checkBad f (x.kw f 0).toNat (bits w 8 16) (bits w 32 32)) f x

def cpydOp (f : FmtE) (x : Ctx) : SlotOp := dataOp 4 2 (2 ≤ f.flags.toNat || slabWordBad (x.kw f 1)) f x

/-- The block of GATH and SCAT breaks its layout or its alignments (R274). -/
def listBad (f : FmtE) (x : Ctx) : Bool :=
  let w := x.kw f 3
  f.flags != 0 || bits w 37 27 != 0 || bits w 25 7 != 0 || 8 < bits w 32 4 || 2 ^ 24 < bits w 0 25 ||
    (x.kw f 1).toNat % 2 ^ bits w 32 4 != 0 || (x.kw f 2).toNat % (if w.getLsbD 36 then 8 else 4) != 0

def gathOp (f : FmtE) (x : Ctx) : SlotOp := dataOp 5 4 (listBad f x) f x
def scatOp (f : FmtE) (x : Ctx) : SlotOp := dataOp 6 4 (listBad f x) f x

def bsldOp (f : FmtE) (x : Ctx) : SlotOp :=
  let w := x.kw f 1
  dataOp 7 2 (f.flags != 0 || (x.kw f 0).toNat % 512 != 0 || bits w 29 35 != 0 || bits w 13 3 != 0 || 8192 < bits w 0 13 + bits w 16 13 + 1) f x

/-! Messages (R279 to R283). -/

/-- Registers of a block with its user route words. -/
def msgBlock (f : FmtE) (n : Nat) : Nat := n + (if f.flags.getLsbD 1 then bits f.flags 2 2 + 1 else 0)

/-- The element size of a combine operation. -/
def combineSize (op : Nat) : Nat := if op = 1 then 2 else 4

/-- The destination's device is not on the roster (R134, R137). -/
def Ctx.rosterBad (x : Ctx) (dest : Nat) (user : Bool) : Bool :=
  if user then !x.s.onRoster x.world (dest / 256) else decide (x.s.wayTo x.b dest x.world = .offRoster)

/-- The roster's trap in a protected world, with nothing issued (R134). -/
def Ctx.rosterTraps (x : Ctx) (dest : Nat) (user : Bool) : List Trap :=
  trapIf (x.s.isProtected x.world && x.rosterBad dest user) { cause := 0x0A, step := 7, sub := 2, slot := 6 }

/-- The status a message or notification ends with at issue, if any (R134). -/
def wayStatus (s : State) (b dest w : Nat) (user : Bool) : Option (Nat × Nat) :=
  if user then (if s.onRoster w (dest / 256) then none else some (11, 0))
  else match s.wayTo b dest w with
    | .noEntry => some (8, 9 * 128)
    | .offRoster => some (11, 0)
    | .entry _ _ _ => none

/-- A message command goes to its engine, or ends at issue. -/
def acceptMsg (dest : Option Nat) (user : Bool) (b : Nat) (s : State) (c : Cmd) : State :=
  match dest.bind fun d => wayStatus s b d c.world user with
  | some (code, d) => s.bumpUnit b c.strand c.world c.evt code d
  | none => acceptCmd s b c

/-- A message command of slot E; `dest` is the node it sends to. -/
def msgOp (op n : Nat) (bad : Bool) (dest : Option Nat) (f : FmtE) (x : Ctx) : SlotOp where
  slot := 6
  runs := x.on f.pred
  guard := f.pred
  reads := x.resOf f.pred [] ++ blockRes f n
  early := x.featTrap 6 (if op = 24 then 3 else 4)
  traps := badParam (pastK15 f n || bad) ++ (match dest with | some d => x.rosterTraps d (f.flags.getLsbD 1) | none => [])
  wait := x.engineFull 2
  eff := x.enter op f n (acceptMsg dest (f.flags.getLsbD 1) x.b)

/-- Reserved bits and limits of the second word of SEND and COLL. -/
def sendWordBad (w : Word) : Bool :=
  bits w 51 13 != 0 || bits w 45 3 != 0 || bits w 26 2 != 0 || bits w 22 2 != 0 || 4096 < bits w 32 13 || 95 < bits w 0 8

def sendOp (f : FmtE) (x : Ctx) : SlotOp :=
  let w := x.kw f 1
  msgOp 22 (msgBlock f 2) (16 ≤ f.flags.toNat || sendWordBad w || (f.flags.getLsbD 0 && bits w 32 13 != 0)) (some (bits w 0 16)) f x

def collOp (f : FmtE) (x : Ctx) : SlotOp :=
  let w := x.kw f 1
  msgOp 24 (msgBlock f 2) (f.flags.getLsbD 0 || 16 ≤ f.flags.toNat || sendWordBad w || 4 < bits w 48 3 || bits w 32 13 % combineSize (bits w 48 3) != 0)
    (some (bits w 0 16)) f x

def recvOp (f : FmtE) (x : Ctx) : SlotOp :=
  let w := x.kw f 1
  let v := x.kw f 2
  let ready := f.flags.getLsbD 0
  msgOp 23 (msgBlock f 3) (32 ≤ f.flags.toNat || bits w 51 13 != 0 || bits w 45 3 != 0 || bits w 22 10 != 0 || bits w 32 13 == 0 || 4096 < bits w 32 13 ||
      4 < bits w 48 3 || bits v 24 40 != 0 || bits v 18 2 != 0 || (ready && 95 < bits v 0 8))
    (if ready then some (bits v 0 16) else none) f x

/-! Vertical FIFOs (R23, R284, R401, R402). -/

/-- Entries of the outbound FIFO v of a braid. -/
def Braid.vfOf (t : Braid) (v : Nat) : List (Nat × Row × Nat) := Store.get t.vf v []

def vfTrap (c : Bool) : List Trap := trapIf c { cause := 0x15, step := 6, slot := 6 }

def vfpushOp (f : FmtE) (x : Ctx) : SlotOp :=
  let v := bits f.flags 0 2
  let i := x.rowIndex f.vrow
  { slot := 6
    runs := x.on f.pred
    guard := f.pred
    reads := x.resOf f.pred [] ++ [.row f.vtile.toNat i]
    early := x.featTrap 6 2
    traps := badParam (f.kb != 0 || f.evt != 0) ++ vfTrap ((x.s.braid (partner x.b)).status != 0)
    fifo := some (64 + v)
    eff := fun s => s.modBraid x.b fun t => { t with vf := Store.put t.vf v (t.vfOf v ++ [(x.world, x.r.tileRow f.vtile.toNat i, x.st.clk)]) } }

/-- The entry VFPOP takes. -/
def Ctx.inbound (x : Ctx) (v : Nat) : List (Nat × Row × Nat) := (x.s.braid (partner x.b)).vfOf v

def vfpopOp (f : FmtE) (x : Ctx) : SlotOp :=
  let v := bits f.flags 0 2
  let i := x.rowIndex f.vrow
  let q := x.inbound v
  { slot := 6
    runs := x.on f.pred
    guard := f.pred
    reads := x.resOf f.pred []
    dests := [.row f.vtile.toNat i]
    early := x.featTrap 6 2
    traps := badParam (f.kb != 0 || f.evt != 0) ++ vfTrap (q.isEmpty && (x.s.braid (partner x.b)).status == 2) ++
      (match q with | e :: _ => trapIf (e.1 != x.world) { cause := 0x0A, step := 7, sub := 2, slot := 6 } | [] => [])
    fifo := some (96 + v)
    pop := true
    eff := fun s =>
      match q with
      | e :: rest => x.mod (·.addSbd { dests := [.row f.vtile.toNat i], effs := [.tile f.vtile.toNat i e.2.1 rowOnes], tok := none, req := none, due := none })
          (s.modBraid (partner x.b) fun t => { t with vf := Store.set t.vf v rest [] })
      | [] => s }

/-- A scalar that slot E writes after one cycle, with its latch. -/
def Ctx.putE (x : Ctx) (d : Nat) (v : Word) (s : State) : State :=
  x.mod (·.addPends 1 [.x (x.r.cellX d) v, .latch 6 v x.st.c.gen]) s

def vfcntOp (f : FmtE) (x : Ctx) : SlotOp :=
  let v := bits f.flags 0 2
  { slot := 6
    runs := x.on f.pred
    guard := f.pred
    reads := x.resOf f.pred []
    dests := [.x (x.r.cellX f.dst.toNat)]
    early := x.featTrap 6 2
    traps := badParam (f.kb != 0 || f.evt != 0 || f.cls != 0 || bits f.flags 2 2 != 0)
    eff := x.putE f.dst.toNat (BitVec.ofNat 64 (if f.flags.getLsbD 4 then (x.inbound v).length else 16 - (x.br.vfOf v).length)) }

/-! Events (R62, R285, R286). -/

/-- The operand v of EWAIT and ESET, and the trap of an encoding that names none (R168). -/
def opndE (f : FmtE) : Option Operand := Operand.ofBits f.val
def valTraps (x : Ctx) (f : FmtE) : List Trap :=
  match opndE f with
  | some o => x.latchTraps 6 [o]
  | none => [{ cause := 0x01, step := 3, slot := 6 }]
def Ctx.valE (x : Ctx) (f : FmtE) : BitVec 32 := (((opndE f).map x.opnd).getD 0).setWidth 32

def Ctx.ecnt (x : Ctx) (e : Nat) : BitVec 32 := Store.get x.r.ecnt e 0

def ewaitOp (f : FmtE) (x : Ctx) : SlotOp where
  slot := 6
  runs := x.on f.pred
  guard := f.pred
  reads := x.resOf f.pred (opndE f).toList
  traps := valTraps x f ++ badParam (f.kb != 0 || f.cls != 0 || bits f.flags 0 3 != 0)
  wait := (x.ecnt f.evt.toNat - x.valE f).getLsbD 31

def evrOp (f : FmtE) (x : Ctx) : SlotOp where
  slot := 6
  runs := x.on f.pred
  guard := f.pred
  reads := x.resOf f.pred []
  dests := [.x (x.r.cellX f.dst.toNat)]
  traps := badParam (f.kb != 0 || f.cls != 0 || bits f.flags 0 5 != 0)
  eff := x.putE f.dst.toNat (BitVec.ofNat 64 ((Store.get x.r.estat f.evt.toNat 0).toNat * 2 ^ 32 + (x.ecnt f.evt.toNat).toNat))

def esetOp (f : FmtE) (x : Ctx) : SlotOp where
  slot := 6
  runs := x.on f.pred
  guard := f.pred
  reads := x.resOf f.pred (opndE f).toList
  traps := valTraps x f ++ badParam (f.kb != 0 || f.cls != 0 || bits f.flags 0 3 != 0)
  eff := x.mod fun t => { t with r := { t.r with ecnt := Store.set t.r.ecnt f.evt.toNat (x.valE f) 0, estat := Store.set t.r.estat f.evt.toNat 0 0 } }

/-- The node a NOTIFY goes to. -/
def notifyDest (w : Word) : Nat := bits w 16 8 * 256 + bits w 9 7

def notifyOp (f : FmtE) (x : Ctx) : SlotOp :=
  let w := x.kw f 0
  { slot := 6
    runs := x.on f.pred
    guard := f.pred
    reads := x.resOf f.pred [] ++ blockRes f 1
    traps := badParam (f.flags != 0 || bits w 28 36 != 0 || 95 < bits w 9 7 || 3 < bits w 5 4 || bits w 0 5 != 0) ++ x.rosterTraps (notifyDest w) false
    pre := if x.arm.isSome then id else x.flushFor x.scopeOr (· == f.cls.toNat)
    wait := x.arm.isNone && x.unperformed x.scopeOr (· == f.cls.toNat) x.s
    eff := x.enter 31 f 1 fun s c =>
      match wayStatus s x.b (notifyDest w) x.world false with
      | some (code, d) => s.bumpUnit x.b x.k x.world c.evt code d
      | none => sendNotify (s.addCmd x.b c) x.b c }

/-! Launches, decisions, cancels (R287, R288). -/

def launchOp (f : FmtE) (x : Ctx) : SlotOp :=
  let w := x.kw f 0
  { slot := 6
    runs := x.on f.pred
    guard := f.pred
    reads := x.resOf f.pred [] ++ blockRes f 1
    traps := badParam (f.flags != 0 || w.toNat % 64 != 0)
    wait := x.arm.isNone && x.st.sbd.any fun v => v.req.any fun r => r.2.kind != 0 && r.2.cls == f.cls.toNat
    eff := x.enter 32 f 1 fun s c =>
      let (code, d, s) := launchCmd s x.b x.world w.toNat
      s.bumpUnit x.b x.k x.world c.evt code d }

def decideOp (f : FmtE) (x : Ctx) : SlotOp :=
  let w := x.kw f 0
  let st := fun (s : State) => decideStatus s (partOf x.b) (recLaunch x.rcd) (bits w 0 12)
  { slot := 6
    runs := x.on f.pred
    guard := f.pred
    reads := x.resOf f.pred [] ++ blockRes f 1
    early := x.featTrap 6 5
    traps := badParam (f.flags != 0 || f.cls != 0 || bits w 13 51 != 0)
    eff := fun s => if x.arm.isSome then x.enter 33 f 1 (fun s _ => s) s else s
    post := fun s =>
      if x.arm.isSome then s
      else
        let r := st s
        let s := if r.1 = 0 then s.level (partOf x.b) [.decide (bits w 0 12) (if w.getLsbD 12 then 2 else 1)] else s
        s.bumpUnit x.b x.k x.world f.evt.toNat r.1 r.2 }

/-- The issuer's own unit lies under the object: it ends with it (R288). -/
def Ctx.under (x : Ctx) (s : State) (obj : Nat) : Bool := (s.part (partOf x.b)).under obj 6 (recLaunch x.rcd)

def cancelOp (f : FmtE) (x : Ctx) : SlotOp :=
  let w := x.kw f 0
  let obj := bits w 0 12
  { slot := 6
    runs := x.on f.pred
    guard := f.pred
    reads := x.resOf f.pred [] ++ blockRes f 1
    traps := badParam (f.flags != 0 || f.cls != 0 || bits w 12 52 != 0)
    eff := fun s => if x.arm.isSome then x.enter 34 f 1 (fun s _ => s) s else s
    post := fun s =>
      if x.arm.isSome then s
      else
        let r := cancelStatus s (partOf x.b) x.world obj x.supv
        if r.1 ≠ 0 then s.bumpUnit x.b x.k x.world f.evt.toNat r.1 r.2
        else
          let own := x.under s obj
          let s := s.level (partOf x.b) [.cancel obj]
          if own then s else s.bumpUnit x.b x.k x.world f.evt.toNat 0 0 }

/-! Supervisor commands (R289 to R291). -/

def scrubOp (f : FmtE) (x : Ctx) : SlotOp :=
  let a := x.kw f 0
  let n := x.kw f 1
  let slabs := f.flags.getLsbD 0
  { dataOp 35 3 (2 ≤ f.flags.toNat || f.cls != 0 || bits a 52 12 != 0 || bits a 0 12 != 0 || n.toNat % 4096 != 0 || (slabs && n != 0) ||
      (slabs && (bits a 19 33 != 0 || 95 < bits a 12 7)) || bits (x.kw f 2) 8 56 != 0) f x with early := x.privTrap 6 }

def splreqOp (f : FmtE) (x : Ctx) : SlotOp :=
  let v := x.kw f 1
  { slot := 6
    runs := x.on f.pred
    guard := f.pred
    reads := x.resOf f.pred [] ++ blockRes f 2
    early := x.privTrap 6
    traps := badParam (pastK15 f 2 || f.flags != 0 || f.cls != 0 || bits (x.kw f 0) 16 48 != 0 || bits v 32 32 != 0 || bits v 23 7 != 0 || bits v 8 8 != 0 ||
      1 < bits v 30 2 || 95 < bits v 16 7)
    eff := fun s =>
      let r : SpliceReq := { braid := x.b, strand := x.k, evt := f.evt.toNat, world := x.world, image := bits (x.kw f 0) 0 16, action := bits v 30 2,
                             target := bits v 16 7, unit := bits v 0 8 }
      { s with spliceReqs := s.spliceReqs ++ [r] } }

/-! Held requests released by a rewrite of an entry (R135, R136). -/

/-- A SEND or COLL reads its payload and is sent (R281, R283); a failure names the 4 KiB block of the payload (R269). -/
def sendMsg (s : State) (b : Nat) (c : Cmd) : State :=
  let w := c.word 1
  let dest := bits w 0 16
  let go (s : State) (data : List Byte) (bad : Bool) : State :=
    sendPacket s b c (c.userWords 2) dest (fun ws =>
      if c.op = 22 ∧ c.flags % 2 = 1 then bumpPacket s b c ws
      else { mkPacket s b (if c.op = 24 then 6 else 5) ws dest c.world c.scope c.cls with
              data := data, bad := bad, channel := bits w 16 6, op := bits w 48 3, coll := c.op == 24, owner := some (b, c.seq) })
      fun s code d => endCmd s b c code d
  match (pieces 3 (c.word 0).toNat (bits w 32 13)).zipIdx.mapM fun p => (engPiece s b c .load (p.1.1 % 2 ^ 64) p.1.2 p.2).map fun l => (l, p.1.2) with
  | .error (.status code d) => endCmd s b c code d
  | .error (.hold i f) => ((Fare.held i f).apply s b).putCmd b { c with begun := true, entry := some i }
  | .error (.lost i) => s.putCmd b { c with begun := true, entry := some i, sent := true }
  | .ok ls =>
    let (s, v, bad) := loadLocs s b c ls
    go s v bad

/-- A held request sent again is translated afresh where an invalidation has removed its translation (R82); none where it no longer translates, or its new place
does not permit it: it stays held (log 55, DESIGN CHOICE). -/
def Req.again (q : Req) (s : State) (b w : Nat) (a : BitVec 24) : Option Req :=
  if !q.afresh || q.slab then some q
  else
    let acc : Acc := match q.kind with | 0 => .load | 1 => .store | _ => .amo
    match translate s b w q.va with
    | .error _ => none
    | .ok e =>
      if (q.kind != 0 && (writeFault e).isSome) || (!(q.kind == 0 && e.isSealed) && (tokenCheck s ((s.braid b).holds a w) (e.pa q.va) acc).isSome) then none
      else some { q with addr := e.pa q.va, afresh := false }

/-- A strand's held request of number n has been performed with its register writes: they are in flight; an SCLD's lands no earlier than its cycle (R335). -/
def Strand.answered (t : Strand) (n : Nat) (es : List Eff) : Strand :=
  let mine := fun (v : Sbd) => v.req.any (·.2.seq == n)
  match t.sbd.find? mine with
  | none => t
  | some v =>
    match v.due with
    | some d =>
      let from_ := if t.slot0.st = .frozen ∧ t.frz.isNone then 0 else t.clk
      { t with sbd := t.sbd.filter (fun u => !mine u), pend := es.foldl (fun p e => insertPend ⟨max d from_, from_, e⟩ p) t.pend }
    | none =>
      if es.isEmpty then { t with sbd := t.sbd.filter fun u => !mine u }
      else { t with sbd := t.sbd.map fun u => if mine u then { u with req := none, lost := false, effs := es } else u }

/-- Held request n of a strand waits on an entry, with its response lost or not. -/
def Strand.rehold (t : Strand) (n i : Nat) (q : Req) (lost : Bool) : Strand :=
  { t with sbd := t.sbd.map fun u => if u.req.any (·.2.seq == n) then { u with req := some (i, q), lost := lost } else u }

/-- Request n that the unit of a world holds, on its strand or in its saved image, is sent again (R135): performed, or held once more. -/
def resend (s : State) (b k w n : Nat) : State :=
  match s.unitBody b k w with
  | none => s
  | some t =>
    match (t.sbd.findSome? (·.req.filter (·.2.seq == n))) with
    | none => s
    | some (j, q) =>
      match q.again s b w (agentId s.device b k) with
      | none => s.modUnit b k w (·.rehold n j q false)
      | some q =>
        match reqHeldAs s b k w t q with
        | some (s, i, lost) => s.modUnit b k w (·.rehold n i q lost)
        | none =>
          let (s', es) := q.performBy s b k
          s'.modUnit b k w (·.answered n es)

/-- A command an entry held goes on: a message or bump is sent again, any other command is served on (R135). -/
def resume1 (s : State) (b : Nat) (c : Cmd) : State :=
  let c := { c with entry := none, sent := false }
  let s := s.putCmd b c
  match c.op with
  | 31 => sendNotify s b c
  | 64 => sendReady s b c
  | 22 => if c.begun then sendMsg s b c else s
  | 24 => if c.begun then sendMsg s b c else s
  | _ => s

/-- What waits on an entry of the route book. -/
inductive Waiter where
  | req (k w : Nat)
  | cmd (c : Cmd)
  | xfer (t : Xfer)
  deriving DecidableEq, Repr

/-- Every request, command and token operation held on an entry, in the order of issue. -/
def State.waiters (s : State) (b i : Nat) : List (Nat × Waiter) :=
  let of (t : Strand) (k w : Nat) : List (Nat × Waiter) := t.sbd.filterMap fun v => v.req.bind fun r => if r.1 = i then some (r.2.seq, .req k w) else none
  let live := (List.range 4).flatMap fun k => of (s.strand b k) k (recWorld (s.strand b k).slot0.bind)
  let saved := (s.images.filter fun (m : Image) => m.braid == b).flatMap fun (m : Image) => of m.body m.strand m.world
  let cmds := ((s.braid b).cmds.filter fun c => c.op != 37 && c.entry == some i && (!c.sent || (c.engine != 2 && c.op != 31 && c.op != 64))).map fun c => (c.seq, Waiter.cmd c)
  let xfers := (s.xfers.filter fun (t : Xfer) => t.braid == b && t.entry == some i).map fun t => (t.id, Waiter.xfer t)
  (live ++ saved ++ cmds ++ xfers).insertionSort fun a c => a.1 ≤ c.1

/-- Everything an entry holds goes on, in the order of issue; a freeze that waited for a value is done (R135, R350). -/
def releaseEntry (s : State) (b i : Nat) : State :=
  let l := s.waiters b i
  let calm := fun (t : Strand) => if t.rtTimeout = some i then { t with rtTimeout := none } else t
  let s := (List.range 4).foldl (fun s k => if (s.strand b k).rtTimeout = some i then s.modStrand b k calm else s) s
  let s := { s with images := s.images.map fun m => if m.braid = b then { m with body := calm m.body } else m }
  let s := l.foldl (fun s e => match e.2 with
    | .req k w => resend s b k w e.1
    | .cmd c => resume1 s b c
    | .xfer t => s.putXfer { t with entry := none, lost := false }) s
  (List.range 4).foldl (fun s k => settleFreeze s b k) s

/-- RTSET writes its entry with SUSP 0, and its counter is bumped (R291); where a further RTSET of the entry waits, the entry goes on holding (R136). -/
def applyRtset (s : State) (b i : Nat) (c : Cmd) (last : Bool) : State :=
  let ctl := setBit (c.word 0) 38 (!last)
  let s := s.modBraid b fun t => { t with rb := Store.put t.rb i { ctl := ctl, route := c.word 1, ext := c.word 2 } }
  (if last then releaseEntry s b i else s).bumpUnit b c.strand c.world c.evt 0 0

/-- The entry an RTSET names. -/
def Cmd.rtEntry (c : Cmd) : Nat := c.flags / 8

/-- A request sent by an entry has not been acknowledged (R136). -/
def State.outstanding (s : State) (b i : Nat) : Bool :=
  let lost := fun (t : Strand) => t.sbd.any fun v => v.lost && v.req.any (·.1 == i)
  (s.braid b).cmds.any (fun c => c.op != 37 && c.sent && c.entry == some i) || (List.range 4).any (fun k => lost (s.strand b k)) ||
    s.images.any (fun m => m.braid == b && lost m.body) || s.xfers.any fun t => t.braid == b && t.entry == some i && t.lost

/-- RTSETs that waited for an entry's requests to be acknowledged take effect, in order (R136). -/
def settleRtset (s : State) (b : Nat) : State :=
  ((s.braid b).cmds.filter (·.op == 37)).foldl (fun s c =>
    if s.outstanding b c.rtEntry then s
    else
      let s := s.modBraid b fun t => { t with cmds := t.cmds.filter fun d => d.seq != c.seq }
      applyRtset s b c.rtEntry c !((s.braid b).cmds.any fun d => d.op == 37 && d.rtEntry == c.rtEntry)) s

/-- RTSET at the route book: a malformed entry is refused; a valid entry in use waits, its later requests held (R136). -/
def rtsetCmd (s : State) (b : Nat) (c : Cmd) : State :=
  let i := c.rtEntry
  let e := (s.braid b).rbOf i
  if rwExt (c.word 1) && rwExt (c.word 2) then s.bumpUnit b c.strand c.world c.evt 15 1
  else if (e.valid && !e.susp && s.outstanding b i) || (s.braid b).cmds.any (fun d => d.op == 37 && d.rtEntry == i) then
    (s.modBraid b fun t => { t with rb := Store.put t.rb i { e with ctl := setBit e.ctl 38 true } }).addCmd b { c with sent := true, entry := none }
  else applyRtset s b i c true

def rtsetOp (f : FmtE) (x : Ctx) : SlotOp where
  slot := 6
  runs := x.on f.pred
  guard := f.pred
  reads := x.resOf f.pred [] ++ blockRes f 3
  early := x.privTrap 6
  traps := badParam (pastK15 f 3 || bits f.flags 0 3 != 0 || f.cls != 0 || bits (x.kw f 0) 0 37 != 0)
  eff := fun s => rtsetCmd { s with serial := s.serial + 1 } x.b (x.mkCmd 37 f 3 s.serial)

/-! The meanings of slot E but for the token operations. -/

def execNopE (s : State) : Host.Outcome State Fault Refusal := issueOne .nopE (fun _ => nopOp 6) s
def execCpy (f : FmtE) (s : State) : Host.Outcome State Fault Refusal := issueOne (.cpy f) (cpyOp f) s
def execCpy2d (f : FmtE) (s : State) : Host.Outcome State Fault Refusal := issueOne (.cpy2d f) (cpy2dOp f) s
def execCpys (f : FmtE) (s : State) : Host.Outcome State Fault Refusal := issueOne (.cpys f) (cpysOp f) s
def execCpyd (f : FmtE) (s : State) : Host.Outcome State Fault Refusal := issueOne (.cpyd f) (cpydOp f) s
def execGath (f : FmtE) (s : State) : Host.Outcome State Fault Refusal := issueOne (.gath f) (gathOp f) s
def execScat (f : FmtE) (s : State) : Host.Outcome State Fault Refusal := issueOne (.scat f) (scatOp f) s
def execBsld (f : FmtE) (s : State) : Host.Outcome State Fault Refusal := issueOne (.bsld f) (bsldOp f) s

def execSend (f : FmtE) (s : State) : Host.Outcome State Fault Refusal := issueOne (.send f) (sendOp f) s
def execRecv (f : FmtE) (s : State) : Host.Outcome State Fault Refusal := issueOne (.recv f) (recvOp f) s
def execColl (f : FmtE) (s : State) : Host.Outcome State Fault Refusal := issueOne (.coll f) (collOp f) s
def execVfpush (f : FmtE) (s : State) : Host.Outcome State Fault Refusal := issueOne (.vfpush f) (vfpushOp f) s
def execVfpop (f : FmtE) (s : State) : Host.Outcome State Fault Refusal := issueOne (.vfpop f) (vfpopOp f) s
def execVfcnt (f : FmtE) (s : State) : Host.Outcome State Fault Refusal := issueOne (.vfcnt f) (vfcntOp f) s
def execEwait (f : FmtE) (s : State) : Host.Outcome State Fault Refusal := issueOne (.ewait f) (ewaitOp f) s
def execEvr (f : FmtE) (s : State) : Host.Outcome State Fault Refusal := issueOne (.evr f) (evrOp f) s
def execEset (f : FmtE) (s : State) : Host.Outcome State Fault Refusal := issueOne (.eset f) (esetOp f) s
def execNotify (f : FmtE) (s : State) : Host.Outcome State Fault Refusal := issueOne (.notify f) (notifyOp f) s
def execLaunch (f : FmtE) (s : State) : Host.Outcome State Fault Refusal := issueOne (.launch f) (launchOp f) s
def execDecide (f : FmtE) (s : State) : Host.Outcome State Fault Refusal := issueOne (.decide f) (decideOp f) s
def execCancel (f : FmtE) (s : State) : Host.Outcome State Fault Refusal := issueOne (.cancel f) (cancelOp f) s
def execScrub (f : FmtE) (s : State) : Host.Outcome State Fault Refusal := issueOne (.scrub f) (scrubOp f) s
def execSplreq (f : FmtE) (s : State) : Host.Outcome State Fault Refusal := issueOne (.splreq f) (splreqOp f) s
def execRtset (f : FmtE) (s : State) : Host.Outcome State Fault Refusal := issueOne (.rtset f) (rtsetOp f) s

end Sys2Proof.Machine
end

