-- ==== Sys2Proof/Machine/Sched.lean ====
section
/-!
DEFINITION. Dispatch (R38 to R46, R54 to R60, R194): slot commands but for resume, starting a record, preloads, budgets, the grants of shared
resources, and the completion of HALT.
-/

namespace Sys2Proof.Machine

/-! Records and descriptors (R37, R39). -/

/-- A record that R39 calls invalid, but for its launch. -/
def recBad (r : Rec) : Bool :=
  bits r 247 265 != 0 || bits r 185 7 != 0 || bits r 124 4 != 0 || bits r 48 16 != 0 || 192 < recWorld r ||
    (24 ≤ recPbank r && recPbank r != 31) || 16 < recTokCount r || 64 < recSlabCount r || recUdesc r % 64 != 0 ||
    (recTokCount r != 0 && recTokList r % 16 != 0) || (recSlabCount r != 0 && recSlabList r % 8 != 0)

/-- A descriptor that R37 calls invalid. -/
def descBad (d : Rec) : Bool :=
  256 < dPlen d || 64 < dPrecode d || ((List.range 8).any fun j => 4 < dBarCfg d j) ||
    dPimage d % 256 != 0 || dHandler d % 64 != 0 || dParams d % 8 != 0 || dNative d % 65536 != 0 || dCode d % 4 != 0 ||
    bits d 377 135 != 0 || bits d 288 32 != 0 || bits d 240 16 != 0 || bits d 184 8 != 0 || bits d 112 16 != 0 || bits d 48 16 != 0

/-- The weight of a world in a partition (R56). -/
def Part.weightOf (p : Part) (w : Nat) : Nat :=
  match p.weight.find? fun e => e.2.toNat / 2 ^ 24 == w && e.2.toNat % 256 != 0 with
  | some e => e.2.toNat % 256
  | none => 0

/-- A braid listed in a teardown that is not complete (R387). -/
def State.listedBraid (s : State) (b : Nat) : Bool := s.worlds.any fun e => e.2.phase == 2 && e.2.listBraids.contains b

/-- The reason a commit is refused, and the descriptor where it is not (R17, R37, R39, R40, R56, R387). -/
def commitReason (s : State) (b : Nat) (r : Rec) : Except Nat Rec :=
  let p := partOf b
  let e := s.lv p (recLaunch r)
  let w := recWorld r
  if recBad r || lvKind e != 1 || lvState e != 1 || lvWorld e != w then .error 1
  else if ((s.part p).share && (s.part p).weightOf w == 0) || (w != 0 && !s.assigned w p) then .error 7
  else if w != 0 && s.listedBraid b then .error 8
  else match readVALE s b w (recUdesc r) 64 with
    | .error _ => .error 3
    | .ok d => if descBad (BitVec.ofNat 512 d) then .error 2 else .ok (BitVec.ofNat 512 d)

/-- Changes slot n of a strand. -/
def State.modSlot (s : State) (b k n : Nat) (f : Slot → Slot) : State :=
  s.modStrand b k fun t => { t with slot := Store.set t.slot n (f (Store.get t.slot n {})) {} }

def State.slotOf (s : State) (b k n : Nat) : Slot := Store.get (s.strand b k).slot n {}

/-- The command does not fit the slot's state (R41). -/
def refuseSlot (s : State) (b k n : Nat) : State := s.modSlot b k n fun z => { z with refused := true }

/-- The command fits it. -/
def State.fits (s : State) (b k n : Nat) : State := s.modSlot b k n fun z => { z with refused := false }

/-- A slot of the machine. -/
def slotNo (b k n : Nat) : Bool := b < 96 && k < 4 && n < 4

/-- The BUF bit of a record of an arm (R51); a decided arm's records are ordinary ones. -/
def bufBit (s : State) (p : Nat) (r : Rec) : Bool :=
  let e := s.lv p (recLaunch r)
  lvBuf e || (recBuf r && lvLink e == 0)

/-- In slice mode another world has the partition: its records stand in the slot table (R55). -/
def State.switchedOut (s : State) (p w : Nat) : Bool :=
  !(s.part p).share && (braidsOf p).any fun b => (List.range 4).any fun k => (s.strand b k).slot.any fun e => e.2.st != .empty && recWorld e.2.bind != w

/-- Slot n of strand (b, k) in the records of a world that is switched out. -/
def State.outTaken (s : State) (b k w n : Nat) : Bool :=
  s.images.any fun i => i.evicted && i.braid == b && i.strand == k && i.world == w && i.slotNo == n

/-- A commit for a world that is switched out: the record waits outside the slot table for the world's next slice (log 37). -/
def commitOut (s : State) (b k n : Nat) (r : Rec) : State :=
  if s.outTaken b k (recWorld r) n || (List.range n).any (fun i => !s.outTaken b k (recWorld r) i) then refuseSlot s b k n
  else match commitReason s b r with
    | .error c => s.modSlot b k n fun z => { z with refused := false, invalid := true, reason := c }
    | .ok d =>
      if (s.world (recWorld r)).tearing then s else
      let slot : Slot := { st := .waiting, bind := setBit r 122 (bufBit s (partOf b) r), desc := some d }
      let img : Image :=
        { part := partOf b, braid := b, strand := k, world := recWorld r, body := {}, held := [], locks := [], densePos := none, slot := slot,
          sealBy := none, slotNo := n, evicted := true }
      let s := { s with images := s.images ++ [img] }
      s.modWorld (recWorld r) fun w => { w with boundOn := if w.boundOn.contains b then w.boundOn else w.boundOn ++ [b] }

/-- SLOT_COMMIT (R41). -/
def commitSlot (s : State) (b k n : Nat) (r : Rec) : State :=
  if !slotNo b k n then s
  else if (s.braid b).status = 0 ∧ s.switchedOut (partOf b) (recWorld r) then commitOut s b k n r
  else if (s.braid b).status ≠ 0 ∨ (s.slotOf b k n).st ≠ .empty ∨ (List.range n).any (fun i => (s.slotOf b k i).st == .empty) then refuseSlot s b k n
  else match commitReason s b r with
    | .error c => s.modSlot b k n fun z => { z with refused := false, invalid := true, reason := c }
    | .ok d =>
      if (s.world (recWorld r)).tearing then s else
      let s := s.modSlot b k n fun z => { st := .waiting, bind := setBit r 122 (bufBit s (partOf b) r), desc := some d, cause := z.cause }
      s.modWorld (recWorld r) fun w => { w with boundOn := if w.boundOn.contains b then w.boundOn else w.boundOn ++ [b] }

/-- SLOT_WITHDRAW (R41, R45). -/
def withdrawSlot (s : State) (b k n : Nat) : State :=
  if !slotNo b k n then s
  else if n = 0 ∨ (s.slotOf b k n).st = .empty then refuseSlot s b k n
  else (((discardPreload s b k n).modStrand b k (·.shift n)).fits b k n).sweepBars b

/-- What a cancel or rerun of slot 0 does to the record behind it (R44). -/
def dropDep (s : State) (b k : Nat) : State :=
  if recDep (s.slotOf b k 1).bind then discardPreload s b k 1 else s

/-- The trap policy "cancel the unit": its whole launch is cancelled, and vector 1 of its world is raised (R50, R346, R373). -/
def policyCancel (s : State) (b k : Nat) : State :=
  let r := (s.slotOf b k 0).bind
  let t := s.level (partOf b) [.cancel (recLaunch r)]
  t.modWorld (recWorld r) fun w => { w with vectors := w.vectors ++ [1] }

/-- SLOT_CANCEL (R41, R50): of a unit frozen by a trap it is the trap policy (R346). -/
def cancelSlot (s : State) (b k n : Nat) : State :=
  if !slotNo b k n then s
  else
    let z := s.slotOf b k 0
    if n ≠ 0 ∨ !(z.st = .running ∨ z.st = .frozen) then refuseSlot s b k n
    else
      let s := s.fits b k 0
      if z.st = .frozen ∧ z.cause ≠ 0 ∧ lvLive (s.lv (partOf b) (recLaunch z.bind)) then policyCancel s b k
      else finishUnit (dropDep s b k) b k true

/-! Preloads (R43). -/

/-- The record has a pad preload. -/
def Slot.wantsPad (z : Slot) : Bool := dPlen z.descr != 0 && recPbank z.bind != 31

/-- The image of a record's pad preload, where it can be read and no byte of it is marked poisoned. -/
def padImage (s : State) (b : Nat) (z : Slot) : Option (List Byte) :=
  let w := recWorld z.bind
  if vaPoisoned s b w (dPimage z.descr) (256 * dPlen z.descr) then none else (readVA s b w (dPimage z.descr) (256 * dPlen z.descr)).toOption

/-- A record's bank takes its pad preload now: in PAD mode, with no slab, no switch and no other reservation, and the image readable. A record whose bank is
reserved by another strand's preload, or whose image cannot be read, waits with HOLD 5 as for a bank that is not free (log 58, DESIGN CHOICE). -/
def padFree (s : State) (b : Nat) (z : Slot) : Bool :=
  let n := recPbank z.bind
  let t := s.braid b
  t.bankModeOf n == 1 && (t.slabsIn n).isEmpty && !t.switching n && !s.bankReserved b n && (padImage s b z).isSome

/-- The pad preload of the record in slot n, where its bank takes it. -/
def preloadPad (s : State) (b k n : Nat) : State :=
  let z := s.slotOf b k n
  let bank := recPbank z.bind
  if !z.wantsPad || z.pad || !padFree s b z then s
  else
    let s := s.modBraid b fun t =>
      ({ t with pad := t.pad.filter (fun e => e.1 / 65536 != bank), bankLast := Store.del t.bankLast bank }).padSet (65536 * bank) ((padImage s b z).getD [])
    s.modSlot b k n fun z => { z with pad := true }

/-- Where a unit starts (R194). -/
def startPc (s : State) (b : Nat) (z : Slot) : Word :=
  let d := z.descr
  let w := recWorld z.bind
  let t := s.braid b
  let own := dNative d != 0 && (match regionHeader s b w (dNative d) with | some (_, sig) => sig == t.sig | none => false)
  if own then BitVec.ofNat 64 (dNative d + 65)
  else match (s.part (partOf b)).tcache.find? fun e => e.1 == dCode d && e.2.1 == w && e.2.2.1 == t.sig with
    | some e => BitVec.ofNat 64 (e.2.2.2 + 65)
    | none => BitVec.ofNat 64 (dCode d)

/-- The code preload of the record in slot n: locked lines from the entry point up. -/
def preloadCode (s : State) (b k n : Nat) : State :=
  let z := s.slotOf b k n
  let key := if n = 0 then k else preloadKey k
  let a := (startPc s b z).toNat / 2 * 2
  let (t, got) := lockLines s b key (recWorld z.bind) (linesOf a (1024 * dPrecode z.descr)) (s.braid b) []
  (s.setBraid b t).modSlot b k n fun z => { z with lines := got }

/-- The record in slot 0 has its own code and pad contents loaded from its descriptor (R44). -/
def preloadNow (s : State) (b k : Nat) : State := (preloadPad (preloadCode s b k 0) b k 0).modSlot b k 0 fun z => { z with blocked := false }

/-- PRELOAD_BEGIN: the code preload of the record in slot 1. -/
def beginPreload (s : State) (b k : Nat) : State :=
  let z := s.slotOf b k 1
  if z.st ≠ .waiting ∨ z.blocked ∨ z.predone ∨ (s.slotOf b k 0).st ≠ .running then s
  else (preloadCode s b k 1).modSlot b k 1 fun z => { z with st := .preloading }

/-- PAD_PRELOAD_BEGIN: the pad preload of the record in slot 1, where its bank is free for it. -/
def beginPad (s : State) (b k : Nat) : State := if (s.slotOf b k 1).st = .preloading then preloadPad s b k 1 else s

/-- PRELOAD_DONE: the preloads of the record in slot 1 have finished, once a pad preload it has has been made. -/
def endPreload (s : State) (b k : Nat) : State :=
  let z := s.slotOf b k 1
  if z.st ≠ .preloading ∨ (z.wantsPad && !z.pad) then s
  else s.modSlot b k 1 fun z => { z with st := .ready, predone := true }

/-- SLOT_RERUN (R41, R44): the unit's tokens return, its slabs are released, and its record waits to start again, with its code and pad contents loaded afresh. -/
def rerunSlot (s : State) (b k n : Nat) : State :=
  if !slotNo b k n then s
  else
    let z := s.slotOf b k 0
    if n ≠ 0 ∨ z.st ≠ .frozen then refuseSlot s b k n
    else
      let s := dropDep s b k
      let rest := (s.strand b k).slot
      let s := endUnit s b k true true
      let s := s.modStrand b k fun t =>
        let m := Store.put rest 0 { st := .waiting, bind := z.bind, desc := z.desc, cause := z.cause, invalid := z.invalid, reason := z.reason, params := z.params }
        let z1 := Store.get m 1 {}
        { t with slot := if recDep z1.bind then Store.set m 1 { z1 with blocked := true } {} else m }
      preloadNow s b k

/-! Starting a record (R42). -/

/-- The token list of a record: kind, lender, virtual base, log2 of each entry; none where the list is malformed or cannot be read. -/
def tokenList (s : State) (b : Nat) (r : Rec) : Option (List (Nat × BitVec 24 × Nat × Nat)) :=
  (List.range (recTokCount r)).mapM fun i =>
    match readVALE s b (recWorld r) (recTokList r + 16 * i) 16 with
    | .error _ => none
    | .ok e =>
      let kind := e / 2 ^ 88 % 4
      let l := e / 2 ^ 48 % 64
      let base := e % 2 ^ 48
      if e / 2 ^ 90 ≠ 0 ∨ e / 2 ^ 54 % 1024 ≠ 0 ∨ kind = 3 ∨ l < 12 ∨ 36 < l ∨ base % 2 ^ l ≠ 0 then none
      else some (kind, BitVec.ofNat 24 (e / 2 ^ 64), base, l)

/-- The slab list of a record: its define doublewords. -/
def slabList (s : State) (b : Nat) (r : Rec) : Option (List Word) :=
  match (List.range (recSlabCount r)).mapM fun i =>
    match readVALE s b (recWorld r) (recSlabList r + 8 * i) 8 with
    | .error _ => none
    | .ok e => if e / 2 ^ 32 ≠ 0 ∨ e % 16 ≠ 0 then none else some (BitVec.ofNat 64 e) with
  | none => none
  | some l => if (l.map fun v => bits v 26 6).Nodup then some l else none

/-- A record is refused as it starts: what it has made is undone and its slot empties (R42). -/
def refuseRecord (s : State) (b k reason : Nat) : State :=
  let z := s.slotOf b k 0
  let s := (discardPreload (undoStart s b k z) b k 0).modStrand b k (·.shift 0)
  (s.modSlot b k 0 fun z => { z with invalid := true, reason := reason }).sweepBars b

/-- One start-time transfer (R42): a TLEND on behalf of the lender, or a TACQ in the strand's name. -/
def startArgs (s : State) (b k : Nat) (r : Rec) (e : Nat × BitVec 24 × Nat × Nat) (pa : Nat) : TokArgs :=
  let w := recWorld r
  let me := agentId s.device b k
  if e.1 = 0 then { op := 10, issuer := e.2.1, world := s.unitWorld e.2.1 w, base := pa, log2 := e.2.2.2, agent := me, evt := recTokEvt r }
  else { op := 18, issuer := me, world := w, base := pa, log2 := e.2.2.2, evt := recTokEvt r }

/-- What a start-time transfer comes to: made, to be tried again, or refused. -/
inductive Started where
  | made (pa mode : Nat) (s : State)
  | again (pa : Nat)
  | refused
  deriving DecidableEq, Repr

/-- One start-time transfer, with the perform, flush and invalidate order of a transfer (R42, R95): it waits for its issuer's earlier accesses to the range,
for the lines that must be written back, and for a route to the home. FULL, NOTHELD and BUSY are tried again. A base that does not translate, for which R97
has no status, refuses the record (log 58, DESIGN CHOICE). -/
def startTransfer (s : State) (b k : Nat) (r : Rec) (e : Nat × BitVec 24 × Nat × Nat) : Started :=
  match translate s b (recWorld r) e.2.2.1 with
  | .error _ => .refused
  | .ok t =>
    let pa := t.pa e.2.2.1
    let q := startArgs s b k r e pa
    let size := 2 ^ q.log2
    let home := s.isLocal q.issuer
    let c := agentBraid q.issuer
    if fareHome s b (recWorld r) pa ≠ .sent || (home && !(s.rangeIdle c (agentNo q.issuer) q.world pa size s.serial && s.canFlush c q.world pa size)) then .again pa
    else match tokenRun s q with
      | (0, s') => .made pa (match s.tokenExact pa q.log2 with | some u => if e.1 = 0 then 0 else u.mode | none => 0) (if home then s'.flushRange c pa size else s')
      | (n, _) => if n = 1 ∨ n = 2 ∨ n = 6 then .again pa else .refused

/-- The record in slot 0 has its next start-time transfer held up by a token that a speculative arm holds provisionally (R42, R52). -/
def armBlocked (s : State) (b k : Nat) (z : Slot) : Bool :=
  match (tokenList s b z.bind).bind (·[z.xfers]?) with
  | some e => (match startTransfer s b k z.bind e with
    | .again pa => (s.tokenExact pa e.2.2.2).any fun t => s.otherArm (startArgs s b k z.bind e pa) t
    | _ => false)
  | none => false

/-- START_TRANSFER_DONE: the next start-time transfer or slab define of the record in slot 0 ends (R42); none is made on gated logic (R29). -/
def startNext (s : State) (b k : Nat) : State :=
  let z := s.slotOf b k 0
  let r := z.bind
  if z.st ≠ .waiting || !(s.braid b).logicOn then s
  else match tokenList s b r, slabList s b r with
    | some ts, some ds =>
      match ts[z.xfers]? with
      | some e =>
        match startTransfer s b k r e with
        | .made pa mode s => s.modSlot b k 0 fun z => { z with xfers := z.xfers + 1, made := (mode, e.2.1, pa, e.2.2.2) :: z.made }
        | .again _ => s
        | .refused => refuseRecord s b k 4
      | none =>
        match ds[z.slabs]? with
        | none => s
        | some v =>
          let inPad := z.pad && bits v 21 5 == recPbank r && bits v 13 8 + bits v 4 9 ≤ dPlen z.descr
          let s1 := s.modSlot b k 0 fun z => { z with pad := false }
          match slabDefine s1 b k (recWorld r) v inPad with
          | (s', 0) => s'.modSlot b k 0 fun y => { y with pad := z.pad, slabs := z.slabs + 1 }
          | (s', 1) => s'.modSlot b k 0 fun y => { y with pad := z.pad }
          | _ => refuseRecord s b k 5
    | _, _ => refuseRecord s b k 1

/-- Another unit of the launch on the braid carries another count for a barrier, none among them (R61). -/
def barMismatch (s : State) (b k : Nat) (z : Slot) : Bool :=
  let other := fun (y : Slot) => recLaunch y.bind == recLaunch z.bind && (List.range 8).any fun j => dBarCfg y.descr j != dBarCfg z.descr j
  (List.range 4).any (fun i => i != k && (let y := (s.strand b i).slot0
      (y.st == .running || y.st == .frozen) && other y)) ||
    s.images.any fun i => i.braid == b && i.slotNo == 0 && i.slot.st == .frozen && other i.slot

/-- A barrier the record needs is held by another launch. -/
def barTaken (s : State) (b : Nat) (z : Slot) : Bool :=
  (List.range 8).any fun j => dBarCfg z.descr j != 0 &&
    (match (Store.get (s.braid b).bars j {}).launch with | some l => l != recLaunch z.bind | none => false)

/-- Stationary buffers are cleared (R36, R59, R320). -/
def Braid.clearSbufs (t : Braid) : Braid := { t with sbuf := [] }

/-- The stationary buffers are cleared, a load under way having ended first (R59, R325). -/
def State.clearSbufs (s : State) (b : Nat) : State := ((List.range 2).foldl (fun s n => finishMlds s b n) s).modBraid b (·.clearSbufs)

/-- The strand of a unit that starts (R36). -/
def Strand.begin (t : Strand) (clk : Nat) (pc : Word) : Strand :=
  let z := t.slot0
  { slot := Store.put t.slot 0 { z with st := .running, predone := false, pad := false, blocked := false, invalid := false, reason := 0, lines := [], made := [] }
    r := { ecnt := Store.set [] (recTokEvt z.bind) (BitVec.ofNat 32 z.xfers) 0 }
    c := { pc := pc }
    clk := max t.clk clk, lastClk := max t.clk clk, lastWorld := t.lastWorld, heldOps := t.heldOps, dbgAddr := t.dbgAddr, dbgCtl := t.dbgCtl, mtlb := t.mtlb }

/-- Records of strand k wait while unit u is under repair (R391, R399). -/
def repairHolds (k u : Nat) : Bool :=
  if u < 0x08 then u / 2 == k else if 0x10 ≤ u && u < 0x20 then u / 4 % 4 == k else if 0x20 ≤ u && u < 0x2C then u % 4 == k else true

/-- HOLD of a slot (R40, R42, R43): the first condition of a waiting record that is not met; of the record in slot 1, that its bank is not free. HOLD 7
stands in no state a commit leaves, which reads the descriptor (log 37, DEDUCED). -/
def State.holdOf (s : State) (b k n : Nat) : Nat :=
  let z := s.slotOf b k n
  let t := s.braid b
  if n = 0 ∧ z.st = .waiting then
    if z.desc.isNone then 7
    else if z.xfers ≠ recTokCount z.bind then (if armBlocked s b k z then 3 else 2)
    else if z.slabs ≠ recSlabCount z.bind then 8
    else if barTaken s b z then 4
    else if !t.logicOn || t.status != 0 then 1
    else if t.underRepair.any (repairHolds k) then 6
    else 0
  else if n = 1 ∧ (z.st = .waiting ∨ z.st = .preloading) ∧ z.wantsPad ∧ !z.pad ∧ !padFree s b z then 5
  else 0

/-- STATE of a slot (R40). An end is one step of this model, so that 6 shows in no state between steps (log 37, DEDUCED). -/
def SlotState.num : SlotState → Nat
  | .empty => 0
  | .waiting => 1
  | .preloading => 2
  | .ready => 3
  | .running => 4
  | .frozen => 5
  | .ending => 6

/-- The status word of a slot (R40). -/
def State.slotWord (s : State) (b k n : Nat) : Word :=
  let z := s.slotOf b k n
  BitVec.ofNat 64 (z.cause % 256 * 2 ^ 24 + z.reason % 16 * 2 ^ 20 + s.holdOf b k n * 2 ^ 16 + bit z.invalid * 2 ^ 9 + bit z.refused * 2 ^ 8 +
    bit z.predone * 2 ^ 4 + z.st.num)

/-- RECORD_START (R42, R61, R194): the record in slot 0 starts once every condition holds. -/
def startRecord (s : State) (b k : Nat) : State :=
  let z := s.slotOf b k 0
  if z.st ≠ .waiting then s
  else if z.xfers = recTokCount z.bind ∧ z.slabs = recSlabCount z.bind ∧ barMismatch s b k z then refuseRecord s b k 6
  else if s.holdOf b k 0 ≠ 0 then s
  else
    let w := recWorld z.bind
    let s := if (s.strand b k).lastWorld == some w then s else s.clearSbufs b
    let next := s.slotOf b k 1
    let s := s.modBraid b fun t => { t with
      bars := (List.range 8).foldl (fun m j =>
        if dBarCfg z.descr j = 0 ∨ (Store.get m j {}).launch.isSome then m
        else Store.put m j { launch := some (recLaunch z.bind), expected := dBarCfg z.descr j }) t.bars
      icLocks := (t.icLocks.map fun e =>
        if e.1 == preloadKey k && z.lines.contains e.2.1 && e.2.2 == w && !(next.lines.contains e.2.1) then (k, e.2) else e).dedup }
    let pc := startPc s b z
    let clk := braidClk s b
    s.modStrand b k fun t => t.begin clk pc

/-! Budgets, pre-emption, the end of HALT (R34, R46, R348). -/

/-- The running budget of a record in cycles (R46); 0 for none. -/
def budgetOf (s : State) (b : Nat) (r : Rec) : Nat := (Store.get (s.part (partOf b)).budget (recQclass r) 0).toNat * 65536

/-- A pre-emption request reaches a strand (R348): one that is stalled on a wait of R63 freezes at once. Another request is pending already or not; its
bundles count on. A freeze under way satisfies it. -/
def preempt (s : State) (b k code : Nat) : State :=
  let t := s.strand b k
  if t.slot0.st ≠ .running ∨ t.frz.isSome then s
  else
    let ask := match t.preempt with | some (c, n) => (if code ≠ 0 then code else c, n) | none => (code, 0)
    let s := s.modStrand b k fun t => { t with preempt := some ask }
    if t.haltWait || t.hold.isSome || t.stalled then preemptFreeze s b k none else s

/-- The budget of a unit is spent (R46). -/
def budgetSpent (s : State) (b k : Nat) : State :=
  let t := s.strand b k
  let n := budgetOf s b t.slot0.bind
  if n = 0 ∨ t.runCyc < n ∨ t.preempt.any (·.1 == 0x80) then s else preempt s b k 0x80

/-- PREEMPT_BUNDLE_LIMIT: 4,096 bundles have issued since the request, or the strand waits at its HALT (R229, R348). -/
def bundleLimit (s : State) (b k : Nat) : State :=
  let t := s.strand b k
  if t.slot0.st = .running ∧ t.frz.isNone ∧ t.preempt.any (fun p => 4096 ≤ p.2 || t.haltWait) then preemptFreeze s b k none else s

/-- HALT's fence (R34, R118): it ends clean and the unit ends, or finds a pending error and traps. -/
def haltEnds (s : State) (b k : Nat) : State :=
  let t := s.strand b k
  if t.slot0.st ≠ .running ∨ !t.haltWait ∨ t.frz.isSome ∨ !s.quiet b k then s
  else match t.pendErr with
    | e :: _ => takeTrap s b k { cause := 0x10, step := 10, detail := e }
    | [] =>
      let s := finishUnit s b k false
      -- a record that a rerun kept from being preloaded is so now (R44)
      if (s.slotOf b k 0).blocked then preloadNow s b k else s

/-! Arbitration (R57). -/

/-- A request: strand, world, order, cost. -/
structure Want where
  strand : Nat
  world : Nat
  seq : Nat
  cost : Nat
  deriving DecidableEq, Repr

def Braid.dcOf (t : Braid) (r w : Nat) : Int := Store.get t.dc (256 * r + w) 0

/-- Deficits rise until one of the waiting worlds may be served. -/
def replenish (p : Part) (r : Nat) (ws : List Nat) : Nat → Braid → Braid
  | 0, t => t
  | n + 1, t =>
    if ws.all fun w => t.dcOf r w ≤ 0 then
      replenish p r ws n { t with dc := ws.foldl (fun m w => Store.put m (256 * r + w) (min (t.dcOf r w + p.weightOf w * 16) 32767)) t.dc }
    else t

/-- The better of two requests by a strict order. -/
def pickBest (better : Want → Want → Bool) (l : List Want) : Option Want :=
  l.foldl (fun a q => match a with | none => some q | some p => if better q p then some q else some p) none

/-- The choice of R57 among requests for resource r, of all that are pending: the request, and the braid with its deficits raised. -/
def choose (s : State) (b r : Nat) (all wants : List Want) : Option Want × Braid :=
  let t := s.braid b
  let p := s.part (partOf b)
  let prio := fun (q : Want) => recPrio (s.strand b q.strand).slot0.bind
  let guard := wants.filter fun q => 3 ≤ Store.get t.passed (4 * r + q.strand) 0
  let t := { t with dc := t.dc.filter fun e => !(e.1 / 256 == r && !(all.any fun q => q.world == e.1 % 256)) }
  let t' := if guard.isEmpty && p.share then replenish p r (wants.map (·.world)) 2049 t else t
  match pickBest (fun q q' => decide (q.seq < q'.seq)) guard with
  | some q => (some q, t')
  | none =>
    (pickBest (fun q q' =>
      let d := if p.share then t'.dcOf r q.world else 0
      let d' := if p.share then t'.dcOf r q'.world else 0
      if d ≠ d' then d' < d
      else if p.share && q.world != q'.world then q.world < q'.world
      else if prio q ≠ prio q' then prio q' < prio q
      else q.seq < q'.seq) wants, t')

/-- Grants of resource r of braid b are tried among requests (R57, R228): a strand that has yielded forgoes the grant that comes to it, and the next is made among the
others; it still counts as waiting. The request granted, if any, and the machine after it. The counter of a world without a request is set to 0 here
(log 36). -/
def arbitrateFrom (b r : Nat) (all : List Want) : Nat → List Want → State → Option Want × State
  | 0, _, s => (none, s)
  | n + 1, wants, s =>
    match choose s b r all wants with
    | (none, _) => (none, s)
    | (some g, t) =>
      if (s.strand b g.strand).yielded.contains r then
        arbitrateFrom b r all n (wants.filter (·.strand != g.strand)) (s.modStrand b g.strand fun u => { u with yielded := u.yielded.filter (· != r) })
      else
        let left := all.filter (·.seq != g.seq)
        let waited := fun (k : Nat) => Store.get t.passed (4 * r + k) 0
        let dc := if (s.part (partOf b)).share then Store.put t.dc (256 * r + g.world) (max (t.dcOf r g.world - g.cost) (-32768)) else []
        (some g, s.setBraid b { t with
          dc := dc
          passed := (List.range 4).foldl (fun m k =>
            if k ≠ g.strand ∧ left.any (·.strand == k) then Store.put m (4 * r + k) (waited k + 1) else Store.del m (4 * r + k)) t.passed })

def arbitrate (s : State) (b r : Nat) (wants : List Want) : Option Want × State := arbitrateFrom b r wants 5 wants s

/-- The lease may pass: nobody holds it, or the holder's run is spent and it asks again; no load is in progress (R58, R59, log 36). -/
def Braid.leaseFree (t : Braid) : Bool :=
  (match t.holder with
    | none => true
    | some k => t.left == 0 && t.leaseReqs.any (·.strand == k)) && !(List.range 2).any fun n => (Store.get t.sbuf n {}).st == 1

/-- LEASE_GRANT (R57 to R60). -/
def grantLease (s : State) (b : Nat) : State :=
  let t := s.braid b
  if !t.leaseFree then s
  else
    let wants := t.leaseReqs.map fun q => { strand := q.strand, world := recWorld (s.strand b q.strand).slot0.bind, seq := q.seq, cost := 16 * q.n : Want }
    match arbitrate s b 0 wants with
    | (none, s) => s
    | (some g, s) =>
      let n := match t.leaseReqs.find? (·.seq == g.seq) with | some q => q.n | none => 0
      let s := if t.leaseWorld = some g.world then s else s.clearSbufs b
      let s := s.modBraid b fun t => { t with holder := some g.strand, left := n, leaseReqs := t.leaseReqs.filter (·.seq != g.seq), leaseWorld := some g.world }
      s.modStrand b g.strand fun t => { t with c := { t.c with leaseHas := true } }

end Sys2Proof.Machine
end

