-- ==== Sys2Proof/Machine/Saves.lean ====
section
/-!
DEFINITION. Saving and restoring contexts (R351 to R355), slices (R55), the slot command resume (R41, R196), debug commands (R358), the
trap queue (R344) and handler launches (R346).
-/

namespace Sys2Proof.Machine

/-! What a save writes (R210, R352, R353). -/

/-- Bit j of the live map; none: everything is live. -/
def liveBit (m : Option Nat) (j : Nat) : Bool := match m with | some e => e / 2 ^ j % 2 == 1 | none => true

/-- Scalar cells whose names are live: s0 to s47, o0 to o15. -/
def Regs.liveCells (r : Regs) (m : Option Nat) : List Nat :=
  (List.range 64).filterMap fun n => if liveBit m (if n < 48 then 41 + n else 89 + (n - 48)) then some (r.cellX n) else none

/-- The registers an image holds: a register the save did not write reads zero; a tile or bank in use and not dirty stands as saved before. -/
def Regs.saved (r : Regs) (m : Option Nat) : Regs :=
  let cells := r.liveCells m
  let tileLive := fun t => liveBit m (113 + t)
  let accLive := fun a => liveBit m (129 + a)
  { r with
    x := r.x.filter fun e => cells.contains e.1
    pr := (List.range 8).foldl (fun v n => if n = 0 ∨ liveBit m (105 + n) then v else setBit v (r.cellP n) false) r.pr
    tile := r.tile.filter fun e => tileLive (e.1 / 16) || !r.tDirty.getLsbD (e.1 / 16)
    tDirty := (List.range 16).foldl (fun v t => if tileLive t && r.tUse.getLsbD t then setBit v t false else v) r.tDirty
    acc := r.acc.filter fun e => accLive (e.1 / 16) || !r.aDirty.getLsbD (e.1 / 16)
    aDirty := (List.range 6).foldl (fun v a => if accLive a && r.aUse.getLsbD a then setBit v a false else v) r.aDirty
    mask := r.mask.filter fun e => e.1 == 0 || liveBit m (134 + e.1)
    k := r.k.filter fun e => liveBit m (138 + e.1)
    fmt := r.fmt.filter fun e => liveBit m (170 + e.1)
    zbuf := r.zbuf.filter fun e => liveBit m (178 + e.1)
    pat := r.pat.filter fun e => liveBit m (182 + e.1 / 64) }

/-- The slot index within the partition and the world, as a key of the seal's sequence numbers (R355). -/
def sealKey (b k n w : Nat) : Nat :=
  65536 * partOf b + 256 * (16 * ((braidsOf (partOf b)).findIdx (· == b)) + 4 * k + n) + w

/-- The IV of a seal (R355): world tag, slot index within the partition, sequence number. -/
def sealIv (b k n w seq : Nat) : BitVec 96 :=
  BitVec.ofNat 96 (w % 256 * 2 ^ 88 + (16 * ((braidsOf (partOf b)).findIdx (· == b)) + 4 * k + n) % 256 * 2 ^ 80 + seq % 2 ^ 64)

/-- A frozen strand's image (R351 to R353, R355); one of a protected world is sealed under its world's context key with the next sequence number. -/
def mkImage (s : State) (b k : Nat) (streaming : Bool) : Image :=
  let t := s.strand b k
  let z := t.slot0
  let w := recWorld z.bind
  let code := dCode z.descr
  let m := if streaming then none else t.atSafe.bind (liveMap s b w code)
  { part := partOf b, braid := b, strand := k, world := w, slot := z
    body := { t with
      r := t.r.saved m, slot := [], heldOps := t.heldOps.filter fun c => c.launch == recLaunch z.bind && c.evt != 16
      dbgAddr := [], dbgCtl := [], lastWorld := none, l1 := [], mtlb := [] }
    held := (s.braid b).held.filter fun h => h.agent == agentId s.device b k && h.world == w
    locks := ((s.braid b).icLocks.filter fun e => e.1 == k && e.2.2 == w).map (·.2.1)
    densePos := t.atSafe.bind (densePosOf s b w code)
    sealBy := if s.isProtected w then some ((s.world w).ctxKey.getD 0, sealIv b k 0 w (Store.get s.sealSeq (sealKey b k 0 w) 0 + 1)) else none
    slotNo := 0
    evicted := false }

/-- The strand and its braid with the context of slot 0 taken out. -/
def takeOut (s : State) (b k : Nat) (i : Image) : State :=
  let s := s.modBraid b fun t => { t with held := t.held.filter (fun h => !i.held.contains h)
                                          icLocks := t.icLocks.filter fun e => !(e.1 == k && e.2.2 == i.world) }
  let key := sealKey b k 0 i.world
  let s := if i.sealBy.isSome then { s with sealSeq := Store.put s.sealSeq key (Store.get s.sealSeq key 0 + 1) } else s
  { s.modStrand b k fun t =>
      { slot := t.slot, clk := t.clk, lastClk := t.lastClk, lastWorld := t.lastWorld, dbgAddr := t.dbgAddr, dbgCtl := t.dbgCtl, mtlb := t.mtlb
        heldOps := t.heldOps.filter fun c => c.launch != recLaunch i.slot.bind || c.evt == 16 }
    with images := s.images ++ [i] }

/-- The strand stands frozen with its context in place. -/
def State.frozenHere (s : State) (b k : Nat) : Bool := let z := s.slotOf b k 0; z.st == .frozen && !z.saved

/-- CONTEXT_SAVE and STREAMING_SAVE: the record stays in its slot (R351). -/
def saveContext (s : State) (b k : Nat) (streaming : Bool) : State :=
  if !s.frozenHere b k then s
  else (takeOut s b k (mkImage s b k streaming)).modSlot b k 0 fun z => { z with saved := true }

/-! Restoring (R354, R355). -/

/-- A token's agents renamed: a unit restored on another strand keeps what it held (log 31). -/
def renameAgent (s : State) (w : Nat) (old new : BitVec 24) : State :=
  let f := fun a => if a = old then new else a
  { s with tokens := s.tokens.map fun (t : Token) => if t.world = w then
      { t with holder := f t.holder, lend := t.lend.map f, snapHolder := f t.snapHolder, snapLend := t.snapLend.map f } else t }

/-- Locks requested again, best effort (R261). -/
def relock (t : Braid) (k w : Nat) (lines : List Nat) : Braid × Bool :=
  lines.foldl (fun (a : Braid × Bool) l => match a.1.lockLine k w l with | some t => (t, a.2) | none => (a.1, true)) (t, false)

/-- The seal of an image verifies (R355): it is under its world's context key of now, with the IV of the newest seal of its slot and world. The tag itself
stands for the image's bytes, whose layout is private (log 39). -/
def Image.verifies (s : State) (i : Image) : Bool :=
  match i.sealBy with
  | none => true
  | some (key, iv) => (s.world i.world).ctxKey == some key && iv == sealIv i.braid i.strand 0 i.world (Store.get s.sealSeq (sealKey i.braid i.strand 0 i.world) 0)

/-- An image's context placed on strand k of braid b, frozen (R354, steps 2 and 3). -/
def placeImage (s : State) (i : Image) (b k : Nat) : State :=
  let old := agentId s.device i.braid i.strand
  let new := agentId s.device b k
  let s := if old = new then s else renameAgent s i.world old new
  let (t, lost) := relock (s.braid b) k i.world i.locks
  let s := s.setBraid b { t with held := t.held ++ i.held.map fun (h : Held) => if h.agent = old then { h with agent := new } else h }
  let s := { s with images := s.images.filter fun j => j != i }
  s.modStrand b k fun t =>
    { i.body with
      slot := t.slot, clk := t.clk, lastClk := t.lastClk, clkFree := t.clkFree, dbgAddr := t.dbgAddr, dbgCtl := t.dbgCtl, lastWorld := t.lastWorld
      mtlb := t.mtlb, heldOps := t.heldOps ++ i.body.heldOps, ilockLost := lost }

/-- Where an image resumes: natively where its region fits, else at its dense position with no loop entry (R196). -/
def imageResume (s : State) (b k : Nat) (i : Image) : Option Word :=
  let t := { s.strand b k with atSafe := i.body.atSafe }
  match resumeAt s b { t with c := i.body.c, slot := Store.put [] 0 i.slot } with
  | some pc => if pc.getLsbD 0 || !i.body.c.pc.getLsbD 0 then some pc else i.densePos.map (BitVec.ofNat 64)
  | none => match i.densePos, i.body.c.loops with
    | some d, [] => some (BitVec.ofNat 64 d)
    | _, _ => none

/-- A unit's commands, receives or token operations are still under way at its strand, which has their answers (R350). -/
def State.awaited (s : State) (b k w : Nat) : Bool :=
  ((s.braid b).cmds ++ (s.braid b).recvs).any (fun c => c.strand == k && c.world == w) || s.xfers.any fun t => t.braid == b && t.strand == k && t.world == w

/-- CONTEXT_RESTORE: image n runs on strand k of braid b; one that fails its seal or cannot resume there is refused (R196, R355). One whose strand awaits answers
for it is restored there alone (log 31, DESIGN CHOICE). -/
def restoreContext (s : State) (n b k : Nat) : State :=
  match s.images[n]? with
  | none => s
  | some i =>
    let home := i.braid == b && i.strand == k
    if i.evicted || i.slotNo != 0 || !slotNo b k 0 || (s.braid b).status != 0 || partOf b != i.part || (!home && ((s.slotOf b k 0).st != .empty || s.awaited i.braid i.strand i.world)) then s
    else if !i.verifies s then refuseSlot s i.braid i.strand 0
    else match imageResume s b k i with
      | none => refuseSlot s i.braid i.strand 0
      | some pc =>
        let z := s.slotOf i.braid i.strand 0
        let s := placeImage s i b k
        let s := if home then s else s.modStrand i.braid i.strand (·.shift 0)
        let s := s.modSlot b k 0 fun _ => { z with saved := false, refused := false }
        resumeStrand s b k pc

/-- SLOT_RESUME (R41): a saved record is restored in place. -/
def resumeSlot (s : State) (b k n : Nat) : State :=
  if !slotNo b k n then s
  else
    let z := s.slotOf b k 0
    if n ≠ 0 ∨ z.st ≠ .frozen then refuseSlot s b k n
    else if z.saved then
      match s.imageAt b k with
      | some i => restoreContext s (s.images.findIdx (· == i)) b k
      | none => refuseSlot s b k 0
    else match resumeAt s b (s.strand b k) with
      | some pc => resumeStrand (s.modSlot b k 0 fun z => { z with refused := false }) b k pc
      | none => refuseSlot s b k 0

/-! Slices (R55). -/

/-- The waiting record in slot 0 loses its preload and the slabs defined for it, which its next slice makes again (R55). -/
def unprepare (s : State) (b k : Nat) : State :=
  let z := s.slotOf b k 0
  if z.st ≠ .waiting then s
  else (releaseSlabs (discardPreload s b k 0) b k (recWorld z.bind)).modSlot b k 0 fun z => { z with slabs := 0 }

/-- Every record of a strand goes out with its world. -/
def evictStrand (s : State) (b k : Nat) : State :=
  let s := unprepare ([1, 2, 3].foldl (fun s n => discardPreload s b k n) s) b k
  let z := s.slotOf b k 0
  let s := if z.st = .empty then s
    else if z.saved then { s with images := s.images.map fun (i : Image) => if i.braid = b ∧ i.strand = k ∧ !i.evicted ∧ i.world = recWorld z.bind then { i with evicted := true, slot := z } else i }
    else takeOut s b k { mkImage s b k false with evicted := true }
  let s := [1, 2, 3].foldl (fun s n =>
    let y := s.slotOf b k n
    if y.st = .empty then s
    else { s with images := s.images ++ [{ part := partOf b, braid := b, strand := k, world := recWorld y.bind, slot := y, body := {}, held := [],
                                           locks := [], densePos := none, sealBy := none, slotNo := n, evicted := true }] }) s
  s.modStrand b k fun t => { t with slot := [], lastWorld := if z.st = .empty then t.lastWorld else some (recWorld z.bind) }

/-- A braid at a change of world (R55, R70): stationary buffers cleared, FIFO banks emptied, PAD banks zeroed, the slab table emptied. -/
def Braid.changeWorld (t : Braid) : Braid := { t.clearSbufs with slab := [], pad := [], fifo := [], fifoBad := [], bankTag := [], bankLast := [] }

/-- Something of a world other than w stands on a braid: a record, a bank, a slab, a stationary buffer, a strand's last unit. -/
def State.foreign (s : State) (b w : Nat) : Bool :=
  let t := s.braid b
  (List.range 4).any (fun k => (s.strand b k).slot.any (fun e => e.2.st != .empty && recWorld e.2.bind != w) || (s.strand b k).lastWorld.any (· != w)) ||
    (t.bankTag ++ t.bankLast).any (fun e => e.2 != w) || t.slab.any (fun e => slabSize e.2 != 0 && slabWorld e.2 != w) ||
    t.sbuf.any fun e => e.2.st != 0 && e.2.world != w

/-- A unit frozen by the end of a slice runs on with its world; one that a trap, a debugger or a quiesce froze stays frozen. -/
def Slot.resumes (z : Slot) : Bool := z.st == .frozen && !z.saved && z.cause == 0

/-- The records of a world on the braids named come back to their slots, in slot order. A record whose context fails its seal stays frozen in its slot with REFUSED set, its image
not restored (R354, R355). -/
def returnWorld (s : State) (p w : Nat) (on : Nat → Bool) (resume : Nat → Nat → Slot → Bool) : State :=
  [0, 1, 2, 3].foldl (fun s n => (s.images.filter fun i => i.part == p && i.world == w && on i.braid && i.evicted && i.slotNo == n).foldl (fun s i =>
    let s := if n ≠ 0 then { s with images := s.images.filter fun j => j != i }
      else if i.slot.saved || !i.verifies s then { s with images := s.images.map fun (j : Image) => if j = i then { j with evicted := false } else j }
      else placeImage s i i.braid i.strand
    let ok := i.verifies s
    let s := s.modSlot i.braid i.strand n fun _ => if n = 0 && !i.slot.saved && !ok then { i.slot with saved := true, refused := true } else i.slot
    if n = 0 && ok && i.slot.resumes && resume i.braid i.strand i.slot then
      match resumeAt s i.braid (s.strand i.braid i.strand) with
      | some pc => resumeStrand s i.braid i.strand pc
      | none => s
    else s) s) s

/-- The worlds with a record in the partition. -/
def State.occupied (s : State) (p w : Nat) : Bool :=
  (braidsOf p).any (fun b => (List.range 4).any fun k => (s.strand b k).slot.any fun e => e.2.st != .empty && recWorld e.2.bind == w) ||
    s.images.any fun i => i.part == p && i.world == w

/-- The next quantum entry in use whose world has an occupied slot (R55). -/
def Part.nextTurn (s : State) (p : Nat) : Option Nat :=
  let t := s.part p
  ((List.range 32).map fun i => (t.turn + 1 + i) % 32).find? fun i =>
    let e := (Store.get t.quantum i 0).toNat
    e % 2 ^ 24 != 0 && s.occupied p (e / 2 ^ 24)

/-- A unit of a job that a quiesce holds (R370). -/
def State.isQuiesced (s : State) (p : Nat) (z : Slot) : Bool :=
  let q := (s.world (recWorld z.bind)).quiesced
  q.contains 0xFFF || q.contains (s.jobOf p (recLaunch z.bind))

/-- SLICE_END (R55): the partition's strands are pre-empted; once none runs, the outgoing world's contexts go out and the next world's come in. A braid on which
anything of another world stands changes world (R70). -/
def endSlice (s : State) (p : Nat) : State :=
  let bs := braidsOf p
  let each (f : State → Nat → Nat → State) (s : State) : State := bs.foldl (fun s b => (List.range 4).foldl (fun s k => f s b k) s) s
  if (s.part p).share then s
  else
    let s := each (fun s b k => preempt s b k 0) s
    if bs.any fun b => (List.range 4).any fun k => (s.slotOf b k 0).st == .running then s
    else match Part.nextTurn s p with
      | none => s
      | some i =>
        let w := (Store.get (s.part p).quantum i 0).toNat / 2 ^ 24
        let old := (Store.get (s.part p).quantum (s.part p).turn 0).toNat / 2 ^ 24
        let changed := bs.filter fun b => old != w || s.foreign b w
        let s := each evictStrand s
        let s := changed.foldl (fun s b => ((List.range 2).foldl (fun s n => finishMlds s b n) s).modBraid b (·.changeWorld)) s
        returnWorld (s.modPart p fun t => { t with turn := i }) p w (fun _ => true) fun _ _ z => !s.isQuiesced p z

/-! Debug (R358). -/

def dbgHalt (s : State) (b k : Nat) : State :=
  if (s.slotOf b k 0).st = .running ∧ (s.strand b k).frz.isNone then freezeRec (s.modStrand b k (·.keepPosBrk)) b k { cause := 0x12, step := 0, code := 0x7FFF } none else s

def dbgResume (s : State) (b k : Nat) : State := resumeSlot s b k 0

def dbgStep (s : State) (b k : Nat) : State :=
  if (s.slotOf b k 0).st ≠ .frozen then s
  else
    let s := resumeSlot s b k 0
    if (s.slotOf b k 0).st = .running then s.modStrand b k fun t => { t with stepOnce := true } else s

/-! The trap queue and its policies (R344, R346). -/

/-- A write of TRAPQ_HEAD: one that would move it past TAIL is ignored. -/
def writeHead (s : State) (p : Nat) (v : Word) : State :=
  s.modPart p fun t =>
    let h : BitVec 9 := v.setWidth 9
    if (h - t.head).toNat ≤ (t.tail - t.head).toNat then Part.drainRecs t.heldRecs.length { t with head := h } else t

/-- The newest trap record of a strand that the partition keeps. -/
def Part.recordOf (p : Part) (a : BitVec 24) : Option Rec :=
  ((p.ring.map (·.2) ++ p.heldRecs).filter fun r => bits r 456 24 == a.toNat).foldl (fun o r =>
    match o with | none => some r | some q => if (BitVec.ofNat 32 (bits r 480 32) - BitVec.ofNat 32 (bits q 480 32)).toNat < 2 ^ 31 then some r else some q) none

/-- HANDLER_LAUNCH: a launch of one unit, a child of the unit's job; its parameters are the trap record, which stands at `page`, a sealed page of the world's
context. -/
def launchHandler (s : State) (b k b2 k2 page : Nat) : State :=
  let p := partOf b
  let z := s.slotOf b k 0
  let w := recWorld z.bind
  let job := s.jobOf p (recLaunch z.bind)
  if !slotNo b k 0 || !slotNo b2 k2 0 || partOf b2 != p || z.st != .frozen || z.cause == 0 || dHandler z.descr == 0 || (s.slotOf b2 k2 0).st != .empty then s
  else match readVALE s b w (dHandler z.descr) 64, (s.part p).recordOf (agentId s.device b k), (s.part p).freeLevels 1 with
    | .ok d, some r, i :: _ =>
      if launchBad d then s
      else match translate s b w page with
        | .error _ => s
        | .ok e =>
          if !e.isSealed then s else
          let s := addLaunch s p i job w 1
          let s := s.writeN (e.pa page) (leBytes 64 r.toNat)
          let bind : Rec := BitVec.ofNat 512 (d % 2 ^ 48 + i * 2 ^ 88 + w * 2 ^ 100 + d / 2 ^ 104 % 16 * 2 ^ 108 + d / 2 ^ 100 % 16 * 2 ^ 112 +
            d / 2 ^ 240 % 32 * 2 ^ 116 + d / 2 ^ 128 % 2 ^ 48 * 2 ^ 128 + d / 2 ^ 112 % 32 * 2 ^ 176 + d / 2 ^ 108 % 16 * 2 ^ 181 +
            d / 2 ^ 192 % 2 ^ 48 * 2 ^ 192 + d / 2 ^ 176 % 128 * 2 ^ 240)
          let s := commitSlot s b2 k2 0 bind
          let s := s.modSlot b2 k2 0 fun z => { z with params := some (BitVec.ofNat 48 page) }
          if (s.slotOf b2 k2 0).st = .empty then s.level p [.child i true]
          else s.modPart p fun t => { t with handlers := t.handlers ++ [(i, b, k)] }
    | _, _, _ => s

/-- A handler launch has ended, or a unit of it has trapped: the frozen unit resumes, or its launch is cancelled (R346). -/
def handlerStep (s : State) (p : Nat) : Option State :=
  (s.part p).handlers.findSome? fun (i, b, k) =>
    let drop (s : State) : State := s.modPart p fun t => { t with handlers := t.handlers.filter fun h => h.1 != i }
    let e := s.lv p i
    let trapped := (braidsOf p).any fun x => (List.range 4).any fun j =>
      let z := s.slotOf x j 0
      z.st == .frozen && z.cause != 0 && z.cause != 0x80 && recLaunch z.bind == i
    if lvState e = 2 then some (resumeSlot (drop s) b k 0)
    else if lvState e = 4 then some (policyCancel (drop s) b k)
    else if trapped then some (policyCancel ((drop s).level p [.cancel i]) b k)
    else none

end Sys2Proof.Machine
end

