-- ==== Sys2Proof/Machine/Net.lean ====
section
/-!
DEFINITION. Steps of the engines and of the network: service grants and the ends of commands (R57, R267 to R275), messages and event bumps
(R279 to R286), packet hops (R119 to R129), faults and timeouts of routes (R135, R137), links (R127, R412), banks, domains, translations.
-/

namespace Sys2Proof.Machine

/-! Service (R57, R267). -/

/-- Bytes a command moves (R57). -/
def Cmd.bytes (c : Cmd) : Nat :=
  match c.op with
  | 5 => c.total * 2 ^ bits (c.word 3) 32 4
  | 6 => c.total * 2 ^ bits (c.word 3) 32 4
  | 7 => c.total * 512
  | 35 => c.total * 4096
  | _ => c.total

/-- A command can begin (R267): its engine has accepted it, and no earlier one of its strand, engine and class is left. -/
def canBegin (t : Braid) (g : Nat) (c : Cmd) : Bool :=
  c.engine == g && c.acc && !c.begun && c.entry.isNone && !c.sent &&
    !t.cmds.any fun d => d.seq < c.seq && d.strand == c.strand && d.engine == g && d.cls == c.cls && !(d.sent && g == 2)

/-- The engine serves a command. -/
def engineBusy (t : Braid) (g : Nat) : Bool := t.cmds.any fun c => c.engine == g && c.begun && c.entry.isNone && !c.sent

/-- A RECV is posted, and its READY bump sent (R279, R281). -/
def postRecv (s : State) (b : Nat) (c : Cmd) : State :=
  if 128 ≤ (s.braid b).recvs.length then endCmd s b c 15 1
  else
    let s := s.modBraid b fun t => { t with cmds := t.cmds.filter (fun d => d.seq != c.seq), recvs := t.recvs ++ [c] }
    if c.flags % 2 = 1 then
      let d := { c with op := 64, seq := s.serial, begun := false, acc := false, fills := false, drained := false }
      sendReady ({ s with serial := s.serial + 1 }.addCmd b d) b d
    else s

/-- A command's service begins. -/
def beginService (s : State) (b : Nat) (c : Cmd) : State :=
  let c := { c with begun := true }
  let s := s.putCmd b c
  match c.op with
  | 23 => postRecv s b c
  | 22 => sendMsg s b c
  | 24 => sendMsg s b c
  | 35 => match scrubRefused s b (bits (c.word 2) 0 8) with | some d => endCmd s b c 15 d | none => s
  | _ => s

/-- ENGINE_SERVICE_GRANT: the copy, gather and collective engines are arbitrated among worlds (R57); the others by priority and waiting time. -/
def grantService (s : State) (b g : Nat) : State :=
  let t := s.braid b
  if engineBusy t g then s
  else
    let ready := t.cmds.filter (canBegin t g)
    let wants := ready.map fun c => { strand := c.strand, world := c.world, seq := c.seq, cost := max 1 ((c.bytes + 4095) / 4096) : Want }
    if g < 3 then
      match arbitrate s b (g + 1) wants with
      | (some q, s) => match ready.find? (·.seq == q.seq) with | some c => beginService s b c | none => s
      | (none, s) => s
    else
      let prio := fun (q : Want) => recPrio (s.strand b q.strand).slot0.bind
      match pickBest (fun q p => if prio q ≠ prio p then prio p < prio q else q.seq < p.seq) wants with
      | some q => match ready.find? (·.seq == q.seq) with | some c => beginService s b c | none => s
      | none => s

/-- ENGINE_COMMAND_END: the command the engine serves runs to its end (R268 to R275), or until a route holds it. -/
def endService (s : State) (b g : Nat) : State :=
  match (s.braid b).cmds.find? fun c => c.engine == g && g != 2 && c.begun && c.entry.isNone && !c.sent with
  | none => s
  | some c =>
    match runCmd false c.fuel s b c with
    | (s, none) => s
    | (s, some c) => s.putCmd b c

/-- SCOREBOARD_ARRIVAL (R75): a result whose value is there is written, no earlier than its cycle (R316). A freeze that waited for it is done (R350). -/
def arriveResult (s : State) (b k n : Nat) : State :=
  let t := s.strand b k
  match t.sbd[n]? with
  | some v =>
    if v.tok.isSome || v.req.isSome || t.clk < v.early then s
    else if t.frz.isSome then settleFreeze (s.modStrand b k fun t => { t with sbd := t.sbd.eraseIdx n }.arriveFrozen v) b k
    else s.modStrand b k fun t => t.arrive n v
  | none => s

/-! Packets. -/

/-- The 256-bit header of a packet (R123). -/
def Packet.header (p : Packet) : Nat :=
  p.kind % 16 * 2 ^ 240 + bit p.net * 2 ^ 239 + (p.route.length - 1) % 4 * 2 ^ 237 + (p.ret.length - 1) % 4 * 2 ^ 235 + p.consumed % 128 * 2 ^ 228 +
    p.lastRank % 256 * 2 ^ 220 + p.lane % 4 * 2 ^ 218 + p.fault % 16 * 2 ^ 214 + p.faultHop % 128 * 2 ^ 207 + (p.data.length + 127) / 128 % 64 * 2 ^ 201 +
    p.tag % 65536 * 2 ^ 185 + p.scope % 8 * 2 ^ 182 + p.cls % 16 * 2 ^ 178 + p.world % 256 * 2 ^ 170 + p.src % 65536 * 2 ^ 154 + p.dest % 65536 * 2 ^ 138

def State.dropPacket (s : State) (n : Nat) : State := { s with packets := s.packets.eraseIdx n }
def State.putPacket (s : State) (n : Nat) (p : Packet) : State := { s with packets := s.packets.set n p }

/-- The command a packet answers. -/
def State.ownerCmd (s : State) (p : Packet) : Option (Nat × Cmd) :=
  p.owner.bind fun (b, q) => ((s.braid b).cmds.find? (·.seq == q)).map fun c => (b, c)

/-- A command in the network ends with a status; the READY bump of a receive only reports a failure (R281). -/
def endSent (s : State) (b : Nat) (c : Cmd) (code detail : Nat) : State :=
  let s := if c.op = 64 then
      let s := s.modBraid b fun t => { t with cmds := t.cmds.filter fun d => d.seq != c.seq }
      if code = 0 then s else s.failUnit b c.strand c.world c.evt code detail
    else endCmd s b c code detail
  settleRtset s b

/-- The answer to a delivered packet leaves on its return route (R124). -/
def respond (s : State) (p : Packet) (code detail : Nat) : State := { s with packets := s.packets ++ [{ p.response with op := code, channel := detail }] }

/-- An earlier packet on the same route, in the same network and lane, stands at the same node: the later one waits (R127). -/
def State.behindPacket (s : State) (n : Nat) (p : Packet) : Bool :=
  (s.packets.take n).any fun q => q.at_ == p.at_ && q.arrived == p.arrived && q.net == p.net && q.lane == p.lane && q.delivered == p.delivered &&
    q.route == p.route && q.ret == p.ret

/-- A crossing that succeeds ends a run of CRC failures (R412). -/
def clearCrc (s : State) (a z : Node) : State :=
  { s with links := s.links.map fun e =>
      let l := linkEnds e.1
      if l.1 == a && l.2.2.1 == z then (e.1, { e.2 with crcAB := 0 })
      else if l.1 == z && l.2.2.1 == a then (e.1, { e.2 with crcBA := 0 }) else e }

/-- The reliability log's entry for a dropped packet: the upper half of its header (R419). -/
def State.logPacket (s : State) (p : Packet) : State := s.log 10 0xFF 0 0 (Packet.header p / 2 ^ 128)

/-- A request for device memory at its home slice (R121, R366): a read's response carries its bytes; a write is performed. -/
def serveMem (s : State) (n : Nat) (q : Packet) : State :=
  let s := (s.dropPacket n).failLines (q.kind == 1) q.addr (if q.kind = 1 then q.data.length else q.len)
  if q.kind = 1 then respond (((s.writeN q.addr q.data).markWrite q.bad q.addr q.data.length).homeTouch (lineOf q.addr) true []) q 0 0
  else { s with packets := s.packets ++ [{ q.response with data := s.readN q.addr q.len, bad := s.poisoned q.addr q.len }] }

/-- One visit of packet n: it moves on, is delivered, or turns back with its fault. A response refused on its way goes back to its sender, which drops it; a
fault return that faults is dropped; both are logged (R129, R135). -/
def hop (s : State) (n : Nat) (here : Node → Bool) : State :=
  match s.packets[n]? with
  | none => s
  | some p =>
    if p.delivered || !here p.at_ || s.behindPacket n p then s
    else match hopOf s p with
      | .error (f, h) => if p.kind = 8 then (s.dropPacket n).logPacket p else s.putPacket n (faultReturn p f h)
      | .ok q =>
        let s := clearCrc s p.at_ q.at_
        if !q.delivered then s.putPacket n q
        else if q.kind = 8 ∧ q.owner.isNone then (s.dropPacket n).logPacket q
        else if q.kind = 3 then
          let s := s.dropPacket n
          match s.ownerCmd q with
          | some (b, c) => endSent s b c q.op q.channel
          | none => s
        else if q.kind ≤ 1 then serveMem s n q
        else s.putPacket n q

/-- The packet of router injection that the arbitration of R57 chooses at a braid, for the strand whose command sent it; cost one for each flit. -/
def injectNext (s : State) (b : Nat) : Option Nat × State :=
  let l := s.packets.zipIdx.filter fun e => e.1.waits b && !s.behindPacket e.2 e.1
  let wants := l.map fun (e : Packet × Nat) =>
    { strand := match s.ownerCmd e.1 with | some (_, c) => c.strand | none => 0
      world := e.1.world
      seq := e.2
      cost := 1 + (e.1.data.length + 127) / 128 : Want }
  match arbitrate s b 4 wants with
  | (some g, s) => (some g.seq, s)
  | (none, s) => (none, s)

/-- PACKET_ROUTER_HOP: a packet that enters the mesh is the one arbitration chooses (R57). -/
def routerHop (s : State) (n : Nat) : State :=
  let here : Node → Bool := fun a => match a with | .router _ => true | _ => false
  match s.packets[n]? with
  | none => s
  | some p =>
    match p.at_ with
    | .router b =>
      if p.waits b then
        match injectNext s b with
        | (some m, s) => hop s m here
        | (none, s) => s
      else hop s n here
    | _ => s

def hubHop (s : State) (n : Nat) : State := hop s n (· == .hub)

/-- PACKET_NODE_ARRIVE: slices, the host port, lanyard ports and management cores. -/
def nodeArrive (s : State) (n : Nat) : State :=
  hop s n fun a => match a with | .router _ => false | .hub => false | .peer _ => false | _ => true

/-- A packet comes to lanyard port n from the peer device (R121): it goes on by its route words; a request for device memory goes to its home slice by the
route the port builds. An answer is for the command whose packet left by this port with its tag. -/
def lanyardIn (s : State) (n : Nat) (q : Inbound) : State :=
  let mem := q.kind ≤ 1
  let answer := q.kind = 3 ∨ q.kind = 8
  let mine := fun (p : Packet) => p.at_ == .peer n && p.tag == q.tag && p.owner.isSome
  let p : Packet :=
    { kind := q.kind, net := answer, route := if mem then homeRoute (homeSlice q.addr) else q.route, ret := if mem then [] else q.ret
      consumed := if mem then 0 else q.consumed, lastRank := if mem then 0 else q.lastRank, lane := if mem then 0 else q.lane
      fault := q.fault, faultHop := q.faultHop, tag := q.tag, scope := q.scope, cls := q.cls, world := q.world, src := q.src
      dest := if mem then s.device * 256 + 96 + homeSlice q.addr else q.dest
      at_ := .lanyard n, arrived := if mem then startsHere else 0, delivered := false, data := q.data, strand := q.strand, counter := q.counter
      channel := q.channel, op := q.op, coll := q.kind == 6
      owner := if answer then (s.packets.find? mine).bind (·.owner) else none
      addr := q.addr, len := q.len }
  if (s.link (303 + n)).down || 8 < q.kind || q.kind == 2 || q.kind == 4 || 4096 < q.len || 4096 < q.data.length ||
      (mem && !(isDevMem q.addr && isDevMem (q.addr + max q.len q.data.length))) then s
  else { s with packets := (if answer then s.packets.eraseP mine else s.packets) ++ [p] }

/-! Messages at their destination (R281 to R283). -/

/-- A receive that a message matches. -/
def recvMatches (p : Packet) (c : Cmd) : Bool :=
  let w := c.word 1
  c.world == p.world && bits w 16 6 == p.channel && (bits w 0 16 == 0xFFFF || bits w 0 16 == p.src) && p.data.length ≤ bits w 32 13 &&
    (if p.coll then c.flags / 16 % 2 == 1 && bits w 48 3 == p.op else c.flags / 16 % 2 == 0)

/-- Two elements combined (R281): float sums round to nearest even, minima and maxima follow R157. -/
def combineElem (op x y : Nat) : Nat :=
  match op with
  | 0 => f32.add .rne x y
  | 1 => bf16.add .rne x y
  | 2 => (x + y) % 2 ^ 32
  | 3 => f32.max x y
  | _ => f32.min x y

/-- Bytes combined element by element. -/
def combineBytes (op : Nat) (old new : List Byte) : List Byte :=
  let n := combineSize op
  (List.range (new.length / n)).flatMap fun i =>
    leBytes n (combineElem op (leNat ((old.drop (n * i)).take n)) (leNat ((new.drop (n * i)).take n)))

/-- The pieces of a range that may be written, up to the first that fails: the places, a status with its DETAIL, or what a route does. The DETAIL of a token check is the
index of the 4 KiB block. -/
def deliverLocs (s : State) (b : Nat) (c : Cmd) (n : Nat) : List (Loc × Nat) × Nat × Nat × Option Fare :=
  (pieces 3 (c.word 0).toNat n).zipIdx.foldl (fun (a : List (Loc × Nat) × Nat × Nat × Option Fare) q =>
    if a.2.1 ≠ 0 ∨ a.2.2.2.isSome then a
    else match engPiece s b c .store (q.1.1 % 2 ^ 64) q.1.2 q.2 with
      | .error (.status code d) => (a.1, code, d, none)
      | .error (.hold i f) => (a.1, 0, 0, some (.held i f))
      | .error (.lost i) => (a.1, 0, 0, some (.held i (some (10, 0))))
      | .ok l => (a.1 ++ [(l, q.1.2)], 0, 0, none)) ([], 0, 0, none)

/-- The payload is written, or combined with the buffer element by element, up to the first block that fails (R281): the machine, its status, and whether a
route holds it. -/
def deliverData (s : State) (b : Nat) (c : Cmd) (p : Packet) : State × Nat × Nat × Option Fare :=
  let (ls, code, d, f) := deliverLocs s b c p.data.length
  if f.isSome then (s, 0, 0, f)
  else
    let n := (ls.map (·.2)).sum
    if p.coll then
      let (s, old, bad) := loadLocs s b c ls
      let m := n / combineSize p.op * combineSize p.op
      (storeLocs s b c (bad || p.bad) ls (combineBytes p.op (old.take m) (p.data.take m) ++ old.drop m), code, d, none)
    else (storeLocs s b c p.bad ls (p.data.take n), code, d, none)

/-- An earlier message on the same route and in the same class waits to be matched (R283). -/
def State.behindMessage (s : State) (n : Nat) (p : Packet) : Bool :=
  (s.packets.take n).any fun q => q.delivered && q.at_ == p.at_ && (q.kind == 5 || q.kind == 6) && q.ret == p.ret && q.cls == p.cls

/-- MESSAGE_ARRIVE: the oldest receive that matches takes the message, and both counters learn of it. -/
def messageArrive (s : State) (n : Nat) : State :=
  match s.packets[n]? with
  | none => s
  | some p =>
    match p.at_ with
    | .router b =>
      if !p.delivered || !(p.kind == 5 || p.kind == 6) || s.behindMessage n p then s
      else match (s.braid b).recvs.find? (recvMatches p) with
        | none => respond (s.dropPacket n) p 12 0
        | some c =>
          match deliverData s b c p with
          | (_, _, _, some f) => f.apply s b
          | (s, code, d, none) =>
            let s := s.modBraid b fun t => ({ t with recvs := t.recvs.filter fun r => r.seq != c.seq }).endSlabs c (code == 0)
            let s := acceptPass (s.bumpUnit b c.strand c.world c.evt code (if code = 0 then p.data.length else d)) b
            respond (s.dropPacket n) p code (if code = 0 then 0 else d)
    | _ => s

/-- REMOTE_EVENT_BUMP: the target strand's counter, where a unit of the world has its record in slot 0 (R282, R286). -/
def remoteBump (s : State) (n : Nat) : State :=
  match s.packets[n]? with
  | none => s
  | some p =>
    match p.at_ with
    | .router b =>
      if !p.delivered || p.kind != 7 then s
      else if s.hasUnit b p.strand p.world then
        respond ((s.modUnit b p.strand p.world fun t => { t with r := t.r.bumpOnly p.counter }).dropPacket n) p 0 0
      else respond (s.dropPacket n) p 12 0
    | _ => s

/-! Faults and timeouts of routes (R135, R137). -/

/-- FAULT_RETURN_ARRIVE: on a user route the command ends; an entry is suspended and keeps the request. -/
def faultReturnArrive (s : State) (n : Nat) : State :=
  match s.packets[n]? with
  | none => s
  | some p =>
    if !p.delivered || p.kind != 8 then s
    else
      let s := s.dropPacket n
      match s.ownerCmd p with
      | none => s
      | some (b, c) =>
        match c.entry with
        | none => endSent s b c 8 (p.fault * 128 + p.faultHop)
        | some i => settleRtset ((suspendEntry s b i p.fault p.faultHop).putCmd b { c with sent := false }) b

/-- A packet of a command is still in this device's network. -/
def State.inFlight (s : State) (b : Nat) (c : Cmd) : Bool :=
  s.packets.any fun p => p.owner == some (b, c.seq) && (match p.at_ with | .peer _ => false | _ => true)

def State.forget (s : State) (b : Nat) (c : Cmd) : State := { s with packets := s.packets.filter fun p => p.owner != some (b, c.seq) }

/-- Requests of a strand whose response was lost on an entry are held there. -/
def Strand.unlose (t : Strand) (n : Nat) : Strand := { t with sbd := t.sbd.map fun v => if v.req.any (·.1 == n) then { v with lost := false } else v }

/-- A strand has a request whose response is lost on an entry. -/
def Strand.lostOn (t : Strand) (n : Nat) : Bool := t.sbd.any fun v => v.lost && v.req.any (·.1 == n)

/-- RESPONSE_TIMEOUT: requests lost on entry n, whose response or fault return has not come, are kept, and the entry suspended with FAULT 10 (R135). -/
def responseTimeout (s : State) (b n : Nat) : State :=
  let cmds := (s.braid b).cmds.filter fun c => c.sent && c.op != 37 && c.entry == some n && !s.inFlight b c
  let xfer := fun (t : Xfer) => t.braid == b && t.entry == some n && t.lost
  if cmds.isEmpty && !(List.range 4).any (fun k => (s.strand b k).lostOn n) && !s.images.any (fun (m : Image) => m.braid == b && m.body.lostOn n) && !s.xfers.any xfer then s
  else
    let s := cmds.foldl (fun s c => (s.forget b c).putCmd b { c with sent := false }) (suspendEntry s b n 10 0)
    let s := (List.range 4).foldl (fun s k => if (s.strand b k).lostOn n then s.modStrand b k (·.unlose n) else s) s
    settleRtset { s with
      images := s.images.map fun (m : Image) => if m.braid = b then { m with body := m.body.unlose n } else m
      xfers := s.xfers.map fun t => if xfer t then { t with lost := false } else t } b

/-- SUSPEND_TIMEOUT: strands with a request or a token operation held on the entry trap at their next bundle; commands held on it end with RTIMEOUT (R135). A
freeze waits for them no longer. -/
def suspendTimeout (s : State) (b n : Nat) : State :=
  let t := s.braid b
  if !(t.rbOf n).susp || t.cmds.any (fun c => c.op == 37 && c.rtEntry == n) then s
  else
    let mark := fun (k w : Nat) (u : Strand) =>
      if u.sbd.any (fun v => v.req.any (·.1 == n)) || s.xfers.any (fun x => x.braid == b && x.strand == k && x.world == w && x.entry == some n) then
        { u with rtTimeout := some n } else u
    let live := fun k => recWorld (s.strand b k).slot0.bind
    let s := (List.range 4).foldl (fun s k => if (s.strand b k).slot0.live then s.modStrand b k (mark k (live k)) else s) s
    let s := { s with images := s.images.map fun (i : Image) => if i.braid = b then { i with body := mark i.strand i.world i.body } else i }
    let s := (t.cmds.filter fun c => c.entry == some n && !c.sent).foldl (fun s c =>
      if c.op = 64 then (s.modBraid b fun t => { t with cmds := t.cmds.filter fun d => d.seq != c.seq }).failUnit b c.strand c.world c.evt 9 n
      else endCmd s b c 9 n) s
    (List.range 4).foldl (fun s k => settleFreeze s b k) s

/-- USER_ROUTE_LOST: the command ends with status LOST. -/
def userRouteLost (s : State) (b n : Nat) : State :=
  match (s.braid b).cmds[n]? with
  | some c => if c.sent && c.op != 37 && c.entry.isNone && !s.inFlight b c then endSent (s.forget b c) b c 10 0 else s
  | none => s

/-! Links (R127, R132, R412). -/

/-- FLIT_CRC_FAIL: the flit is resent; the eighth failure in a row marks the link down with a map update. -/
def crcFail (s : State) (l : Nat) (ab : Bool) : State :=
  if 319 ≤ l then s
  else
    let r := s.link l
    if r.down then s
    else
      let n := (if ab then r.crcAB else r.crcBA) + 1
      if n < 8 then { s with links := Store.put s.links l (if ab then { r with crcAB := n } else { r with crcBA := n }) }
      else ({ s with links := Store.put s.links l { r with down := true, crcAB := 0, crcBA := 0 } }.mapChange).log 11 0xFF 0 0 l

/-- LINK_MARK_UP: with its ranks, rank BA being 255 - rank AB, and lane counts, which change only while it is down (R126). -/
def linkUp (s : State) (l rAB rBA nAB nBA : Nat) : State :=
  if 319 ≤ l || !(s.link l).down || rAB + rBA != 255 || nAB == 0 || 4 < nAB || nBA == 0 || 4 < nBA then s
  else { s with links := Store.put s.links l { rankAB := rAB, rankBA := rBA, lanesAB := nAB, lanesBA := nBA, down := false } }.mapChange

/-! Banks, domains, translations (R28, R69, R82, R83). -/

/-- The world under whose entry a line is written back: its token's (log 53, DESIGN CHOICE). -/
def State.lineWorld (s : State) (l : Nat) : Nat := match s.tokenAt l with | some t => t.world | none => 0

/-- BANK_SWITCH_DONE: the dirty lines of the bank are written back and its last line invalidated, none of them buffered (R52, R69). -/
def switchDone (s : State) (b n : Nat) : State :=
  match (s.braid b).bankSw.find? (·.bank == n) with
  | none => s
  | some w =>
    let inBank := fun (c : CLine) => c.bank == n
    if (s.braid b).cache.any fun c => inBank c && (c.arm.isSome || (c.dirty && fare s b (s.lineWorld c.line) c.line 1 != .sent)) then s
    else
      let s := s.flushLines b inBank
      let done := fun (v : Word) => if bits v 59 5 = n ∧ bits v 50 3 = 1 then BitVec.ofNat 64 (v.toNat / 2 ^ 53 * 2 ^ 53 + v.toNat % 2 ^ 50) else v
      let s := s.modBraid b fun t =>
        { (t.enterMode n w.mode) with bankSw := t.bankSw.filter (fun x => x.bank != n), bmReq := t.bmReq.map fun e => (e.1, done e.2) }
      match w.evt with
      | some (k, e) => s.modStrand b k fun t => { t with r := t.r.bumpOnly e }
      | none => s

/-- DOMAIN_WAKE_DONE: a domain that wakes is usable, the logic with every bank in CACHE mode and its state at reset values (R28). -/
def wakeDone (s : State) (b d : Nat) : State :=
  s.modBraid b fun t =>
    match d with
    | 0 => if t.logicWaking then { t.loseLogic with logicOn := true, logicWaking := false } else t
    | 1 => if t.bstWaking then { t with bst := [], bstTag := [], bstOn := true, bstWaking := false } else t
    | g => if t.fabWaking.getLsbD (g - 2) then { t with fabOn := setBit t.fabOn (g - 2) true, fabWaking := setBit t.fabWaking (g - 2) false } else t

/-- TLB_INV_GO (R82): the fields are written; a GO while an invalidation runs is ignored. -/
def tlbGo (s : State) (p : Nat) (v : Word) : State :=
  s.modPart p fun t =>
    let fields := bits v 16 47 * 65536
    let go := t.tlbInv.getLsbD 63 && v.getLsbD 0
    { t with
      tlbInv := BitVec.ofNat 64 (fields + (if t.tlbInv.getLsbD 63 && !go then 2 ^ 63 else 0))
      tlbRun := if go then BitVec.ofNat 64 fields else t.tlbRun }

/-- Log2 of the size of an invalidation (R82). -/
def invLog2 (v : Word) : Nat := let l := bits v 56 7; if l = 0 ∨ 47 < l then 48 else max l 16

/-- An address of a world lies in an invalidation's range; so does some address of a block of 2^g bytes. -/
def invHits (v : Word) (w va g : Nat) : Bool := let l := max (invLog2 v) g; w == bits v 48 8 && va / 2 ^ l == bits v 16 32 * 65536 / 2 ^ l

/-- Requests a strand's unit of a world holds in the range are translated afresh when they are sent (R82). -/
def Strand.afresh (t : Strand) (v : Word) (w : Nat) : Strand :=
  { t with
    mtlb := t.mtlb.filter fun e => !invHits v e.world (e.vpage * 65536) 16
    sbd := t.sbd.map fun u => { u with req := u.req.map fun r => if !r.2.slab && invHits v w r.2.va 0 then (r.1, { r.2 with afresh := true }) else r } }

/-- TLB_INV_DONE: no micro-TLB, braid TLB or walk cache of the partition's braids holds an entry of the range, and held accesses will translate afresh. -/
def tlbDone (s : State) (p : Nat) : State :=
  let v := (s.part p).tlbRun
  if (s.part p).tlbInv.getLsbD 63 then s
  else
    let s := (braidsOf p).foldl (fun s b =>
      let s := s.modBraid b fun t => { t with tlb := t.tlb.filter fun e => !invHits v e.world (e.vpage * 65536) 16 }
      (List.range 4).foldl (fun s k => s.modStrand b k fun t => t.afresh v (recWorld t.slot0.bind)) s) s
    let dies := (braidsOf p).map (· / 12)
    { s.modPart p fun t => { t with tlbInv := setBit t.tlbInv 63 true } with
      images := s.images.map fun (i : Image) => if i.part = p then { i with body := i.body.afresh v i.world } else i
      walkCache := s.walkCache.map fun e => if dies.contains e.1 then (e.1, e.2.filter fun w => !invHits v w.world (w.region * 2 ^ 21) 21) else e }

/-- PAGE_WALK_DONE: the translation is held, and the table the walk came to, or its fault stands for this bundle (R81, R83). -/
def walkDone (s : State) (b k : Nat) : State :=
  match (s.strand b k).hold with
  | some (.walk va) =>
    let w := recWorld (s.strand b k).slot0.bind
    let s' := match walk s b w va with
      | .ok e => (s.modBraid b (·.tlbAdd e)).modStrand b k (·.tlbAdd e)
      | .error _ => s.modStrand b k fun t => { t with walked := t.walked ++ [va / 65536] }
    let s' := match walkTable s w va 4 1 (bits (s.world w).ctx 12 40 * 4096) with
      | some t => s'.walkAdd b { world := w, region := va / 2 ^ 21, table := t }
      | none => s'
    s'.modStrand b k fun t => { t with hold := none }
  | _ => s

/-- INSTRUCTION_FETCH_MISS_DONE: the line is in the instruction cache (R63). -/
def fetchDone (s : State) (b k : Nat) : State :=
  match (s.strand b k).hold with
  | some (.fetch line) => (s.modBraid b (·.icAdd (line, recWorld (s.strand b k).slot0.bind))).modStrand b k fun t => { t with hold := none }
  | _ => s

end Sys2Proof.Machine
end

