-- ==== Sys2Proof/Machine/Worlds.lean ====
section
/-!
DEFINITION. Worlds and the host (R17, R360 to R388): TDISP states, assignment, host requests, command queues and the journal, host commands,
key installs, the declassify list, counter floors and reports, teardowns.
-/

namespace Sys2Proof.Machine

/-! TDISP and assignment (R361 to R363). -/

/-- Function numbers of virtual functions. -/
def isVf (w : Nat) : Bool := 1 ≤ w && w ≤ 192

/-- The four items of R361 are locked: writes of physical function 0 are ignored, in ERROR until the teardown is complete. -/
def State.locked (s : State) (w : Nat) : Bool :=
  w != 0 && match (s.world w).tdisp with
    | .unlocked => false
    | .error => (s.world w).tearing
    | _ => true

/-- Zeroise every key slot bound to a world, on every braid (R385). -/
def zeroiseWorld (s : State) (w : Nat) : State :=
  (List.range 96).foldl (fun s b =>
    let ms := (List.range 32).filter fun m => ((s.braid b).keyOf m).valid && ((s.braid b).keyOf m).world == w
    if ms.isEmpty then s else s.modBraid b fun t => ms.foldl Braid.zeroise t) s

/-- The partition of a function, where it is assigned (R17). -/
def State.partitionOf (s : State) (w : Nat) : Option Nat :=
  let a := (s.world w).partAssign
  if w ≠ 0 ∧ a.getLsbD 7 then some (a.toNat % 16) else none

/-- A teardown starts on a command or on ERROR (R385): every job of the world is cancelled and its key slots are zeroised. -/
def startTeardown (s : State) (w : Nat) : State :=
  if (s.world w).tearing then s
  else
    let s := s.modWorld w (·.beginTeardown false)
    let s := match s.partitionOf w with
      | some p =>
        let jobs := ((s.part p).level.filter fun e => lvKind e.2 == 4 && lvWorld e.2 == w && lvLive e.2).map (·.1)
        s.level p (jobs.map .cancel)
      | none => s
    zeroiseWorld s w

/-- TDISP_LOCK: three conditions, else an error answer (R361). The log of measurements and the list of braids start anew (R381, R385). -/
def tdispLock (s : State) (w : Nat) (ide : Bool) : State :=
  let t := s.world w
  if isVf w && t.tdisp == .unlocked && ide && !t.tearing && !(s.finalReports.any fun r => r.1 == w) then
    s.setWorld w { t with tdisp := .locked, phase := 0, boundOn := [], meas := [], mchain := 0 }
  else s

/-- Entry to RUN: the thimble core generates the world's context key (R361). -/
def tdispRun (s : State) (w : Nat) : State :=
  if isVf w && (s.world w).tdisp == .locked then
    { s.modWorld w fun t => { t with tdisp := .run, ctxKey := some (Config.contextKey s.freeCtr) } with freeCtr := s.freeCtr + 1 }
  else s

/-- TDISP_ERROR: teardown starts at once (R361). -/
def tdispError (s : State) (w : Nat) : State :=
  if isVf w && ((s.world w).tdisp == .locked || (s.world w).tdisp == .run) then startTeardown (s.modWorld w fun t => { t with tdisp := .error }) w else s

/-- TDISP_UNLOCK: out of ERROR only once its teardown is complete (R361). -/
def tdispUnlock (s : State) (w : Nat) : State :=
  let t := s.world w
  if isVf w && t.tdisp != .unlocked && !(t.tdisp == .error && t.tearing) then s.setWorld w { t with tdisp := .unlocked } else s

/-- IDE_INTEGRITY_FAIL: the data is dropped; a protected world's function enters ERROR (R366). -/
def ideFail (s : State) (w : Nat) : State := if s.isProtected w then tdispError s w else s

/-- A write of PART_ASSIGN is refused (R362). -/
def assignRefused (s : State) (w : Nat) (v : BitVec 8) : Bool :=
  11 < v.toNat % 16 || s.locked w || (s.world w).tearing ||
    (List.range 12).any (fun p => s.worldInPart p w) || s.tokens.any (·.world == w) ||
    (List.range 96).any (fun b => (List.range 32).any fun m => ((s.braid b).keyOf m).valid && ((s.braid b).keyOf m).world == w) ||
    (v.getLsbD 7 && s.partitionOf w != some (v.toNat % 16) &&
      16 ≤ ((List.range 193).filter fun u => s.partitionOf u == some (v.toNat % 16)).length)

/-- PART_ASSIGN_WRITE (R362): a refusal is counted. -/
def writeAssign (s : State) (w : Nat) (v : BitVec 8) : State :=
  if !isVf w then s
  else if assignRefused s w v then { s with partRefused := s.partRefused + 1 }
  else s.modWorld w fun t => { t with partAssign := BitVec.ofNat 8 (v.toNat / 128 * 128 + v.toNat % 16), phase := 0 }

/-! Host requests (R365, R366). -/

/-- The function's host agent holds the byte's token (R87, R94, R366). -/
def hostCheck (s : State) (w pa : Nat) (write : Bool) : Option Nat :=
  match s.tokenAt pa with
  | none => some 2
  | some t =>
    if t.holder ≠ hostAgent s.device ∨ t.world ≠ w then some 2
    else if write && t.mode != 0 then some 3
    else if t.dmg then some 4 else none

/-- A range of a world's addresses as its host agent reaches it: physical pieces, or status and fault of the first failure. -/
def hostRange (s : State) (w va n : Nat) (write : Bool) : Except (Nat × Nat) (List (Nat × Nat)) :=
  (pieces (n / 4096 + 2) va n).mapM fun p =>
    if p.1 / 2 ^ 48 ≠ 0 then .error (1, 2)
    else match walkPlain s w p.1 with
      | .error f => .error (1, f)
      | .ok e =>
        match (if write then writeFault e else none) with
        | some f => .error (1, f)
        | none =>
          match (if !write && e.isSealed then none else hostCheck s w (e.pa p.1) write) with
          | some c => .error (c, 0)
          | none => .ok (e.pa p.1, p.2)

/-- A write at the home of its bytes: a host request, a journal entry, a report (R366, R372). -/
def State.homeWrite (s : State) (pa : Nat) (vs : List Byte) : State :=
  (cacheLines pa vs.length).foldl (fun s l => s.homeTouch l true []) ((s.writeN pa vs).markWrite false pa vs.length)

def writePieces (s : State) : List (Nat × Nat) → List Byte → State
  | [], _ => s
  | (pa, n) :: t, vs => writePieces (s.homeWrite pa (vs.take n)) t (vs.drop n)

/-- A host request finds its home slice by the route the host port builds (R121); one that a fault stops has no effect (log 56, DESIGN CHOICE). -/
def hostReaches (s : State) (w pa : Nat) : Bool :=
  !isDevMem pa || walkRoute s { mkPacket s 0 0 (homeRoute (homeSlice pa)) (s.device * 256 + 96 + homeSlice pa) w 1 0 with
    src := s.device * 256 + 104, at_ := .host } == .ok

/-- HOST_MEMORY_REQUEST: BAR2 of a virtual function, or CXL.mem as world 0; a request that fails a check is counted and has no effect. -/
def hostRequest (s : State) (fn : Nat) (cxlMem : Bool) (addr len : Nat) (data : Option (List Byte)) : State :=
  let n := match data with | some d => d.length | none => len
  let w := if cxlMem then 0 else fn
  let deny := s.modWorld w fun t => { t with deny := t.deny + 1 }
  if !cxlMem && !isVf fn then s
  else
    let r : Except (Nat × Nat) (List (Nat × Nat)) :=
      if cxlMem then (pieces (n / 4096 + 2) addr n).mapM fun p =>
        if !isDevMem (p.1 + p.2 - 1) then .error (1, 0) else match hostCheck s 0 p.1 data.isSome with | some c => .error (c, 0) | none => .ok p
      else hostRange s w addr n data.isSome
    match r, data with
    | .error _, _ => deny
    | .ok _, none => s
    | .ok ps, some d => if ps.all fun p => hostReaches s w p.1 then writePieces s ps d else s

/-! Queues and the journal (R367 to R372). -/

def qSize (v : Word) : Nat := 2 ^ (bits v 0 4 + 4)
def qBase (v : Word) : Nat := bits v 16 36 * 65536

/-- QCFG_WRITE, of QCFG or JCFG. -/
def writeQcfg (s : State) (w : Nat) (journal : Bool) (v : Word) : State :=
  if 192 < w then s
  else
    let s := if journal then s else s.modWorld w fun t => { t with qerr := false }
    let t := s.world w
    if t.qhead ≠ t.qtail ∨ s.locked w ∨ 8 < bits v 0 4 then s
    else
      let u := BitVec.ofNat 64 (bits v 16 36 * 65536 + bits v 0 4)
      s.setWorld w (if journal then { t with jcfg := u } else { t with qcfg := u })

/-- A ring lies under tokens of the function's host agent (R368). -/
def ringHeld (s : State) (w : Nat) (v : Word) : Bool :=
  (List.range ((qSize v * 64 + 4095) / 4096)).all fun i => (hostCheck s w (qBase v + 4096 * i) true).isNone

/-- A journal entry (R372). -/
def journalEntry (c : HostCmd) (state status detail : Nat) : Rec :=
  BitVec.ofNat 512 (c.seq % 2 ^ 64 * 2 ^ 448 + c.entry.toNat % 2 ^ 320 * 2 ^ 128 + detail % 2 ^ 32 * 2 ^ 96 + status % 256 * 2 ^ 88 + state * 2 ^ 80 +
    c.qindex % 65536 * 2 ^ 64)

def writeJournal (s : State) (w : Nat) (c : HostCmd) (state status detail : Nat) : State :=
  let v := (s.world w).jcfg
  s.homeWrite (qBase v + 64 * (c.seq % qSize v)) (leBytes 64 (journalEntry c state status detail).toNat)

def cmdOp (e : Rec) : Nat := bits e 0 8
def cmdWorld (e : Rec) : Nat := bits e 16 8
def cmdArg (e : Rec) (i : Nat) : Nat := bits e (64 + 64 * i) 64

/-- A malformed command (R370). -/
def cmdBad (e : Rec) : Bool :=
  cmdOp e == 0 || 6 < cmdOp e || bits e 8 8 != 0 || bits e 24 8 != 0 || bits e 256 256 != 0 ||
    (match cmdOp e with
      | 1 => cmdArg e 0 % 64 != 0 || cmdArg e 1 / 2 ^ 24 != 0
      | 2 => cmdArg e 1 / 2 ^ 32 != 0 || cmdArg e 1 % 256 / 64 != 0 || cmdArg e 2 / 16 != 0
      | 3 => cmdArg e 0 / 2 ^ 12 != 0
      | 4 => cmdArg e 0 / 2 ^ 12 != 0
      | 5 => cmdArg e 0 / 2 ^ 13 != 0
      | _ => false)

/-- One entry is taken from the queue: its journal entry is written with STATE 1; a malformed command ends BADCMD. -/
def takeEntry (s : State) (w : Nat) : State :=
  let t := s.world w
  let e := BitVec.ofNat 512 (s.readLE (qBase t.qcfg + 64 * t.qhead) 64)
  let c : HostCmd := { seq := t.jseq, entry := e, qindex := t.qhead, begun := cmdBad e, result := if cmdBad e then some (1, 0) else none }
  writeJournal (s.setWorld w { t with qhead := (t.qhead + 1) % qSize t.qcfg, jseq := t.jseq + 1, cmds := t.cmds ++ [c] }) w c 1 0 0

def takeEntries (w : Nat) : Nat → State → State
  | 0, s => s
  | n + 1, s => if (s.world w).qhead = (s.world w).qtail then s else takeEntries w n (takeEntry s w)

/-- QTAIL_WRITE, the notify (R367, R368). -/
def writeQtail (s : State) (w : Nat) (v : Word) : State :=
  let t := s.world w
  if 192 < w ∨ qSize t.qcfg ≤ bits v 0 12 then s
  else
    let s := s.setWorld w { t with qtail := bits v 0 12 }
    if t.qerr then s
    else if !(ringHeld s w t.qcfg && ringHeld s w t.jcfg) then s.modWorld w fun t => { t with qerr := true }
    else takeEntries w (qSize t.qcfg) s

/-! Host commands (R370, R371). -/

def State.modCmd (s : State) (w seq : Nat) (f : HostCmd → HostCmd) : State :=
  s.modWorld w fun t => { t with cmds := t.cmds.map fun c => if c.seq = seq then f c else c }

/-- The command may begin: in queue order; QUIESCE, RESUME and TEARDOWN once every earlier one has completed (R368). -/
def mayBegin (s : State) (w op seq : Nat) : Option HostCmd :=
  let cs := (s.world w).cmds
  match cs.find? (·.seq == seq) with
  | none => none
  | some c =>
    let earlier := cs.filter (·.seq < seq)
    if c.begun || cmdOp c.entry != op || earlier.any (!·.begun) || ((op == 3 || op == 4 || op == 6) && !earlier.isEmpty) then none else some c

/-- The world a command names may not be named, or is in teardown (R369, R385). -/
def cmdDenied (s : State) (w : Nat) (e : Rec) : Bool :=
  let v := cmdWorld e
  let may := v == w || (w == 0 && v ≤ 192 && (cmdOp e == 5 || (cmdOp e == 6 && v != 0)))
  !may || 192 < v || (cmdOp e == 6 && v == 0) || (cmdOp e != 5 && (s.world v).tearing)

/-- A command begins; `run` answers its outcome, or none where it completes later. -/
def beginCmd (s : State) (w op seq : Nat) (run : State → Rec → State × Option (Nat × Nat)) : State :=
  match mayBegin s w op seq with
  | none => s
  | some c =>
    let (s, r) := if cmdDenied s w c.entry then (s, some (2, 0)) else run s c.entry
    s.modCmd w seq fun c => { c with begun := true, result := r }

/-- LAUNCH: a job holding one phase, holding one graph, holding the launch. The descriptor's address is one of the command's (R369, R371). -/
def runLaunch (s : State) (e : Rec) : State × Option (Nat × Nat) :=
  let w := cmdWorld e
  match s.partitionOf w with
  | none => (s, some (2, 0))
  | some p =>
    let b := (braidsOf p).headD 0
    match hostRange s w (cmdArg e 0) 64 false with
    | .error (c, f) => (s, some (4, 256 * c + f))
    | .ok ps =>
      let d := s.readLE (ps.headD (0, 0)).1 64
      if launchBad d || (1 < d / 2 ^ 64 % 2 ^ 24 && launchLends s b w d) then (s, some (1, 0))
      else match (s.part p).freeLevels 4 with
        | [j, ph, g, l] =>
          let s := s.modLv p j fun _ => mkLevel 4 1 j w 1 (BitVec.ofNat 24 (cmdArg e 1))
          let s := s.modLv p ph fun _ => mkLevel 3 1 j w 1 0
          let s := s.modLv p g fun _ => mkLevel 2 1 ph w 0 0
          (addLaunch s p l g w (d / 2 ^ 64 % 2 ^ 24), some (0, g * 4096 + j))
        | _ => (s, some (3, 0))

/-- GIVE: a TGIVE by the host agent. -/
def runGive (s : State) (e : Rec) : State × Option (Nat × Nat) :=
  let w := cmdWorld e
  let va := cmdArg e 0
  match (if va / 2 ^ 48 ≠ 0 then .error 2 else walkPlain s w va) with
  | .error f => (s, some (4, 0x100 + f))
  | .ok t =>
    let (c, s') := tokenRun s { op := 11, issuer := hostAgent s.device, world := w, base := t.pa va, log2 := cmdArg e 1 % 64,
                                agent := BitVec.ofNat 24 (cmdArg e 1 / 256), evt := cmdArg e 2 % 16 }
    (s', some (if c = 0 then (0, 0) else (4, c)))

/-- The job a QUIESCE or RESUME names: an outcome where it cannot be named. -/
def jobStatus (s : State) (w j : Nat) : Option (Nat × Nat) :=
  if j = 0xFFF then none
  else match s.partitionOf w with
    | none => some (2, 0)
    | some p =>
      let e := s.lv p j
      if lvKind e = 4 ∧ lvWorld e = w then (if lvLive e then none else some (5, 0)) else some (1, 0)

/-- Strands with a unit of the world's named jobs in slot 0. -/
def jobUnits (s : State) (w j : Nat) : List (Nat × Nat) :=
  match s.partitionOf w with
  | none => []
  | some p => (braidsOf p).flatMap fun b => ((List.range 4).filter fun k =>
      let z := s.slotOf b k 0
      z.st != .empty && recWorld z.bind == w && (j == 0xFFF || s.jobOf p (recLaunch z.bind) == j)).map fun k => (b, k)

/-- QUIESCE: the units are pre-empted; the command completes when all are frozen. -/
def runQuiesce (s : State) (e : Rec) : State × Option (Nat × Nat) :=
  let w := cmdWorld e
  let j := cmdArg e 0
  match jobStatus s w j with
  | some r => (s, some r)
  | none =>
    let s := s.modWorld w fun t => { t with quiesced := if t.quiesced.contains j then t.quiesced else t.quiesced ++ [j] }
    ((jobUnits s w j).foldl (fun s u => preempt s u.1 u.2 0) s, none)

/-- The units a QUIESCE named are all frozen. -/
def quiesceDone (s : State) (e : Rec) : Bool :=
  (jobUnits s (cmdWorld e) (cmdArg e 0)).all fun u => (s.slotOf u.1 u.2 0).st != .running

/-- RESUME: the quiesced units run on. -/
def runResume (s : State) (e : Rec) : State × Option (Nat × Nat) :=
  let w := cmdWorld e
  let j := cmdArg e 0
  match jobStatus s w j with
  | some r => (s, some r)
  | none =>
    let units := (jobUnits s w j).filter fun u => s.isQuiesced (partOf u.1) (s.slotOf u.1 u.2 0) && (s.slotOf u.1 u.2 0).resumes
    let s := s.modWorld w fun t => { t with quiesced := if j = 0xFFF then [] else t.quiesced.filter (· != j) }
    (units.foldl (fun s u => resumeSlot s u.1 u.2 0) s, some (0, 0))

/-! Reports (R377 to R382). -/

/-- A list of bytes as a number, its first byte the most significant. -/
def digestOf (bs : List Byte) : BitVec 384 := sha384 bs

/-- Bytes 0 to 927 of a report (R380). -/
def reportBody (s : State) (w seq : Nat) (q : Pair) (flags nonce : Nat) : List Byte :=
  let t := s.world w
  let last := t.meas.drop (t.meas.length - 12)
  leBytes 4 0x52455054 ++ leBytes 2 1 ++ leBytes 1 w ++ leBytes 1 flags ++ leBytes 8 seq ++ leBytes 8 q.id ++ leBytes 2 q.region ++ leBytes 6 0 ++
    leBytes 8 q.loads ++ leBytes 8 q.steps ++ leBytes 8 q.floorLoads ++ leBytes 8 q.floorSteps ++ leBytes 8 nonce ++ leBytes 8 0 ++
    beBytes 48 Config.deviceId.toNat ++ beBytes 48 (Config.configDigest s.cfgVersion).toNat ++ beBytes 48 t.mchain.toNat ++ leBytes 8 t.meas.length ++
    leBytes 24 0 ++ (last.flatMap fun m => beBytes 48 m.toNat) ++ List.replicate (576 - 48 * last.length) 0 ++ List.replicate 96 0

/-- A signed report, and the machine with its sequence number taken (R379). -/
def makeReport (s : State) (w : Nat) (q : Pair) (final torn : Bool) (nonce : Nat) : List Byte × State :=
  let flags := bit final + 2 * bit q.floorFlag + 4 * bit torn
  let body := reportBody s w s.reportSeq q flags nonce
  let sig := Config.signature (digestOf body).toNat
  (body ++ beBytes 96 sig.toNat, { s with reportSeq := s.reportSeq + 1 })

def retire (s : State) (w r : Nat) : State := { s with pairs := s.pairs.filter fun p => !(p.world == w && p.region == r) }

/-- The key slots of a world and region are zeroised on every braid (R382). -/
def zeroiseRegion (s : State) (w r : Nat) : State :=
  (List.range 96).foldl (fun s b =>
    let ms := (List.range 32).filter fun m => let k := (s.braid b).keyOf m; k.valid && k.world == w && k.region == r
    if ms.isEmpty then s else s.modBraid b fun t => ms.foldl Braid.zeroise t) s

/-- REPORT: a signed report in the buffer; with FINAL the pair is retired, and physical function 0 fetches a report stored at a teardown. -/
def runReport (fn : Nat) (s : State) (e : Rec) : State × Option (Nat × Nat) :=
  let w := cmdWorld e
  let r := cmdArg e 0 % 4096
  let final := cmdArg e 0 / 4096 % 2 == 1
  let stored := if fn = 0 ∧ final then s.finalReports.find? fun x => x.1 == w && x.2.1 == r else none
  if stored.isNone && (s.pair w r).isNone then (s, some (4, 1))
  else match hostRange s fn (cmdArg e 1) 1024 true with
    | .error (c, f) => (s, some (4, 256 * c + f))
    | .ok ps =>
      match stored with
      | some x => ({ writePieces s ps x.2.2 with finalReports := s.finalReports.filter fun y => !(y.1 == w && y.2.1 == r) }, some (0, 0))
      | none =>
        let s := if final then zeroiseRegion s w r else s
        match s.pair w r with
        | none => (s, some (4, 1))
        | some q =>
          let (bs, s) := makeReport s w q final false (cmdArg e 2)
          let s := if final then retire s w r else s.modPair w r fun p => { p with floorFlag := false }
          (writePieces s ps bs, some (0, 0))

/-- TEARDOWN: it completes at PHASE 3. -/
def runTeardown (s : State) (e : Rec) : State × Option (Nat × Nat) := (startTeardown s (cmdWorld e), none)

/-- COMMAND_COMPLETE: the journal entry with STATE 2, then vector 0 (R368). -/
def completeCmd (s : State) (w seq : Nat) : State :=
  match (s.world w).cmds.find? (·.seq == seq) with
  | none => s
  | some c =>
    let r := match c.result with
      | some r => some r
      | none =>
        if !c.begun then none
        else if cmdOp c.entry = 3 then (if quiesceDone s c.entry then some (0, 0) else none)
        else if cmdOp c.entry = 6 then (if (s.world (cmdWorld c.entry)).phase = 3 then some (0, 0) else none)
        else none
    match r with
    | none => s
    | some (st, d) =>
      (writeJournal s w c 2 st d).modWorld w fun t => { t with cmds := t.cmds.filter (·.seq != seq), vectors := t.vectors ++ [0] }

/-! Keys, the declassify list, floors (R375, R376, R378). -/

/-- The floors of a new pair (log 32). -/
def firstFloor : Nat := 2 ^ 24

/-- Braids a mask names. -/
def maskBraids (m : BitVec 96) : List Nat := (List.range 96).filter m.getLsbD

/-- The lowest key slot with VALID 0. -/
def Braid.freeKey (t : Braid) : Option Nat := (List.range 32).find? fun m => !(t.keyOf m).valid

/-- KEY_INSTALL: refused whole, or written on every named braid. One whose logic is gated has no free slot (log 58, DESIGN CHOICE). -/
def installKey (s : State) (w r : Nat) (m : BitVec 96) (key : BitVec 256) : State :=
  let bs := maskBraids m
  let new := (s.pair w r).isNone
  if !isVf w || 4095 < r || (s.world w).tdisp != .run || bs.any (fun b => s.partitionOf w != some (partOf b)) || bs.any (fun b => !(s.braid b).logicOn || (s.braid b).freeKey.isNone) ||
      bs.any (fun b => (List.range 32).any fun j => let k := (s.braid b).keyOf j; k.valid && k.world == w && k.region == r) ||
      (new && 16384 ≤ s.pairs.length) then s
  else
    let s := bs.foldl (fun s b => s.modBraid b fun t =>
      match t.freeKey with
      | some j => { t with keys := Store.put t.keys j { valid := true, key := key, region := r, world := w } }
      | none => t) s
    if new then { s with pairs := s.pairs ++ [{ world := w, region := r, id := s.counterId, loads := 0, steps := 0, floorLoads := firstFloor,
                                                floorSteps := firstFloor, floorFlag := false }], counterId := s.counterId + 1 }
    else s

def addDeclass (s : State) (w base l : Nat) : State :=
  if l < 16 ∨ 30 < l ∨ base % 2 ^ l ≠ 0 ∨ 4096 ≤ s.declass.length ∨ s.declass.contains (w, base, l) then s else { s with declass := s.declass ++ [(w, base, l)] }

def dropDeclass (s : State) (w base l : Nat) : State := { s with declass := s.declass.filter (· != (w, base, l)) }

/-- FLOOR_RAISE_DONE: floors that the next addition would pass are in flash, raised by enough multiples of 2^24 (R378). -/
def raiseFloor (s : State) (w r : Nat) : State :=
  s.modPair w r fun p => { p with floorLoads := if p.floorLoads < p.loads + 50688 then p.floorLoads + 2 ^ 24 else p.floorLoads
                                  floorSteps := if p.floorSteps < p.steps + 16 then p.floorSteps + 2 ^ 24 else p.floorSteps }

/-! Teardown (R384 to R388). -/

/-- A byte range cut into aligned powers of two of at least 4 KiB that miss the rings. -/
def cutRange (rings : List (Nat × Nat)) : Nat → Nat → List (Nat × Nat)
  | l, base =>
    if rings.all fun r => r.1 + r.2 ≤ base || base + 2 ^ l ≤ r.1 then [(base, l)]
    else match l with
      | 0 => []
      | n + 1 => if n < 12 then [] else cutRange rings n base ++ cutRange rings n (base + 2 ^ n)

/-- The rings of a function. -/
def World.rings (t : World) : List (Nat × Nat) :=
  ([t.qcfg, t.jcfg].filter (· != 0)).map fun v => (qBase v, qSize v * 64)

/-- Each live pair of the world is retired with FINAL and TORN, its report stored (R382). -/
def retireAll (s : State) (w : Nat) : State :=
  (s.pairs.filter (·.world == w)).foldl (fun s q =>
    let (bs, s) := makeReport s w q true true 0
    { retire s w q.region with finalReports := s.finalReports ++ [(w, q.region, bs)] }) s

/-- TEARDOWN_PHASE2: no record of the world is left and no key slot is bound to it; the scrub list is fixed. -/
def phase2 (s : State) (w : Nat) : State :=
  let t := s.world w
  if t.phase ≠ 1 ∨ (List.range 12).any (fun p => s.worldInPart p w) ∨
      (List.range 96).any (fun b => (List.range 32).any fun m => ((s.braid b).keyOf m).valid && ((s.braid b).keyOf m).world == w) then s
  else
    let ranges := (s.tokens.filter (·.world == w)).flatMap fun k => cutRange t.rings k.log2 k.base
    retireAll (s.setWorld w { t with phase := 2, listBraids := t.boundOn, doneBraids := [], listRanges := ranges, doneGranules := [] }) w

/-- Bytes of a range read zero, whatever a cache held of them, and lose their marks of poison. -/
def State.zeroRange (s : State) (base n : Nat) : State := { s with mem := s.mem.filter fun c => !(base ≤ c.1 && c.1 < base + n) }.forgetRange base n

/-- Every granule of the list is done. -/
def World.scrubbed (t : World) : Bool := (t.listBraids.all t.doneBraids.contains) && t.nextGranule.isNone

/-- A token of the world that its teardown deletes: one clear of the rings (R385). -/
def tornToken (t : World) (w : Nat) (k : Token) : Bool :=
  k.world == w && t.rings.all fun r => r.1 + r.2 ≤ k.base || k.base + 2 ^ k.log2 ≤ r.1

/-- TEARDOWN_PHASE3: every item is scrubbed, by the thimble core itself where a command or ERROR started it; the listed tokens are deleted and
vector 2 is raised. -/
def phase3 (s : State) (w : Nat) : State :=
  let t := s.world w
  if t.phase ≠ 2 ∨ (t.byUnit ∧ !t.scrubbed) then s
  else
    let s := if t.byUnit then s
      else t.listRanges.foldl (fun s r => s.zeroRange r.1 (2 ^ r.2)) (t.listBraids.foldl (fun s b => scrubBraid s w b) s)
    let gone := s.tokens.filter (tornToken t w)
    let left := fun (h : Held) => !gone.any fun k => k.base == h.base && k.log2 == h.log2
    let s := { s with
      tokens := s.tokens.filter fun k => !tornToken t w k
      images := s.images.map fun (i : Image) => { i with held := i.held.filter left } }
    let s := (List.range 96).foldl (fun s b =>
      if (s.braid b).held.all left then s else s.modBraid b fun br => { br with held := br.held.filter left }) s
    s.modWorld w fun t => { t with phase := 3, vectors := t.vectors ++ [2] }

end Sys2Proof.Machine
end

