-- ==== Sys2Proof/Machine/Loader.lean ====
section
/-!
DEFINITION. Aidin objects and the translation cache (R200, R207 to R213, R381): tables, selectors, relocations, the loader, and the placing of a
translated region. What the object format leaves open (texts end at a zero byte, the layout of sections in memory, the section a relocation
patches) is fixed in log 33.
-/

namespace Sys2Proof.Machine

/-! Reading an object (R207, R208). -/

/-- A little-endian field of n bytes; none past the end. -/
def objLE (o : List Byte) (off n : Nat) : Option Nat := if off + n ≤ o.length then some (leNat ((o.drop off).take n)) else none

/-- A section (R207). -/
structure Section where
  foff : Nat
  size : Nat
  kind : Nat
  align : Nat
  deriving DecidableEq, Repr

/-- A variant (R208). -/
structure Variant where
  patterns : Nat
  slabs : Nat
  relocs : Nat
  liveMap : Nat
  native : Nat
  dense : Nat
  entry : Nat
  select : Nat
  deriving DecidableEq, Repr

/-- A relocation (R211). -/
structure Reloc where
  off : Nat
  type : Nat
  target : Nat
  anchor : Nat
  addend : Int
  deriving DecidableEq, Repr

/-- An object's tables. -/
structure Object where
  sections : List Section
  variants : List Variant
  sigOff : Nat
  strTab : Nat
  deriving DecidableEq, Repr

def noSection : Nat := 0xFFFFFFFF

def readSection (o : List Byte) (at_ : Nat) : Option Section :=
  (objLE o at_ 32).bind fun e =>
    let s : Section := { foff := e / 2 ^ 192, size := e / 2 ^ 128 % 2 ^ 64, kind := e / 2 ^ 120 % 256, align := e / 2 ^ 112 % 256 }
    if s.foff + s.size ≤ o.length ∧ s.kind ≤ 7 ∧ s.align ≤ 47 ∧ (s.kind = 1 → s.align = 16) then some s else none

/-- An index that names a section of a kind; an optional one may be absent. -/
def kindIs (ss : List Section) (i kind : Nat) (opt : Bool) : Bool :=
  (opt && i == noSection) || (match ss[i]? with | some s => s.kind == kind | none => false)

def readVariant (o : List Byte) (ss : List Section) (at_ : Nat) : Option Variant :=
  (objLE o at_ 64).bind fun e =>
    let f (lo : Nat) : Nat := e / 2 ^ lo % 2 ^ 32
    let v : Variant := { patterns := f 320, slabs := f 288, relocs := f 256, liveMap := f 224, native := f 192, dense := f 160, entry := f 128, select := f 32 }
    let size := ((ss[v.dense]?).map (·.size)).getD 0
    if kindIs ss v.dense 0 false && kindIs ss v.native 1 true && kindIs ss v.liveMap 4 false && kindIs ss v.relocs 5 false && kindIs ss v.slabs 6 true &&
        kindIs ss v.patterns 7 true && v.entry % 4 == 0 && decide (16 ≤ v.entry) && decide (v.entry < size) then some v else none

/-- The tables of an object that is not malformed. -/
def readObject (o : List Byte) : Option Object :=
  (objLE o 0 64).bind fun h =>
    let at_ (lo : Nat) : Nat := h / 2 ^ lo % 2 ^ 64
    let nv := h / 2 ^ 48 % 65536
    if h % 2 ^ 32 ≠ 0x4E444941 ∨ h / 2 ^ 32 % 65536 ≠ 1 ∨ nv = 0 ∨ o.length < at_ 320 + 193 then none
    else
      ((List.range (h / 2 ^ 64 % 2 ^ 32)).mapM fun i => readSection o (at_ 128 + 32 * i)).bind fun ss =>
        ((List.range nv).mapM fun i => readVariant o ss (at_ 192 + 64 * i)).map fun vs =>
          { sections := ss, variants := vs, sigOff := at_ 320, strTab := at_ 256 }

/-- A text of the string table: bytes up to a zero. -/
def textAt (o : List Byte) (off : Nat) : Option (List Nat) :=
  let bs := (o.drop off).map BitVec.toNat
  if bs.contains 0 then some (bs.takeWhile (· != 0)) else none

/-! Selectors (R209). -/

inductive Tok where
  | int (n : Int)
  | name (s : List Nat)
  | sym (a b : Nat)
  deriving DecidableEq, Repr

def isDigit (c : Nat) : Bool := 48 ≤ c && c ≤ 57
def isLetter (c : Nat) : Bool := (97 ≤ c && c ≤ 122) || (65 ≤ c && c ≤ 90) || c == 95
def hexVal (c : Nat) : Option Nat :=
  if isDigit c then some (c - 48) else if 97 ≤ c && c ≤ 102 then some (c - 87) else if 65 ≤ c && c ≤ 70 then some (c - 55) else none

/-- The value of digits of a radix; underscores group them. -/
def digits (radix : Nat) (ds : List Nat) : Option Nat :=
  let ds := ds.filter (· != 95)
  if ds.isEmpty then none
  else ds.foldlM (fun a c => (hexVal c).bind fun v => if v < radix then some (a * radix + v) else none) 0

def intOf (cs : List Nat) : Option Int :=
  (match cs with
    | 48 :: 120 :: r => digits 16 r
    | 48 :: 98 :: r => digits 2 r
    | r => digits 10 r).map Int.ofNat

/-- The tokens of a selector. -/
def tokens : Nat → List Nat → Option (List Tok)
  | 0, _ => none
  | _ + 1, [] => some []
  | n + 1, c :: cs =>
    if c = 32 ∨ c = 9 then tokens n cs
    else if isLetter c || isDigit c then
      let w := (c :: cs).takeWhile fun d => isLetter d || isDigit d
      let rest := (c :: cs).drop w.length
      (if isDigit c then (intOf w).map Tok.int else some (.name w)).bind fun t => (tokens n rest).map (t :: ·)
    else match c, cs with
      | 45, d :: _ =>
        if isDigit d then
          let w := cs.takeWhile fun d => isLetter d || isDigit d
          (intOf w).bind fun v => (tokens n (cs.drop w.length)).map (Tok.int (-v) :: ·)
        else none
      | 61, 61 :: r => (tokens n r).map (Tok.sym 61 61 :: ·)
      | 33, 61 :: r => (tokens n r).map (Tok.sym 33 61 :: ·)
      | 60, 61 :: r => (tokens n r).map (Tok.sym 60 61 :: ·)
      | 62, 61 :: r => (tokens n r).map (Tok.sym 62 61 :: ·)
      | 60, r => (tokens n r).map (Tok.sym 60 0 :: ·)
      | 62, r => (tokens n r).map (Tok.sym 62 0 :: ·)
      | 40, r => (tokens n r).map (Tok.sym 40 0 :: ·)
      | 41, r => (tokens n r).map (Tok.sym 41 0 :: ·)
      | _, _ => none

def text (s : String) : List Nat := s.toList.map Char.toNat

/-- The compare a symbol names. -/
def compareOf (a b : Nat) (x y : Int) : Option Bool :=
  match a, b with
  | 61, 61 => some (x == y)
  | 33, 61 => some (x != y)
  | 60, 0 => some (decide (x < y))
  | 60, 61 => some (decide (x ≤ y))
  | 62, 0 => some (decide (y < x))
  | 62, 61 => some (decide (y ≤ x))
  | _, _ => none

/-- The features of R183 by bit. -/
def featureNames : List (List Nat) := ["fabric", "sfn", "vfifo", "coll", "msg", "speculate", "amofadd", "shuffle", "vpart", "mcnt"].map text

/-- Braids of a partition in service. -/
def State.compute (s : State) (p : Nat) : List Nat := (braidsOf p).filter fun b => (s.braid b).status == 0

/-- The converter id is installed on a braid (R394). -/
def Braid.hasConverter (t : Braid) (c : Nat) : Bool :=
  (List.range 96).any fun i => let v := Store.get t.blocks i 0; bits v 28 4 == 3 && bits v 0 8 / 2 == (128 + c) / 2

/-- A quantity without an argument (R209). -/
def quantity (s : State) (p : Nat) (q : List Nat) : Option Int :=
  let bs := s.compute p
  if q = text "braids" then some bs.length
  else if q = text "strands" then some (4 * bs.length)
  else if q = text "pad_kib" then some 1408
  else if q = text "tile_rows" then some 16
  else if q = text "tile_bits" then some 2048
  else if q = text "array_k" then some 256
  else if q = text "array_n" then some 192
  else if q = text "timing_sig" then
    some (match bs with
      | [] => 0
      | b :: r => if r.all fun c => (s.braid c).sig == (s.braid b).sig then (s.braid b).sig.toInt else 0)
  else none

/-- A selector parsed and evaluated at level l of its grammar (0 expr, 1 term, 2 factor, 3 cmp, 4 value): its value and the tokens left. -/
def selEval (s : State) (p w : Nat) : Nat → Nat → List Tok → Option (Int × List Tok)
  | 0, _, _ => none
  | n + 1, l, ts =>
    let go := selEval s p w n
    match l with
    | 0 => (go 1 ts).bind fun (x, r) => match r with
      | .name q :: r' => if q = text "or" then (go 0 r').map fun (y, r'') => (if x ≠ 0 ∨ y ≠ 0 then 1 else 0, r'') else some (x, r)
      | _ => some (x, r)
    | 1 => (go 2 ts).bind fun (x, r) => match r with
      | .name q :: r' => if q = text "and" then (go 1 r').map fun (y, r'') => (if x ≠ 0 ∧ y ≠ 0 then 1 else 0, r'') else some (x, r)
      | _ => some (x, r)
    | 2 => match ts with
      | .name q :: r => if q = text "not" then (go 2 r).map fun (x, r') => (if x = 0 then 1 else 0, r') else go 3 ts
      | _ => go 3 ts
    | 3 => (go 4 ts).bind fun (x, r) => match r with
      | .sym a b :: r' =>
        if a = 40 ∨ a = 41 then some (x, r)
        else (go 4 r').bind fun (y, r'') => (compareOf a b x y).map fun c => (if c then 1 else 0, r'')
      | _ => some (x, r)
    | _ => match ts with
      | .int v :: r => some ((BitVec.ofInt 64 v).toInt, r)
      | .sym 40 0 :: r => (go 0 r).bind fun (x, r') => match r' with | .sym 41 0 :: r'' => some (x, r'') | _ => none
      | .name q :: .sym 40 0 :: .name f :: .sym 41 0 :: r =>
        if q = text "feature" ∧ featureNames.contains f then
          some (if (s.world w).featMask.getLsbD (featureNames.findIdx (· == f)) then 0 else 1, r)
        else none
      | .name q :: .sym 40 0 :: .int c :: .sym 41 0 :: r =>
        if q = text "converter" then some (if (s.compute p).all fun b => decide (0 ≤ c ∧ c < 64) && (s.braid b).hasConverter c.toNat then 1 else 0, r) else none
      | .name q :: r => (quantity s p q).map fun x => (x, r)
      | _ => none

/-- A selector's value; none where it does not parse. -/
def selector (s : State) (p w : Nat) (cs : List Nat) : Option Bool :=
  (tokens (cs.length + 1) cs).bind fun ts =>
    (selEval s p w (8 * ts.length + 8) 0 ts).bind fun (x, r) => if r.isEmpty then some (x != 0) else none

/-! Relocations (R211). -/

def readReloc (o : List Byte) (at_ : Nat) : Option Reloc :=
  (objLE o at_ 24).map fun e =>
    { off := e % 2 ^ 64, type := e / 2 ^ 64 % 256, target := e / 2 ^ 72 % 256, anchor := e / 2 ^ 80 % 65536, addend := (BitVec.ofNat 64 (e / 2 ^ 128)).toInt }

def readRelocs (o : List Byte) (c : Section) : Option (List Reloc) := (List.range (c.size / 24)).mapM fun i => readReloc o (c.foff + 24 * i)

/-- Bytes of the access a word of slot M names by its opcode; the scale of PREF's offset. -/
def accessSize (word : Nat) : Nat :=
  match word / 2 ^ 27 with
  | 1 => 1 | 2 => 1 | 8 => 1
  | 3 => 2 | 4 => 2 | 9 => 2
  | 5 => 4 | 6 => 4 | 10 => 4
  | 7 => 8 | 11 => 8
  | 25 => 128
  | _ => 1

/-- A value in a signed range, divided without remainder by u. -/
def exact (v : Int) (u : Nat) (lo hi : Int) : Option Int := if v % u = 0 ∧ lo ≤ v / u ∧ v / u ≤ hi then some (v / u) else none

/-- The low n bits of a field replaced. -/
def patch (old lo n : Nat) (v : Int) : Nat := old / 2 ^ (lo + n) * 2 ^ (lo + n) + (v.emod (2 ^ n)).toNat * 2 ^ lo + old % 2 ^ lo

/-- A field after its relocation: bytes written and their value; none where it does not fit. S, P, the unit, and the bytes at the field. -/
def relocate (r : Reloc) (S P u old : Nat) : Option (Nat × Nat) :=
  let v : Int := S + r.addend
  match r.type with
  | 1 => some (8, patch old 0 64 v)
  | 2 => (exact v 1 0 (2 ^ 48 - 1)).map fun v => (8, patch old 0 48 v)
  | 3 => (exact v 1 0 (2 ^ 32 - 1)).map fun v => (4, patch old 0 32 v)
  | 4 => (exact (v - P) u (-16384) 16383).map fun v => (4, patch old 0 15 v)
  | 5 => (exact (v - P) u (-2147483648) 2147483647).map fun v => (4, patch old 0 32 v)
  | 6 => (exact v 1 (-32) 31).map fun v => (4, patch (patch old 0 6 v) 6 2 2)
  | 7 => (exact v 1 (-128) 127).map fun v => (4, patch old 0 8 v)
  | 8 => (exact v 1 (-2147483648) 2147483647).map fun v => (4, patch old 0 32 v)
  | 9 => some (4, patch old 0 32 v)
  | 10 => some (4, patch old 0 32 (v / 2 ^ 32))
  | 11 => (exact v (accessSize (old % 2 ^ 32)) (-32) 31).map fun v => (4, patch old 0 6 v)
  | 12 => (exact v (accessSize (old % 2 ^ 32)) (-8) 7).map fun v => (4, patch old 0 4 v)
  | 13 => (exact v 256 (-4) 3).map fun v => (4, patch old 0 3 v)
  | 14 => (exact v 1 1 127).map fun v => (4, patch old 0 7 v)
  | _ => none

/-! The loader (R213). -/

def alignUp (a l : Nat) : Nat := (a + 2 ^ l - 1) / 2 ^ l * 2 ^ l

/-- The sections a variant places: its own and every data section, in index order. -/
def Variant.places (v : Variant) (ss : List Section) : List Nat :=
  (List.range ss.length).filter fun i =>
    i == v.dense || i == v.native || i == v.liveMap || i == v.slabs || i == v.patterns || (match ss[i]? with | some c => c.kind == 2 || c.kind == 3 | none => false)

/-- The address of each section placed. -/
def layout (ss : List Section) (base : Nat) (is : List Nat) : Store Nat :=
  (is.foldl (fun (a : Store Nat × Nat) i =>
    match ss[i]? with
    | some c => let va := alignUp a.2 c.align; (Store.put a.1 i va, va + c.size)
    | none => a) ([], base)).1

/-- A variant's sections as they are placed, and the number of relocations that do not fit. A relocation patches the dense section, or past its
end the native one. -/
def relocated (o : List Byte) (ob : Object) (v : Variant) (base : Nat) (rs : List Reloc) : Store (List Byte) × Nat :=
  let ss := ob.sections
  let is := v.places ss
  let at_ := layout ss base is
  let content (i : Nat) : List Byte := match ss[i]? with | some c => (o.drop c.foff).take c.size | none => []
  let init : Store (List Byte) := is.map fun i => (i, content i)
  let dsize := (content v.dense).length
  rs.foldl (fun (a : Store (List Byte) × Nat) r =>
    let i := if r.off < dsize then v.dense else v.native
    let off := if r.off < dsize then r.off else r.off - dsize
    let bs := Store.get a.1 i []
    match relocate r (Store.get at_ r.target 0) (Store.get at_ i 0 + off - r.anchor) (if i = v.native then 32 else 4) (leNat ((bs.drop off).take 8)) with
    | some (n, x) =>
      if off + n ≤ bs.length ∧ Store.has at_ r.target then (Store.put a.1 i (bs.take off ++ leBytes n x ++ bs.drop (off + n)), a.2) else (a.1, a.2 + 1)
    | none => (a.1, a.2 + 1)) (init, 0)

/-- Bytes written through a world's translation, page by page; none where an address has no translation. -/
def placeBytes (s : State) (w va : Nat) (bs : List Byte) : Option State :=
  (pieces (bs.length / 4096 + 2) va bs.length).foldlM (fun s p =>
    match walkPlain s w p.1 with
    | .ok e => some (s.homeWrite (e.pa p.1) ((bs.drop (p.1 - va)).take p.2))
    | .error _ => none) s

/-- The variant with the fewest relocations that do not fit, the earlier on a tie (R213). -/
def bestVariant {A : Type} (vs : List (Nat × A × Nat)) : Option Nat :=
  (vs.foldl (fun (a : Option (Nat × Nat)) v => match a with
    | none => some (v.1, v.2.2)
    | some (_, n) => if v.2.2 < n then some (v.1, v.2.2) else a) none).map Prod.fst

/-- The loader's status, the variant it names and, where a variant is placed, the machine (R213). -/
def loadObject (s : State) (p w base : Nat) (o : List Byte) : Nat × Option Nat × State :=
  match readObject o with
  | none => (2, none, s)
  | some ob =>
    match ob.variants.mapM (fun v => (textAt o (ob.strTab + v.select)).bind (selector s p w)), ob.variants.mapM (fun v => (ob.sections[v.relocs]?).bind (readRelocs o)) with
    | some sel, some rel =>
      let be (off : Nat) : Nat := beNat ((o.drop (ob.sigOff + off)).take 48)
      if (objLE o (ob.sigOff + 96) 1) ≠ some 4 ∨ !ecdsaVerify (be 97, be 145) (sha384 (o.take ob.sigOff)) (be 0, be 48) then (1, none, s)
      else
        let tried := ((ob.variants.zip rel).zip sel).zipIdx.filter (·.1.2)
        let done : List (Nat × (Variant × Store (List Byte)) × Nat) := tried.map fun e =>
          let r := relocated o ob e.1.1.1 base e.1.1.2
          (e.2, (e.1.1.1, r.1), r.2)
        match done.find? (·.2.2 == 0) with
        | none => if done.isEmpty then (3, none, s) else (4, bestVariant done, s)
        | some (i, (v, m), _) =>
          let at_ := layout ob.sections base (v.places ob.sections)
          match m.foldlM (fun s x => placeBytes s w (Store.get at_ x.1 0) x.2) s with
          | some s' => (0, some i, s')
          | none => (4, some i, s)
    | _, _ => (2, none, s)

/-- AIDIN_LOAD: the loader answers; the measurement of an object it places enters the world's log before (R213, R381). -/
def loadAidin (s : State) (p w base : Nat) (o : List Byte) : State :=
  if !(s.assigned w p) then s
  else
    let (c, v, s) := loadObject s p w base o
    let s := s.modPart p fun t => { t with loaded := some (c, v) }
    if c ≠ 0 then s
    else
      let m := sha384 o
      s.modWorld w fun t => { t with meas := t.meas ++ [m], mchain := sha384 (beBytes 48 t.mchain.toNat ++ beBytes 48 m.toNat) }

/-! The translator (R200). -/

/-- Live-map entry i of the code at an address takes a native position. -/
def setNative (s : State) (b w code : Nat) (e : Nat × Nat) : State :=
  match denseHeader s b w code with
  | some (table, n) =>
    if n ≤ e.1 then s
    else match readVALE s b w (table + 32 * e.1) 32 with
      | .ok v => (placeBytes s w (table + 32 * e.1) (leBytes 32 (patch v 216 16 (e.2 : Int)))).getD s
      | .error _ => s
  | none => s

/-- NATIVE_TRANSLATE: a region that the translator has built stands sealed and executable in the world. It enters the cache where its header names the dense
code, a count of bundles a region may have, and the timing table of a braid of the partition (R192, R200). What the translator writes into a region is
software's (log 50). -/
def translateNative (s : State) (p w : Nat) (code region : BitVec 48) (entries : List (Nat × Nat)) : State :=
  let b := (braidsOf p).headD 0
  let base := region.toNat / 65536 * 65536
  match walkPlain s w base, readVALE s b w base 64 with
  | .ok e, .ok h =>
    let sig := BitVec.ofNat 64 h
    let n := h / 2 ^ 128 % 65536
    if !(e.isSealed && e.x) || h / 2 ^ 192 % 2 ^ 48 != code.toNat || n == 0 || 2046 < n || !(s.compute p).any (fun c => (s.braid c).sig == sig) then s
    else
      let s := s.modPart p fun t =>
        { t with tcache := t.tcache.filter (fun c => !(c.1 == code.toNat && c.2.1 == w && c.2.2.1 == sig)) ++ [(code.toNat, w, sig, base)] }
      entries.foldl (fun s e => setNative s b w code.toNat e) s
  | _, _ => s

end Sys2Proof.Machine
end

