-- ==== Sys2Proof/Machine/Splice.lean ====
section
/-!
DEFINITION. The splice fabric (R390 to R403): allocation of blocks, installs and removals, answers to requests, condemnation, repair, salvage
of tokens, drop of a braid and removal of a node.
-/

namespace Sys2Proof.Machine

/-! Blocks and images (R390 to R395). -/

def blkKind (v : BitVec 32) : Nat := bits v 28 4
def blkImage (v : BitVec 32) : Nat := bits v 12 16
def blkTarget (v : BitVec 32) : Nat := bits v 0 8

/-- The block holds an image. -/
def blkUsed (v : BitVec 32) : Bool := 1 ≤ blkKind v && blkKind v ≤ 3

def Braid.block (t : Braid) (i : Nat) : BitVec 32 := Store.get t.blocks i 0

/-- Blocks whose entry meets a condition, in ascending order. -/
def Braid.blocksWith (t : Braid) (f : BitVec 32 → Bool) : List Nat := (List.range 96).filter fun i => f (t.block i)

/-- Blocks of an installed image. -/
def Braid.blocksOf (t : Braid) (image : Nat) : List Nat := t.blocksWith fun v => blkUsed v && blkImage v == image

/-- Blocks freed; a group that a removal empties is gated (R395). -/
def Braid.freeBlocks (t : Braid) (is : List Nat) : Braid :=
  let u := { t with blocks := is.foldl Store.del t.blocks }
  let emptied := (List.range 6).filter fun g => is.any (fun i => i / 16 == g) && !u.groupUsed g
  { u with fabOn := emptied.foldl (fun v g => setBit v g false) u.fabOn }

/-- The blocks an installation of n blocks takes: free ones of powered groups, then those of the lowest gated groups (R395). -/
def Braid.pickBlocks (t : Braid) (n : Nat) : Option (List Nat) :=
  let free := t.blocksWith fun v => blkKind v == 0
  let order := free.filter (fun i => t.fabOn.getLsbD (i / 16)) ++ free.filter fun i => !t.fabOn.getLsbD (i / 16)
  if free.length < n then none else some (order.take n)

/-- A timing entry raised by a declared one (R393, R400). -/
def raiseEntry (old : BitVec 32) (e : BitVec 32) : BitVec 32 :=
  BitVec.ofNat 32 (max (old.toNat / 65536) (bits e 0 13) * 65536 + max (old.toNat % 65536) (bits e 13 13))

/-- The timing table after an image's entries; those that name no class have no effect (R189). TIMING_SIG follows from the table (R190, R400). -/
def Braid.raiseTiming (t : Braid) (es : List (BitVec 32)) : Braid :=
  es.foldl (fun t e => if e = 0 ∨ 24 ≤ bits e 26 6 then t else { t with timing := Store.put t.timing (bits e 26 6) (raiseEntry (t.timingOf (bits e 26 6)) e) }) t

/-- An image's blocks written and its timing applied. -/
def Braid.place (t : Braid) (m : SpliceImage) (is : List Nat) : Braid :=
  let word := BitVec.ofNat 32 (m.kind % 16 * 2 ^ 28 + m.id % 65536 * 2 ^ 12 + m.target % 256)
  { t.raiseTiming m.timing with blocks := is.foldl (fun bs i => Store.put bs i word) t.blocks
                                fabOn := is.foldl (fun v i => setBit v (i / 16) true) t.fabOn }

/-- The fid core verifies an image before each load (R393). -/
def SpliceImage.verifies (m : SpliceImage) : Bool := ecdsaVerify Config.spliceKey (BitVec.ofNat 384 m.digest) m.sig

/-- The image or another of its unit or converter ids stands on the braid (R397 PRESENT). -/
def Braid.present (t : Braid) (m : SpliceImage) : Bool :=
  !(t.blocksWith fun v => blkUsed v && (blkImage v == m.id || blkTarget v == m.target ||
    (128 ≤ m.target && 128 ≤ blkTarget v && blkTarget v / 2 == m.target / 2))).isEmpty

def State.imageNo (s : State) (i : Nat) : Option SpliceImage := s.flash.find? (·.id == i)

/-- A record stands in a slot of the braid, or a repair of it is under way (R397 BUSY). -/
def spliceBusy (s : State) (b : Nat) (m : SpliceImage) : Bool :=
  (m.timing.any (· != 0) && s.anyRecord b) || !(s.braid b).underRepair.isEmpty

/-- A load of an image into the fabric: outcome and machine (R397, from BAD_SIGNATURE on); `busy` for a request. -/
def loadImage (s : State) (b unit : Nat) (m : SpliceImage) (busy : Bool) : Nat × State :=
  let t := s.braid b
  if !m.verifies then (2, s)
  else if m.target ≠ unit then (4, s)
  else if t.present m then (7, s)
  else if busy && spliceBusy s b m then (6, s)
  else match t.pickBlocks m.blocks with
    | none => (1, s)
    | some is => (0, (s.setBraid b (t.place m is)).mapChange)

/-- The braid lies in the issuer's partition and is in service (R397 DENIED). -/
def spliceDenied (s : State) (q : SpliceReq) : Bool := partOf q.target != partOf q.braid || (s.braid q.target).status != 0

def spliceInstall (s : State) (q : SpliceReq) : Nat × State :=
  if spliceDenied s q then (5, s)
  else match s.imageNo q.image with
    | none => (3, s)
    | some m => loadImage s q.target q.unit m true

def spliceRemove (s : State) (q : SpliceReq) : Nat × State :=
  let t := s.braid q.target
  let is := t.blocksOf q.image
  if spliceDenied s q then (5, s)
  else match is with
    | [] => (8, s)
    | i :: _ =>
      if blkTarget (t.block i) ≠ q.unit then (4, s)
      else if blkKind (t.block i) = 1 ∧ t.condemned.contains q.unit then (9, s)
      else if (s.imageNo q.image).any (spliceBusy s q.target) || !t.underRepair.isEmpty then (6, s)
      else (0, (s.setBraid q.target (t.freeBlocks is)).mapChange)

/-- SPLICE_ANSWER: the outcome in the log and in DETAIL of the issuer's counter (R290, R397, R419). -/
def spliceAnswer (s : State) (n : Nat) : State :=
  match s.spliceReqs[n]? with
  | none => s
  | some q =>
    let s := { s with spliceReqs := s.spliceReqs.eraseIdx n }
    let (c, s) := if q.action = 0 then spliceInstall s q else spliceRemove s q
    (s.log 3 q.target q.unit c q.image).bumpUnit q.braid q.strand q.world q.evt (if c = 0 then 0 else 15) c

/-! Salvage, drop and removal (R103, R401, R402). -/

/-- The unbuffered lines of a braid's cache under a token that a failing salvage does not write back. -/
def Braid.lostLines (t : Braid) (k : Token) : List Nat :=
  (t.cache.filter fun c => c.dirty && c.arm.isNone && t.lostBases.contains k.base && k.covers c.line).map (·.line)

/-- Every dirty line of the braid's cache is written back, but for those of the ranges where salvage fails: they read zero, and their tokens are damaged
(R103, R105). -/
def salvageLines (s : State) (b : Nat) : State :=
  let t := s.braid b
  let s := s.tokens.foldl (fun (s : State) k =>
    match t.lostLines k with
    | [] => s
    | ls => (ls.foldl (fun (s : State) l => s.zeroRange l 128) s).setToken k.base k.log2 { k with dmg := true }) s
  s.flushLines b fun _ => true

/-- One held place of a braid's agent moves on (R103); a token with a lost line is damaged. -/
def salvagePlace (s : State) (b : Nat) (lost : List (Nat × Nat)) (sup : BitVec 24) (h : Held) : State :=
  let s := endTokens s h.agent h.world sup [h]
  match s.tokenExact h.base h.log2 with
  | none => s
  | some t =>
    let t := { t with dmg := t.dmg || (h.kind == 0 && lost.contains (h.base, h.log2)) }
    (s.setToken h.base h.log2 t).log 9 b 0 t.holder.toNat (h.base / 4096 % 2 ^ 40 + h.log2 * 2 ^ 40 + (if t.dmg then 2 ^ 46 else 0))

/-- The supervisor agent of a strand's unit of a world; the host agent where the agent is no strand. -/
def State.supOf (s : State) (b : Nat) (h : Held) : BitVec 24 :=
  let k := agentNo h.agent
  let z := s.slotOf b k 0
  if k < 4 ∧ z.st ≠ .empty ∧ recWorld z.bind = h.world then s.supervisorOf (partOf b) (recLaunch z.bind)
  else match s.images.find? fun i => i.braid == b && i.strand == k && i.world == h.world && i.slotNo == 0 with
    | some i => s.supervisorOf i.part (recLaunch i.slot.bind)
    | none => hostAgent s.device

/-- Every token, ticket and participation of the braid's agents moves (R103). -/
def salvage (s : State) (b : Nat) : State :=
  let hs := (s.braid b).held ++ (s.images.filter fun i => i.braid == b).flatMap (·.held)
  let lost := (s.tokens.filter fun k => !((s.braid b).lostLines k).isEmpty).map fun k => (k.base, k.log2)
  (hs.foldl (fun s h => salvagePlace s b lost (s.supOf b h) h) (salvageLines s b)).modBraid b fun t => { t with lostBases := [] }

/-- Every key slot of a braid zeroised. -/
def Braid.zeroiseKeys (t : Braid) : Braid := ((List.range 32).filter fun m => (t.keyOf m).valid).foldl Braid.zeroise t

/-- BRAID_DROP: the contexts of frozen units are saved for the halyard to place elsewhere, the logic and the B-store are gated, and every block goes
but those of router images. -/
def dropBraid (s : State) (b : Nat) : State :=
  if (s.braid b).status ≠ 0 then s
  else
    let s := salvage s b
    let s := (List.range 4).foldl (fun s k => if s.frozenHere b k then saveContext s b k false else s) s
    let s := s.modBraid b fun t =>
      let t := { t.zeroiseKeys.loseLogic with logicOn := false, logicWaking := false, bst := [], bstTag := [], bstOn := false, bstWaking := false }
      let t := t.freeBlocks (t.blocksWith fun v => blkUsed v && !(0x40 ≤ blkTarget v && blkTarget v ≤ 0x47))
      { t with status := 1 }
    let s := s.mapChange
    s.log 4 b 0 1 s.mapSeq.toNat

/-- A link marked down in both directions. -/
def State.linkDown (s : State) (l : Nat) : State :=
  { s with links := Store.put s.links l { s.link l with down := true, crcAB := 0, crcBA := 0 } }.log 11 0xFF 0 0 l

/-- NODE_REMOVE: the node's links go down and its outbound vertical FIFOs are lost. -/
def removeNode (s : State) (b : Nat) : State :=
  let s := dropBraid s b
  let s := s.modBraid b fun t => { t with status := 2, vf := [] }
  let s := ((linksAt (.router b)).foldl State.linkDown s).mapChange
  s.log 4 b 0 2 s.mapSeq.toNat

/-! Condemnation and repair (R399). -/

/-- The replacement a repair loads: the image to load again, else the lowest of the unit's replacements in flash. -/
def State.replacement (s : State) (b unit : Nat) : Option SpliceImage :=
  if Store.has (s.braid b).reload unit then s.imageNo (Store.get (s.braid b).reload unit 0)
  else (s.flash.filter fun m => m.kind == 1 && m.target == unit).foldl
    (fun a m => match a with | none => some m | some n => some (if m.id < n.id then m else n)) none

/-- The strands a repair froze run on (R399 step 5); one that cannot resume shows REFUSED (R422). -/
def returnHeld (s : State) (b : Nat) : State :=
  let ks := (s.braid b).repairHeld
  ks.foldl (fun s k => if (s.slotOf b k 0).resumes && !s.isQuiesced (partOf b) (s.slotOf b k 0) then resumeSlot s b k 0 else s)
    (s.modBraid b fun t => { t with repairHeld := [] })

/-- Every record and context of a braid stands outside the slot table while `f` runs (R191, R399). -/
def withSlotsEmpty (s : State) (b : Nat) (f : State → Nat × State) : Nat × State :=
  let ws := (List.range 4).flatMap fun k => (s.strand b k).slot.filterMap fun e => if e.2.st = .empty then none else some (recWorld e.2.bind)
  let (c, s) := f ((List.range 4).foldl (fun s k => evictStrand s b k) s)
  (c, ws.dedup.foldl (fun s w => returnWorld s (partOf b) w (· == b) fun _ _ _ => false) s)

/-- What stands on the list of repairs for a braid that is to be dropped once its units are quiet (own, R410). -/
def dropMark : Nat := 0xFF

/-- The repair of the first unit on the list, all units of the braid being quiet. -/
def repairUnit (s : State) (b unit : Nat) : State :=
  if unit = dropMark then dropBraid (s.modBraid b fun t => { t with underRepair := t.underRepair.erase unit }) b else
  let t := s.braid b
  let s := s.setBraid b (t.freeBlocks (t.blocksWith fun v => blkKind v == 2 && blkTarget v == unit))
  let m := s.replacement b unit
  let (c, s) := withSlotsEmpty s b fun s => match m with | none => (3, s) | some m => loadImage s b unit m false
  let s := s.log 3 b unit c ((m.map (·.id)).getD 0)
  let s := s.modBraid b fun t => { t with underRepair := t.underRepair.erase unit, reload := Store.del t.reload unit }
  if c = 0 then s
  else if 0x40 ≤ unit ∧ unit ≤ 0x46 then
    match routerPort b (unit - 0x40) with
    | some h => (s.linkDown h.link).mapChange
    | none => s
  else if unit = 0x47 then removeNode s b
  else dropBraid s b

/-- A repair goes on once no unit of the braid runs; the records return after the last one. -/
def repairStep (s : State) (b : Nat) : Option State :=
  match (s.braid b).underRepair with
  | [] => none
  | u :: _ =>
    if (List.range 4).any fun k => (s.slotOf b k 0).st == .running then none
    else
      let s := repairUnit s b u
      some (if (s.braid b).underRepair.isEmpty then returnHeld s b else s)

/-- The braid's running units are pre-empted, and the repair of a unit goes on once they are quiet (R399). -/
def beginRepair (s : State) (b unit : Nat) : State :=
  let running := (List.range 4).filter fun k => (s.slotOf b k 0).st == .running
  let s := s.modBraid b fun t =>
    { t with underRepair := t.underRepair ++ [unit], repairHeld := t.repairHeld ++ running.filter fun k => !t.repairHeld.contains k }
  let s := running.foldl (fun s k => preempt s b k 0) s
  (repairStep s b).getD s

/-- UNIT_CONDEMN: the unit is condemned and logged, the braid's running units are pre-empted, and the repair begins. -/
def condemn (s : State) (b unit index : Nat) (lost : List Nat) : State :=
  let t := s.braid b
  let router := decide (0x40 ≤ unit) && decide (unit ≤ 0x47)
  if t.status = 2 ∨ (t.status = 1 ∧ !router) ∨ t.underRepair.contains unit then s
  else
    let s := s.modBraid b fun t =>
      { t with condemned := if t.condemned.contains unit then t.condemned else t.condemned ++ [unit], lostBases := t.lostBases ++ lost
               noms := t.noms.filter (· != unit) }
    beginRepair (s.log 2 b unit 0 index) b unit

/-- A fabric block fails: it is retired for good, and the unit its image serves is condemned (R390, R408). -/
def blockFails (s : State) (b i index : Nat) (lost : List Nat) : State :=
  let t := s.braid b
  let v := t.block i
  if 96 ≤ i ∨ blkKind v = 4 then s
  else
    let t := if blkUsed v then { t.freeBlocks (t.blocksOf (blkImage v)) with reload := Store.put t.reload (blkTarget v) (blkImage v) } else t
    let s := (s.setBraid b { t with blocks := Store.put t.blocks i 0x40000000 }).mapChange
    let s := s.log 13 b 0 i 0
    if blkUsed v then condemn s b (blkTarget v) index lost else s

end Sys2Proof.Machine
end

