-- ==== Sys2Proof/Machine/Longlife.lean ====
section
/-!
DEFINITION. Detection, protection of storage, tests in the field, power-on and configuration (R388, R403 to R421), and the writes that physical
function 0, the halyard and a debugger make to registers without a step of their own (R46, R54 to R56, R78, R183, R245, R246, R357, R363), with the
submission of a graph (R51).
-/

namespace Sys2Proof.Machine

/-! Pending errors (R104, R117, R345, R419). -/

/-- A strand's unit learns of log entry n, in place or in its saved image: the unit of a world, where one is named. -/
def State.raiseError (s : State) (a : BitVec 24) (w : Option Nat) (n : Nat) : State :=
  let b := agentBraid a
  let k := agentNo a
  let f := fun (t : Strand) => { t with pendErr := t.pendErr ++ [n % 65536] }
  let z := s.slotOf b k 0
  if !s.isLocal a || 4 ≤ k then s
  else if z.live && w.all (· == recWorld z.bind) then s.modStrand b k f
  else { s with images := s.images.map fun i => if i.braid = b ∧ i.strand = k ∧ i.slotNo = 0 ∧ w.all (· == i.world) then { i with body := f i.body } else i }

/-- Puts an agent in its place in a rising list without repeats. -/
def insertAgent (a : BitVec 24) : List (BitVec 24) → List (BitVec 24)
  | [] => [a]
  | b :: t => if a = b then b :: t else if a < b then a :: b :: t else b :: insertAgent a t

/-- One TYPE 8 entry for each agent, in ascending order, or one charged to none. The agents' units are of the world of the line's token. -/
def chargeError (s : State) (pa : Nat) (agents : List (BitVec 24)) : State :=
  let w := (s.tokenAt pa).map (·.world)
  match agents.foldr insertAgent [] with
  | [] => s.log 8 0xFF 0 0xFFFFFFFF pa
  | as => as.foldl (fun s a => (s.log 8 0xFF 0 a.toNat pa).raiseError a w s.errSeq) s

/-- The line at pa is lost: no cache holds it, its token is damaged, its bytes read zero once revived, and the agents learn of it (R104, R105). Until it is
revived or written whole it is marked poisoned, so that a reader that needs no token meets the error (R80, R420). -/
def loseLine (s : State) (pa : Nat) (agents : List (BitVec 24)) : State :=
  let s := match s.tokenAt pa with
    | some t => s.setToken t.base t.log2 { t with dmg := true }
    | none => s
  chargeError ((s.zeroRange (lineOf pa) 128).markWrite true (lineOf pa) 128) pa agents

/-- UNCORRECTABLE_ERROR in a line of a braid's cache, or of its home slice where no braid is named: a clean one is fetched again, a dirty one is lost for the
agents whose stores are in it, buffered ones too (R76, R104). -/
def lineError (s : State) (pa : Nat) (braid : Option Nat) : State :=
  let held := match braid with
    | some b => (s.braid b).cache
    | none => Store.get s.slices (homeSlice pa) []
  let dirty := held.filter fun c => c.line == lineOf pa && (c.dirty || c.arm.isSome)
  if dirty.isEmpty then s
  else
    let s := match braid with
      | some b => s.modBraid b fun t => { t with buf := t.buf.filter fun e => lineOf e.addr != lineOf pa }
      | none => s
    loseLine s pa (dirty.flatMap fun c => c.who.map Prod.fst)

/-! HBM (R413 to R418). -/

def hbmGranule (pa : Nat) : Nat := pa / 2 ^ 15 % 2 ^ 24

/-- The place fields both logs share, with COUNT risen by n. -/
def hbmEvent (old : Word) (n pa kind beat : Nat) : Nat :=
  min 255 (bits old 56 8 + n) * 2 ^ 56 + hbmStack pa * 2 ^ 53 + hbmChannel pa * 2 ^ 48 + kind * 2 ^ 46 + beat % 64 * 2 ^ 40 + hbmGranule pa * 2 ^ 16

/-- HBM_ECC_ERROR: corrected or not (R414, R417). -/
def hbmEcc (s : State) (pa beat bit_ : Nat) (unc : Bool) (agents : List (BitVec 24)) : State :=
  if !isDevMem pa then s
  else
    let v := hbmEvent s.errCell 1 pa (if unc then 2 else 1) beat + bit_ % 512 * 2 ^ 7
    let s := { s with errCell := BitVec.ofNat 64 v }.log 6 0xFF 0 0 v
    if unc then loseLine s pa agents else s

/-- LANE_SPARE_SWAP: the lowest unused spare takes the lane; none where all are used. -/
def swapLane (spares : BitVec 44) (lane : Nat) : Option (BitVec 44) :=
  ((List.range 4).find? fun i => !spares.getLsbD (11 * i + 10)).map fun i => setBits spares (11 * i) 11 (1024 + lane)

/-- HBM_PARITY_FAIL: `fails` failing attempts of one transfer (R415, R416, R418). -/
def hbmParity (s : State) (pa beat lane fails : Nat) (single : Bool) (agents : List (BitVec 24)) : State :=
  if !isDevMem pa || fails == 0 || 528 ≤ lane then s
  else
    let c := hbmChannelNo pa
    let swap := if single && !s.deadChannels.contains c then swapLane (Store.get s.lanes c 0) lane else none
    let passed := fails < 4 && !s.deadChannels.contains c
    let outcome := if passed then 1 else if swap.isSome then 2 else 3
    let v := hbmEvent s.errXfer (min fails 4) pa outcome beat + (if outcome = 2 then lane * 2 ^ 6 else 0) + min fails 3 * 2 ^ 4
    let s := { s with errXfer := BitVec.ofNat 64 v }.log 7 0xFF 0 0 v
    if passed then s
    else match swap with
      | some m => { s with lanes := Store.set s.lanes c m 0 }
      | none => loseLine { s with deadChannels := if s.deadChannels.contains c then s.deadChannels else s.deadChannels ++ [c] } pa agents

/-! Registers, key slots, slabs, tables (R72, R410, R411). -/

/-- A register file with one 64-bit word zero: file 0 s and o cells, 1 k, 2 tile rows, 3 accumulator rows (32 words a row). -/
def Regs.zeroWord (r : Regs) (file idx : Nat) : Regs :=
  let clear (v : Row) : Row := v &&& ~~~ (BitVec.ofNat 2048 ((2 ^ 64 - 1) * 2 ^ (64 * (idx % 32))))
  match file with
  | 0 => { r with x := Store.del r.x idx }
  | 1 => { r with k := Store.del r.k idx }
  | 2 => { r with tile := Store.set r.tile (idx / 32) (clear (Store.get r.tile (idx / 32) 0)) 0 }
  | 3 => { r with acc := Store.set r.acc (idx / 32) (clear (Store.get r.acc (idx / 32) 0)) 0 }
  | _ => r

/-- REGISTER_ECC_ERROR: the word reads zero, and the strand's error names the register in the log. -/
def registerError (s : State) (b k file idx : Nat) : State :=
  if !slotNo b k 0 || 3 < file then s
  else
    let a := agentId s.device b k
    ((s.modStrand b k fun t => { t with r := t.r.zeroWord file idx }).log 8 b 0 a.toNat (file * 65536 + idx)).raiseError a none s.errSeq

/-- KEY_SLOT_PARITY_ERROR: the slot is zeroised and logged with its world. -/
def keyParity (s : State) (b n : Nat) : State :=
  if 96 ≤ b ∨ 32 ≤ n then s else (s.modBraid b (·.zeroise n)).log 12 b 0 n ((s.braid b).keyOf n).world

/-- SLAB_UNCORRECTABLE_ERROR: a defined slab is damaged; the error of a FIFO entry waits for its popper. -/
def slabError (s : State) (b : Nat) (fifo : Bool) (id : Nat) : State :=
  if 96 ≤ b then s
  else if fifo then
    if ((s.braid b).fifoOf id).isEmpty then s
    else (s.modBraid b fun t => { t with fifoBad := Store.put t.fifoBad id (s.errSeq % 65536) }).log 8 b 0 0xFFFFFFFF 0
  else if slabSize ((s.braid b).slabOf id) = 0 then s
  else s.modBraid b fun t => t.setSlabState id 4

/-- TABLE_UNCORRECTABLE_ERROR: the entry is lost and logged; the braid is dropped once its units are quiet, or a slice's module reports a fatal error. -/
def tableError (s : State) (b table idx : Nat) : State :=
  match table with
  | 0 =>
    match (s.tokens.filter fun t => homeSlice t.base == b)[idx]? with
    | some t => { s with tokens := s.tokens.erase t, fatal := true }.log 8 0xFF 0 0xFFFFFFFF t.base
    | none => s
  | _ =>
    if 96 ≤ b then s
    else
      let s := s.modBraid b fun t =>
        match table with
        | 1 => { t with rb := Store.del t.rb idx }
        | 2 => { t with slab := Store.del t.slab idx }
        | _ => t
      let s := s.log 8 b 0 0xFFFFFFFF 0
      if (s.braid b).status ≠ 0 then s else beginRepair s b dropMark

/-! Detection and tests (R404 to R409). -/

/-- Unit ids of R391 that name a unit. -/
def unitOk (u : Nat) : Bool := u < 8 || (0x10 ≤ u && u < 0x2C) || (0x30 ≤ u && u ≤ 0x35) || (0x40 ≤ u && u ≤ 0x47)
def unitIds : List Nat := (List.range 0x48).filter unitOk

/-- UNIT_NOMINATE: logged with SHADOW_CNT. -/
def nominate (s : State) (b u : Nat) : State :=
  if (s.braid b).noms.contains u then s
  else
    let s := s.modBraid b fun t => { t with noms := t.noms ++ [u], shNom := BitVec.ofNat 8 u }
    s.log 1 b u 0 (readBraidReg s b 4 0x26).toNat

/-- SHADOW_DETECT: counted; the 64th detection within 2^32 braid cycles nominates the unit. -/
def detect (s : State) (b u : Nat) : State :=
  if 96 ≤ b ∨ !unitOk u then s
  else
    let now := braidClk s b
    let l := (now :: Store.get (s.braid b).shCount u []).take 64
    let s := s.modBraid b fun t => { t with shTotal := if t.shTotal = BitVec.allOnes 32 then t.shTotal else t.shTotal + 1, shLast := BitVec.ofNat 8 u
                                            shCount := Store.put t.shCount u l }
    if l.length = 64 ∧ now - l.getLastD 0 < 2 ^ 32 then nominate s b u else s

/-- REPLICA_WARN: the clock steps down by 25 MHz, its pair's too in same-frequency mode; at 1.2 GHz every unit is nominated. -/
def warn (s : State) (b : Nat) : State :=
  if 96 ≤ b then s
  else
    let t := s.braid b
    if t.mhz ≤ 1200 then unitIds.foldl (fun s u => nominate s b u) s
    else
      let f := max 1200 (t.mhz - 25)
      let step (s : State) (b : Nat) : State := (s.modBraid b fun t => { t with mhz := f }).log 5 b 0 0 f
      let s := step s b
      if t.sync then step s (partner b) else s

/-- The gap a slice on a unit needs (R408). -/
def inGap (s : State) (b u : Nat) : Bool :=
  if u < 0x30 ∧ unitOk u then (List.range 4).all fun k => !(repairHolds k u) || (s.slotOf b k 0).st != .running
  else if u < 0x40 then (List.range 4).all fun k => (s.slotOf b k 0).st != .running
  else true

/-- The slice at INDEX is done. -/
def Braid.nextSlice (t : Braid) : Braid :=
  let i := (t.iftIndex + 1) % 48000
  { t with iftIndex := i, iftNextUnit := Config.sliceUnit i
           iftPasses := if i = 0 ∧ t.iftPasses ≠ BitVec.allOnes 16 then t.iftPasses + 1 else t.iftPasses }

/-- IFT_SLICE: on the unit of the slice at INDEX, or on fabric block u - 256. A nominated unit's slice runs ahead of INDEX. -/
def testSlice (s : State) (b u : Nat) (pass : Bool) (salvage : List Nat) : State :=
  let t := s.braid b
  if 96 ≤ b || !(unitOk u || (256 ≤ u && u < 352)) || !inGap s b u || t.condemned.contains u || !(t.noms.contains u || 256 ≤ u || t.iftNextUnit.toNat == u) then s
  else
    let nominated := t.noms.contains u
    let s := if nominated then s.modBraid b fun t => { t with noms := t.noms.filter (· != u), shCount := Store.del t.shCount u }
      else s.modBraid b (·.nextSlice)
    if pass then s
    else if 256 ≤ u then blockFails s b (u - 256) t.iftIndex salvage
    else condemn s b u t.iftIndex salvage

/-- IFT_GAP_TIMEOUT: the units in the way of the slice at INDEX freeze in place for it, once no load of theirs is held, it passes, and they run on. -/
def gapTimeout (s : State) (b : Nat) : State :=
  if 96 ≤ b then s
  else
    let u := (s.braid b).iftNextUnit.toNat
    let ks := (List.range 4).filter fun k => (s.slotOf b k 0).st == .running && repairHolds k u && u < 0x40
    if ks.any fun k => (s.strand b k).awaitsLoad then s else
    let s := ks.foldl (fun s k => preemptFreeze s b k none) s
    ks.foldl (fun s k => resumeSlot s b k 0) (s.modBraid b (·.nextSlice))

/-! Power-on, resets, configuration (R378, R379, R388, R403, R421). -/

/-- A braid at power-on: what the fid core keeps in flash stays. -/
def Braid.powerOn (t : Braid) : Braid :=
  { blocks := t.blocks, condemned := t.condemned, timing := t.timing, mhz := t.mhz, iftIndex := t.iftIndex, iftNextUnit := t.iftNextUnit
    iftPasses := t.iftPasses, noms := t.noms, status := t.status
    logicOn := t.status == 0, bstOn := t.status == 0 }

/-- A world at power-on: PHASE is kept, and a teardown goes on from its last item done (R388). -/
def World.powerOn (t : World) : World :=
  if t.phase ≠ 0 then
    { phase := t.phase, listBraids := t.listBraids, doneBraids := t.doneBraids, listRanges := t.listRanges, doneGranules := t.doneGranules, byUnit := t.byUnit
      boundOn := t.boundOn }
  else {}

/-- POWER_ON. Counters of live pairs start at their floors; report numbers start at the block reserved (R378, R379).
BOOTSTAT reads what the thimble core finds of the configuration in flash. -/
def powerUp (s : State) : State :=
  let s' : State := { State.reset with
    mem := s.mem.filter fun c => isHostMem c.1
    braids := s.braids.map fun e => (e.1, e.2.powerOn)
    worlds := s.worlds.map fun e => (e.1, e.2.powerOn)
    device := s.device, mapVa := s.mapVa, mapSeq := s.mapSeq, links := s.links
    pairs := s.pairs.map fun p => { p with loads := p.floorLoads, steps := p.floorSteps, floorFlag := true }
    counterId := s.counterId, reportSeq := (s.reportSeq / 65536 + 1) * 65536, finalReports := s.finalReports
    flash := s.flash, lanes := s.lanes, cfgVersion := s.cfgNext.getD s.cfgVersion, bootBlob := s.bootBlob
    bootstat := min s.bootBlob 3, heldInReset := s.bootBlob != 0, serial := s.serial, freeCtr := s.freeCtr, agenda := s.agenda }
  s'.writeMap

/-- CONFIG_UPDATE: a blob that verifies and is newer takes effect at the next boot; else the old blob stays and BOOTSTAT reads 4.
`boot` is what the next boot will find of the blob then in flash (log 34). -/
def updateConfig (s : State) (verifies : Bool) (boot version : Nat) : State :=
  if verifies ∧ s.cfgVersion < version then { s with cfgNext := some version, bootBlob := boot } else { s with bootstat := 4, bootBlob := boot }

/-- PARTITION_RESET (R388): the partition's records, contexts, level table and registers go; SCRUB_PROG and the teardowns stay (log 34). -/
def resetPartition (s : State) (p : Nat) : State :=
  if 12 ≤ p then s
  else
    let s := (braidsOf p).foldl (fun s b =>
      let s := (List.range 4).foldl (fun s k => s.setStrand b k {}) s
      s.modBraid b fun t => { t.loseLogic with held := t.held, keys := t.keys, shTotal := t.shTotal }) s
    { s.modPart p fun t => { scrubSel := t.scrubSel } with
      images := s.images.filter fun i => i.part != p, xfers := s.xfers.filter fun x => partOf x.braid != p
      spliceReqs := s.spliceReqs.filter fun q => partOf q.braid != p }

/-! Registers without a step of their own. -/

/-- PART_MODE (R54). -/
def writeMode (s : State) (p : Nat) (v : Word) : State :=
  let used := (braidsOf p).any fun b => (List.range 4).any fun k => (s.strand b k).slot.any fun e => e.2.st != .empty
  s.modPart p fun t =>
    if v.getLsbD 0 ≠ t.share ∧ used then { t with modeRefused := true } else { t with share := v.getLsbD 0, modeRefused := false }

/-- Numbers of the management window (R246). -/
def inWindow (n : Nat) : Bool := (0x21 ≤ n && n ≤ 0x24) || (0x26 ≤ n && n ≤ 0x29)

/-- A register of a world that physical function 0 writes, unless the world is locked (R78, R183, R363). The context table stands beside memory, one
entry for each world (log 55, DESIGN CHOICE). -/
def writeWorldReg (s : State) (w num : Nat) (v : Word) : State :=
  if 192 < w || s.locked w then s
  else s.modWorld w fun t =>
    match num with
    | 0x40 => { t with ctx := v &&& 0x800FFFFFFFFFF000 }
    | 0x41 => { t with featMask := v.setWidth 10 }
    | n => { t with roster := setBits t.roster (64 * (n - 0x42)) 64 v.toNat }

/-- A table entry of a partition (R46, R55, R56). -/
def writePartReg (s : State) (p num : Nat) (v : Word) : State :=
  if 12 ≤ p then s
  else s.modPart p fun t =>
    if num < 0xA0 then { t with quantum := Store.set t.quantum (num - 0x80) (v.setWidth 32) 0 }
    else if num ≤ 0xB0 then { t with weight := Store.set t.weight (num - 0xA0) (v.setWidth 32 &&& 0xFF0000FF) 0 }
    else if 0xC0 ≤ num then { t with budget := Store.set t.budget (num - 0xC0) (v.setWidth 32) 0 } else t

/-- The supply of a braid sags or recovers: in same-frequency mode the stretch reaches its pair (R23, R407). -/
def setSag (s : State) (b : Nat) (v : Bool) : State :=
  let f := fun (t : Braid) => { t with sag := v }
  let s' := s.modBraid b f
  if (s.braid b).sync then s'.modBraid (partner b) f else s'

/-- The notify fields of an allocated level entry (R47): NOTIFY_EN, EVT and NOTIFY as bits 28 to 0. -/
def writeNotify (s : State) (p i : Nat) (v : Word) : State :=
  if 12 ≤ p ∨ lvKind (s.lv p i) = 0 then s else s.modLv p i fun e => setBits e 128 29 v.toNat

/-- A breakpoint register (R357): number 384 w + 4 b + k names strand k of braid b, written by physical function 0 where w is 0, else through the debug window of
world w, which reaches its own unit alone. -/
def writeDebug (s : State) (u num : Nat) (v : Word) : State :=
  let b := u % 384 / 4
  let k := u % 4
  let z := s.slotOf b k 0
  if 193 ≤ u / 384 || (384 ≤ u && !(z.st != .empty && recWorld z.bind == u / 384)) then s
  else s.modStrand b k fun t =>
    if num < 4 then { t with dbgAddr := Store.set t.dbgAddr num (BitVec.ofNat 64 (v.toNat % 2 ^ 48)) 0 }
    else { t with dbgCtl := Store.set t.dbgCtl (num - 4) (BitVec.ofNat 64 (v.toNat % 512)) 0 }

/-- REGISTER_WRITE: a number that names no register is ignored. -/
def writeRegister (s : State) (u num : Nat) (v : Word) : State :=
  if num < 8 then writeDebug s u num v
  else if inWindow num then (if u < 96 then writeBraidReg s u none num v else s)
  else if 0x40 ≤ num ∧ num ≤ 0x45 then writeWorldReg s u num v
  else if 0x80 ≤ num ∧ num < 0xD0 then writePartReg s u num v
  else if 0x1000 ≤ num ∧ num < 0x1FFF then writeNotify s u (num - 0x1000) v
  else s

/-! Submission of a graph (R33, R51). -/

/-- The nodes make a graph: indices in range, one to 64 of them, counts and links as their kinds need, no cycle. -/
def graphOk (nodes : List GraphNode) : Bool :=
  let n := nodes.length
  let ready (done : List Nat) : List Nat :=
    (List.range n).filter fun i => match nodes[i]? with | some g => g.preds.all done.contains | none => false
  let all := (List.range n).foldl (fun d _ => ready d) []
  1 ≤ n && n ≤ 64 && all.length == n &&
    nodes.all fun g => g.preds.all (· < n) &&
      (if g.decision then g.link < n && g.arm0 < n && g.arm1 < n && g.arm0 != g.arm1 && !((nodes[g.link]?).any (·.decision)) else 1 ≤ g.count && g.count < 2 ^ 24)

/-- A graph that is refused: a decision node is an arm, an arm decides, or an arm has another predecessor. -/
def graphRefused (nodes : List GraphNode) : Bool :=
  let ds := nodes.zipIdx.filter (·.1.decision)
  let arms := ds.flatMap fun d => [(d.1.arm0, d.2), (d.1.arm1, d.2)]
  arms.any (fun a => (nodes[a.1]?).any fun g => g.decision || g.preds != [a.2]) || ds.any (fun d => arms.any (·.1 == d.1.link)) || !(arms.map (·.1)).Nodup

/-- GRAPH_SUBMIT: the graph is one more child of an active phase; its nodes without predecessors start. -/
def submitGraph (s : State) (p parent : Nat) (nodes : List GraphNode) : State :=
  let e := s.lv p parent
  if 12 ≤ p || lvKind e != 3 || lvState e != 1 || !graphOk nodes then s
  else
    let w := lvWorld e
    let refused := graphRefused nodes
    let n := if refused then 0 else nodes.length
    match (s.part p).freeLevels (n + 1) with
    | [] => s
    | g :: is =>
      if is.length ≠ n then s
      else
        let at_ := fun i => is.getD i 0
        let s := s.modLv p parent fun e => setBits e 104 24 (lvTarget e + 1)
        if refused then (s.modLv p g fun _ => setBits (mkLevel 2 4 parent w nodes.length 0) 56 1 1).level p [.over g true]
        else
          let s := s.modLv p g fun _ => mkLevel 2 1 parent w n 0
          let s := nodes.zipIdx.foldl (fun s (d, i) =>
            let link := if d.decision then at_ d.link else match nodes.zipIdx.find? fun c => c.1.decision && (c.1.arm0 == i || c.1.arm1 == i) with
              | some c => at_ c.2
              | none => 0
            let v := setBits (mkLevel (if d.decision then 5 else 1) 0 g w (if d.decision then 1 else d.count) 0) 32 12 link
            let s := s.modLv p (at_ i) fun _ => if d.decision then setBits (setBits v 192 12 (at_ d.arm0)) 204 12 (at_ d.arm1) else v
            if d.preds.isEmpty then s else s.modPart p fun t => { t with preds := Store.put t.preds (at_ i) (d.preds.map at_) }) s
          s.level p (((List.range n).filter fun i => (nodes[i]?).any (·.preds.isEmpty)).map fun i => .start (at_ i))

end Sys2Proof.Machine
end

