-- ==== Sys2Proof/Machine/Events.lean ====
section
/-!
DEFINITION. The steps of the device (opcode table, from SLOT_COMMIT on), one definition each. A step that names no braid, strand, partition or world of
the machine does nothing.
-/

namespace Sys2Proof.Machine

/-- The outcome of a step of the device: its effect where its operands name what the machine has. -/
def device (ok : Bool) (s t : State) : Host.Outcome State Fault Refusal := .next (if ok then t else s)

/-- R41: the halyard writes a bind record into slot n of strand k of braid b and commits it. (SLOT_COMMIT) -/
def execSlotCommit (b k n : Nat) (rec : BitVec 512) (s : State) : Host.Outcome State Fault Refusal :=
  device (decide (b < 96) && decide (k < 4) && decide (n < 4)) s (commitSlot s b k n rec)

/-- R41: slot command withdraw. (SLOT_WITHDRAW) -/
def execSlotWithdraw (b k n : Nat) (s : State) : Host.Outcome State Fault Refusal :=
  device (decide (b < 96) && decide (k < 4) && decide (n < 4)) s (withdrawSlot s b k n)

/-- R41: slot command resume. (SLOT_RESUME) -/
def execSlotResume (b k n : Nat) (s : State) : Host.Outcome State Fault Refusal :=
  device (decide (b < 96) && decide (k < 4) && decide (n < 4)) s (resumeSlot s b k n)

/-- R41: slot command rerun. (SLOT_RERUN) -/
def execSlotRerun (b k n : Nat) (s : State) : Host.Outcome State Fault Refusal :=
  device (decide (b < 96) && decide (k < 4) && decide (n < 4)) s (rerunSlot s b k n)

/-- R41: slot command cancel. (SLOT_CANCEL) -/
def execSlotCancel (b k n : Nat) (s : State) : Host.Outcome State Fault Refusal :=
  device (decide (b < 96) && decide (k < 4) && decide (n < 4)) s (cancelSlot s b k n)

/-- R42: the record in slot 0 starts if its conditions hold. (RECORD_START) -/
def execRecordStart (b k : Nat) (s : State) : Host.Outcome State Fault Refusal :=
  device (decide (b < 96) && decide (k < 4)) s (startRecord s b k)

/-- R42: the next start-time transfer or slab define of the record in slot 0 ends. (START_TRANSFER_DONE) -/
def execStartTransferDone (b k : Nat) (s : State) : Host.Outcome State Fault Refusal :=
  device (decide (b < 96) && decide (k < 4)) s (startNext s b k)

/-- R43: the code preload of the record in slot 1 begins. (PRELOAD_BEGIN) -/
def execPreloadBegin (b k : Nat) (s : State) : Host.Outcome State Fault Refusal :=
  device (decide (b < 96) && decide (k < 4)) s (beginPreload s b k)

/-- R43: the pad preload of the record in slot 1 begins. (PAD_PRELOAD_BEGIN) -/
def execPadPreloadBegin (b k : Nat) (s : State) : Host.Outcome State Fault Refusal :=
  device (decide (b < 96) && decide (k < 4)) s (beginPad s b k)

/-- R43: the preloads of the record in slot 1 finish. (PRELOAD_DONE) -/
def execPreloadDone (b k : Nat) (s : State) : Host.Outcome State Fault Refusal :=
  device (decide (b < 96) && decide (k < 4)) s (endPreload s b k)

/-- R46: the running unit has spent its budget. (BUDGET_SPENT) -/
def execBudgetSpent (b k : Nat) (s : State) : Host.Outcome State Fault Refusal :=
  device (decide (b < 96) && decide (k < 4)) s (budgetSpent s b k)

/-- R34: the fence of a HALT ends and the unit ends. (HALT_COMPLETE) -/
def execHaltComplete (b k : Nat) (s : State) : Host.Outcome State Fault Refusal :=
  device (decide (b < 96) && decide (k < 4)) s (haltEnds s b k)

/-- R54: a write of PART_MODE of partition p. (PART_MODE_WRITE) -/
def execPartModeWrite (p : Nat) (v : Word) (s : State) : Host.Outcome State Fault Refusal :=
  device (decide (p < 12)) s (writeMode s p v)

/-- R55: the slice of the partition ends. (SLICE_END) -/
def execSliceEnd (p : Nat) (s : State) : Host.Outcome State Fault Refusal :=
  device (decide (p < 12)) s (endSlice s p)

/-- R58: the array lease of braid b is arbitrated. (LEASE_GRANT) -/
def execLeaseGrant (b : Nat) (s : State) : Host.Outcome State Fault Refusal :=
  device (decide (b < 96)) s (grantLease s b)

/-- R267: engine g of braid b begins another command. (ENGINE_SERVICE_GRANT) -/
def execEngineServiceGrant (b g : Nat) (s : State) : Host.Outcome State Fault Refusal :=
  device (decide (b < 96) && decide (g < 10)) s (grantService s b g)

/-- R268: the command engine g of braid b serves ends. (ENGINE_COMMAND_END) -/
def execEngineCommandEnd (b g : Nat) (s : State) : Host.Outcome State Fault Refusal :=
  device (decide (b < 96) && decide (g < 10)) s (endService s b g)

/-- R75: the n-th scoreboarded result of the strand arrives. (SCOREBOARD_ARRIVAL) -/
def execScoreboardArrival (b k n : Nat) (s : State) : Host.Outcome State Fault Refusal :=
  device (decide (b < 96) && decide (k < 4)) s (arriveResult s b k n)

/-- R24, R246: a window write of PAIR_SYNC. (PAIR_SYNC_WRITE) -/
def execPairSyncWrite (b : Nat) (v : Word) (s : State) : Host.Outcome State Fault Refusal :=
  device (decide (b < 96)) s (writePair s b v none)

/-- R27, R246: a window write of PWR_GATE with APPLY 1. (PWR_GATE_APPLY) -/
def execPwrGateApply (b : Nat) (v : Word) (s : State) : Host.Outcome State Fault Refusal :=
  device (decide (b < 96)) s (writePwr s b v true)

/-- R26, R246: a window write of PWR_GATE with APPLY 0. (PWR_GATE_SELECT) -/
def execPwrGateSelect (b : Nat) (v : Word) (s : State) : Host.Outcome State Fault Refusal :=
  device (decide (b < 96)) s (writePwr s b v false)

/-- R28: domain d (0 logic, 1 B-store, 2 + g fabric group g) becomes usable. (DOMAIN_WAKE_DONE) -/
def execDomainWakeDone (b d : Nat) (s : State) : Host.Outcome State Fault Refusal :=
  device (decide (b < 96)) s (wakeDone s b d)

/-- R68, R246: a window write of BANK_MODE. (BANK_MODE_WRITE) -/
def execBankModeWrite (b : Nat) (v : Word) (s : State) : Host.Outcome State Fault Refusal :=
  device (decide (b < 96)) s (writeBank s b 4 v)

/-- R69: the pending switch of bank n completes. (BANK_SWITCH_DONE) -/
def execBankSwitchDone (b n : Nat) (s : State) : Host.Outcome State Fault Refusal :=
  device (decide (b < 96)) s (switchDone s b n)

/-- R82: a write of TLB_INV. (TLB_INV_GO) -/
def execTlbInvGo (p : Nat) (v : Word) (s : State) : Host.Outcome State Fault Refusal :=
  device (decide (p < 12)) s (tlbGo s p v)

/-- R82: the invalidation completes. (TLB_INV_DONE) -/
def execTlbInvDone (p : Nat) (s : State) : Host.Outcome State Fault Refusal :=
  device (decide (p < 12)) s (tlbDone s p)

/-- R95: the n-th token operation in progress completes. (TOKEN_TRANSFER_COMPLETE) -/
def execTokenTransferComplete (n : Nat) (s : State) : Host.Outcome State Fault Refusal :=
  device true s (completeTransfer s n)

/-- R76, R104, R105: an uncorrectable error in the line at pa, in the cache of a braid or in its home slice. (UNCORRECTABLE_ERROR) -/
def execUncorrectableError (pa : Nat) (inBraid : Bool) (braid : Nat) (s : State) : Host.Outcome State Fault Refusal :=
  device (!inBraid || decide (braid < 96)) s (lineError s pa (if inBraid then some braid else none))

/-- R119: the n-th packet takes a hop at a braid router. (PACKET_ROUTER_HOP) -/
def execPacketRouterHop (n : Nat) (s : State) : Host.Outcome State Fault Refusal :=
  device true s (routerHop s n)

/-- R120: the n-th packet visits the package hub. (PACKET_HUB_HOP) -/
def execPacketHubHop (n : Nat) (s : State) : Host.Outcome State Fault Refusal :=
  device true s (hubHop s n)

/-- R121: the n-th packet is at a slice, host port, lanyard port or management core; or one comes to lanyard port n. (PACKET_NODE_ARRIVE) -/
def execPacketNodeArrive (a : NodeArrival) (s : State) : Host.Outcome State Fault Refusal :=
  match a with
  | .held n => device true s (nodeArrive s n)
  | .inbound n q => device (decide (n < 16)) s (lanyardIn s n q)

/-- R135, R137: the n-th packet, a fault return, has reached its source. (FAULT_RETURN_ARRIVE) -/
def execFaultReturnArrive (n : Nat) (s : State) : Host.Outcome State Fault Refusal :=
  device true s (faultReturnArrive s n)

/-- R135: a request sent by way of entry n of braid b is lost. (RESPONSE_TIMEOUT) -/
def execResponseTimeout (b n : Nat) (s : State) : Host.Outcome State Fault Refusal :=
  device (decide (b < 96)) s (responseTimeout s b n)

/-- R135: entry n of braid b was suspended for 2^20 cycles. (SUSPEND_TIMEOUT) -/
def execSuspendTimeout (b n : Nat) (s : State) : Host.Outcome State Fault Refusal :=
  device (decide (b < 96)) s (suspendTimeout s b n)

/-- R137: the n-th accepted command of braid b lost its fault return. (USER_ROUTE_LOST) -/
def execUserRouteLost (b n : Nat) (s : State) : Host.Outcome State Fault Refusal :=
  device (decide (b < 96)) s (userRouteLost s b n)

/-- R412: a flit fails its CRC on one direction of a link. (FLIT_CRC_FAIL) -/
def execFlitCrcFail (link : Nat) (ab : Bool) (s : State) : Host.Outcome State Fault Refusal :=
  device true s (crcFail s link ab)

/-- R281: the n-th packet, a message, is delivered at its destination braid. (MESSAGE_ARRIVE) -/
def execMessageArrive (n : Nat) (s : State) : Host.Outcome State Fault Refusal :=
  device true s (messageArrive s n)

/-- R282, R286: the n-th packet, an event bump, is delivered. (REMOTE_EVENT_BUMP) -/
def execRemoteEventBump (n : Nat) (s : State) : Host.Outcome State Fault Refusal :=
  device true s (remoteBump s n)

/-- R325: the load of stationary buffer n of braid b ends. (MLDS_LOAD_DONE) -/
def execMldsLoadDone (b n : Nat) (s : State) : Host.Outcome State Fault Refusal :=
  device (decide (b < 96)) s (if (Store.get (s.braid b).sbuf n {}).due ≤ braidClk s b then finishMlds s b n else s)

/-- R375: an SPDM key install message. (KEY_INSTALL) -/
def execKeyInstall (world region : Nat) (braids : BitVec 96) (key : BitVec 256) (s : State) : Host.Outcome State Fault Refusal :=
  device (decide (world ≤ 192)) s (installKey s world region braids key)

/-- R348: a pre-emption request reaches the strand. (PREEMPT_REQUEST) -/
def execPreemptRequest (b k : Nat) (s : State) : Host.Outcome State Fault Refusal :=
  device (decide (b < 96) && decide (k < 4)) s (preempt s b k 0)

/-- R348: 4,096 bundles have issued since the request. (PREEMPT_BUNDLE_LIMIT) -/
def execPreemptBundleLimit (b k : Nat) (s : State) : Host.Outcome State Fault Refusal :=
  device (decide (b < 96) && decide (k < 4)) s (bundleLimit s b k)

/-- R344: the halyard writes TRAPQ_HEAD. (TRAPQ_HEAD_WRITE) -/
def execTrapqHeadWrite (p : Nat) (v : Word) (s : State) : Host.Outcome State Fault Refusal :=
  device (decide (p < 12)) s (writeHead s p v)

/-- R346: the halyard starts the handler launch of a frozen unit on strand k2 of braid b2, the record standing at page. (HANDLER_LAUNCH) -/
def execHandlerLaunch (b k b2 k2 : Nat) (page : BitVec 48) (s : State) : Host.Outcome State Fault Refusal :=
  device (decide (b < 96) && decide (k < 4) && decide (b2 < 96) && decide (k2 < 4)) s (launchHandler s b k b2 k2 page.toNat)

/-- R352: the normal save engine saves the frozen strand. (CONTEXT_SAVE) -/
def execContextSave (b k : Nat) (s : State) : Host.Outcome State Fault Refusal :=
  device (decide (b < 96) && decide (k < 4)) s (saveContext s b k false)

/-- R353: the streaming save engine saves the frozen strand. (STREAMING_SAVE) -/
def execStreamingSave (b k : Nat) (s : State) : Host.Outcome State Fault Refusal :=
  device (decide (b < 96) && decide (k < 4)) s (saveContext s b k true)

/-- R354: the n-th saved image is restored into slot 0 of strand k of braid b. (CONTEXT_RESTORE) -/
def execContextRestore (n b k : Nat) (s : State) : Host.Outcome State Fault Refusal :=
  device (decide (b < 96) && decide (k < 4)) s (restoreContext s n b k)

/-- R358: debug command halt. (DBG_HALT) -/
def execDbgHalt (b k : Nat) (s : State) : Host.Outcome State Fault Refusal :=
  device (decide (b < 96) && decide (k < 4)) s (dbgHalt s b k)

/-- R358: debug command step. (DBG_STEP) -/
def execDbgStep (b k : Nat) (s : State) : Host.Outcome State Fault Refusal :=
  device (decide (b < 96) && decide (k < 4)) s (dbgStep s b k)

/-- R358: debug command resume. (DBG_RESUME) -/
def execDbgResume (b k : Nat) (s : State) : Host.Outcome State Fault Refusal :=
  device (decide (b < 96) && decide (k < 4)) s (dbgResume s b k)

/-- R361: a TDISP LOCK request; ide: the selective IDE stream is established. (TDISP_LOCK) -/
def execTdispLock (fn : Nat) (ide : Bool) (s : State) : Host.Outcome State Fault Refusal :=
  device (decide (fn ≤ 192)) s (tdispLock s fn ide)

/-- R361: the function enters RUN. (TDISP_RUN) -/
def execTdispRun (fn : Nat) (s : State) : Host.Outcome State Fault Refusal :=
  device (decide (fn ≤ 192)) s (tdispRun s fn)

/-- R361: the function enters ERROR. (TDISP_ERROR) -/
def execTdispError (fn : Nat) (s : State) : Host.Outcome State Fault Refusal :=
  device (decide (fn ≤ 192)) s (tdispError s fn)

/-- R366: received data of the function fails its check. (IDE_INTEGRITY_FAIL) -/
def execIdeIntegrityFail (fn : Nat) (s : State) : Host.Outcome State Fault Refusal :=
  device (decide (fn ≤ 192)) s (ideFail s fn)

/-- R362: a write of PART_ASSIGN. (PART_ASSIGN_WRITE) -/
def execPartAssignWrite (fn : Nat) (v : BitVec 8) (s : State) : Host.Outcome State Fault Refusal :=
  device (decide (fn ≤ 192)) s (writeAssign s fn v)

/-- R365, R366: a host read (no data) or write of len bytes. (HOST_MEMORY_REQUEST) -/
def execHostMemoryRequest (fn : Nat) (cxlMem : Bool) (addr : Nat) (len : Nat) (data : Option (List (BitVec 8))) (s : State) : Host.Outcome State Fault Refusal :=
  device (decide (fn ≤ 192)) s (hostRequest s fn cxlMem addr len data)

/-- R367: a write of QCFG or JCFG. (QCFG_WRITE) -/
def execQcfgWrite (fn : Nat) (journal : Bool) (v : Word) (s : State) : Host.Outcome State Fault Refusal :=
  device (decide (fn ≤ 192)) s (writeQcfg s fn journal v)

/-- R367, R368: a write of QTAIL. (QTAIL_WRITE) -/
def execQtailWrite (fn : Nat) (v : Word) (s : State) : Host.Outcome State Fault Refusal :=
  device (decide (fn ≤ 192)) s (writeQtail s fn v)

/-- R370: the accepted host command LAUNCH with journal sequence seq begins. (HOST_LAUNCH) -/
def execHostLaunch (fn seq : Nat) (s : State) : Host.Outcome State Fault Refusal :=
  device (decide (fn ≤ 192)) s (beginCmd s fn 1 seq runLaunch)

/-- R370: the accepted host command GIVE with journal sequence seq begins. (HOST_GIVE) -/
def execHostGive (fn seq : Nat) (s : State) : Host.Outcome State Fault Refusal :=
  device (decide (fn ≤ 192)) s (beginCmd s fn 2 seq runGive)

/-- R370: the accepted host command QUIESCE with journal sequence seq begins. (HOST_QUIESCE) -/
def execHostQuiesce (fn seq : Nat) (s : State) : Host.Outcome State Fault Refusal :=
  device (decide (fn ≤ 192)) s (beginCmd s fn 3 seq runQuiesce)

/-- R370: the accepted host command RESUME with journal sequence seq begins. (HOST_RESUME) -/
def execHostResume (fn seq : Nat) (s : State) : Host.Outcome State Fault Refusal :=
  device (decide (fn ≤ 192)) s (beginCmd s fn 4 seq runResume)

/-- R370: the accepted host command REPORT with journal sequence seq begins. (HOST_REPORT) -/
def execHostReport (fn seq : Nat) (s : State) : Host.Outcome State Fault Refusal :=
  device (decide (fn ≤ 192)) s (beginCmd s fn 5 seq (runReport fn))

/-- R370: the accepted host command TEARDOWN with journal sequence seq begins. (HOST_TEARDOWN) -/
def execHostTeardown (fn seq : Nat) (s : State) : Host.Outcome State Fault Refusal :=
  device (decide (fn ≤ 192)) s (beginCmd s fn 6 seq runTeardown)

/-- R368: a host command whose outcome stands completes. (COMMAND_COMPLETE) -/
def execCommandComplete (fn seq : Nat) (s : State) : Host.Outcome State Fault Refusal :=
  device (decide (fn ≤ 192)) s (completeCmd s fn seq)

/-- R376: an addition to the declassify list. (DECLASSIFY_ADD) -/
def execDeclassifyAdd (world base log2 : Nat) (s : State) : Host.Outcome State Fault Refusal :=
  device (decide (world ≤ 192)) s (addDeclass s world base log2)

/-- R376: a removal from the declassify list. (DECLASSIFY_REMOVE) -/
def execDeclassifyRemove (world base log2 : Nat) (s : State) : Host.Outcome State Fault Refusal :=
  device (decide (world ≤ 192)) s (dropDeclass s world base log2)

/-- R378: raised floors of a counter pair are in flash. (FLOOR_RAISE_DONE) -/
def execFloorRaiseDone (world region : Nat) (s : State) : Host.Outcome State Fault Refusal :=
  device (decide (world ≤ 192)) s (raiseFloor s world region)

/-- R384: a SCRUB_PROG write with START. (SCRUB_PROG_START) -/
def execScrubProgStart (p : Nat) (v : Word) (s : State) : Host.Outcome State Fault Refusal :=
  device (decide (p < 12)) s (writeScrub s p v true)

/-- R384: a SCRUB_PROG write without START. (SCRUB_PROG_SELECT) -/
def execScrubProgSelect (p : Nat) (v : Word) (s : State) : Host.Outcome State Fault Refusal :=
  device (decide (p < 12)) s (writeScrub s p v false)

/-- R385: a teardown enters PHASE 2. (TEARDOWN_PHASE2) -/
def execTeardownPhase2 (w : Nat) (s : State) : Host.Outcome State Fault Refusal :=
  device (decide (w ≤ 192)) s (phase2 s w)

/-- R385: a teardown enters PHASE 3. (TEARDOWN_PHASE3) -/
def execTeardownPhase3 (w : Nat) (s : State) : Host.Outcome State Fault Refusal :=
  device (decide (w ≤ 192)) s (phase3 s w)

/-- R388: a partition reset. (PARTITION_RESET) -/
def execPartitionReset (p : Nat) (s : State) : Host.Outcome State Fault Refusal :=
  device (decide (p < 12)) s (resetPartition s p)

/-- R403, R421: power-on. (POWER_ON) -/
def execPowerOn (s : State) : Host.Outcome State Fault Refusal :=
  device true s (powerUp s)

/-- R421: a new configuration blob is delivered. (CONFIG_UPDATE) -/
def execConfigUpdate (verifies : Bool) (boot version : Nat) (s : State) : Host.Outcome State Fault Refusal :=
  device true s (updateConfig s verifies boot version)

/-- R213: the loader places an Aidin object for a world from virtual address base. (AIDIN_LOAD) -/
def execAidinLoad (p world base : Nat) (object : List (BitVec 8)) (s : State) : Host.Outcome State Fault Refusal :=
  device (decide (p < 12) && decide (world ≤ 192)) s (loadAidin s p world base object)

/-- R200: a translated region is placed in the translation cache; entries give SAFE index and bundle. (NATIVE_TRANSLATE) -/
def execNativeTranslate (p world : Nat) (code region : BitVec 48) (entries : List (Nat × Nat)) (s : State) : Host.Outcome State Fault Refusal :=
  device (decide (p < 12) && decide (world ≤ 192)) s (translateNative s p world code region entries)

/-- R397: the fid core answers the n-th splice request. (SPLICE_ANSWER) -/
def execSpliceAnswer (n : Nat) (s : State) : Host.Outcome State Fault Refusal :=
  device true s (spliceAnswer s n)

/-- R408: a test slice runs on a unit; salvage names the token bases whose dirty lines are lost if it fails. (IFT_SLICE) -/
def execIftSlice (b unit : Nat) (pass : Bool) (salvage : List Nat) (s : State) : Host.Outcome State Fault Refusal :=
  device (decide (b < 96)) s (testSlice s b unit pass salvage)

/-- R408: the slice at INDEX found no gap within 1 s. (IFT_GAP_TIMEOUT) -/
def execIftGapTimeout (b : Nat) (s : State) : Host.Outcome State Fault Refusal :=
  device (decide (b < 96)) s (gapTimeout s b)

/-- R404: a shadow latch detects a late transition. (SHADOW_DETECT) -/
def execShadowDetect (b unit : Nat) (s : State) : Host.Outcome State Fault Refusal :=
  device (decide (b < 96)) s (detect s b unit)

/-- R405: a window write of CLR. (SHADOW_CNT_CLR) -/
def execShadowCntClr (b : Nat) (s : State) : Host.Outcome State Fault Refusal :=
  device (decide (b < 96)) s (writeBraidReg s b none 0x26 1)

/-- R406: a replica path warns. (REPLICA_WARN) -/
def execReplicaWarn (b : Nat) (s : State) : Host.Outcome State Fault Refusal :=
  device (decide (b < 96)) s (warn s b)

/-- R407: a supply sag. (SUPPLY_SAG) -/
def execSupplySag (b : Nat) (s : State) : Host.Outcome State Fault Refusal :=
  device (decide (b < 96)) s (setSag s b true)

/-- R414: an HBM cell error in the granule of pa. (HBM_ECC_ERROR) -/
def execHbmEccError (pa beat bit : Nat) (unc : Bool) (agents : List (BitVec 24)) (s : State) : Host.Outcome State Fault Refusal :=
  device true s (hbmEcc s pa beat bit unc agents)

/-- R415: a vertical-bus transfer fails parity on `fails` of its attempts; single: the lane test names one lane. (HBM_PARITY_FAIL) -/
def execHbmParityFail (pa beat lane fails : Nat) (single : Bool) (agents : List (BitVec 24)) (s : State) : Host.Outcome State Fault Refusal :=
  device true s (hbmParity s pa beat lane fails single agents)

/-- R411: an uncorrectable error in a register word (file 0 s and o, 1 k, 2 tile row, 3 accumulator row). (REGISTER_ECC_ERROR) -/
def execRegisterEccError (b k : Nat) (file idx : Nat) (s : State) : Host.Outcome State Fault Refusal :=
  device (decide (b < 96) && decide (k < 4)) s (registerError s b k file idx)

/-- R410: a parity error in a key slot. (KEY_SLOT_PARITY_ERROR) -/
def execKeySlotParityError (b n : Nat) (s : State) : Host.Outcome State Fault Refusal :=
  device (decide (b < 96)) s (keyParity s b n)

/-- R417: a write of CLR to ERR_LOG_CELL. (ERR_LOG_CELL_CLR) -/
def execErrLogCellClr  (s : State) : Host.Outcome State Fault Refusal :=
  device true s ({ s with errCell := 0 })

/-- R418: a write of CLR to ERR_LOG_XFER. (ERR_LOG_XFER_CLR) -/
def execErrLogXferClr  (s : State) : Host.Outcome State Fault Refusal :=
  device true s ({ s with errXfer := 0 })

/-- R245, R246, R357, R363: a write of a register with no row of its own; num names the register (log 5). (REGISTER_WRITE) -/
def execRegisterWrite (unit num : Nat) (v : Word) (s : State) : Host.Outcome State Fault Refusal :=
  device true s (writeRegister s unit num v)

/-- R83: the page walk the bundle of the strand waits on completes. (PAGE_WALK_DONE) -/
def execPageWalkDone (b k : Nat) (s : State) : Host.Outcome State Fault Refusal :=
  device (decide (b < 96) && decide (k < 4)) s (walkDone s b k)

/-- R63: the instruction fetch the strand waits on completes. (INSTRUCTION_FETCH_MISS_DONE) -/
def execInstructionFetchMissDone (b k : Nat) (s : State) : Host.Outcome State Fault Refusal :=
  device (decide (b < 96) && decide (k < 4)) s (fetchDone s b k)

/-- R127: the fid core marks a down link up. (LINK_MARK_UP) -/
def execLinkMarkUp (link rankAB rankBA lanesAB lanesBA : Nat) (s : State) : Host.Outcome State Fault Refusal :=
  device true s (linkUp s link rankAB rankBA lanesAB lanesBA)

/-- R361: the function returns to CONFIG_UNLOCKED. (TDISP_UNLOCK) -/
def execTdispUnlock (fn : Nat) (s : State) : Host.Outcome State Fault Refusal :=
  device (decide (fn ≤ 192)) s (tdispUnlock s fn)

/-- R72, R410: an uncorrectable error in a slab byte, or in an entry of a FIFO bank. (SLAB_UNCORRECTABLE_ERROR) -/
def execSlabUncorrectableError (b : Nat) (fifo : Bool) (id : Nat) (s : State) : Host.Outcome State Fault Refusal :=
  device (decide (b < 96)) s (slabError s b fifo id)

/-- R410: an uncorrectable error in a table entry (table 0 owner tokens of slice b, 1 route book, 2 slab table, 3 timing table). (TABLE_UNCORRECTABLE_ERROR) -/
def execTableUncorrectableError (b table idx : Nat) (s : State) : Host.Outcome State Fault Refusal :=
  device (decide (b < 96)) s (tableError s b table idx)

/-- R407: the supply recovers. (SUPPLY_RECOVERY) -/
def execSupplyRecovery (b : Nat) (s : State) : Host.Outcome State Fault Refusal :=
  device (decide (b < 96)) s (setSag s b false)

/-- R51: a graph is submitted under a phase. (GRAPH_SUBMIT) -/
def execGraphSubmit (p parent : Nat) (nodes : List GraphNode) (s : State) : Host.Outcome State Fault Refusal :=
  device (decide (p < 12)) s (submitGraph s p parent nodes)

end Sys2Proof.Machine
end

