-- ==== Sys2Proof/Machine/Auxiliary.lean ====
section
/-!
DEFINITION. Slot F (R334 to R341): the scope prefix, scale loads, format registers, converters, special functions, timing reads, hints, the seed.
-/

namespace Sys2Proof.Machine

/-- SCOPE has no work of its own: its code is the scope of its bundle (R109, R334). -/
def scopeOp (_f : FmtFS) (_x : Ctx) : SlotOp := nopOp 7

/-! Scale loads (R335, R146). -/

/-- An SCLD's bytes are written at c + LATENCY; where its request is held, the registers it has yet to write are still read as they stand. -/
def Ctx.sendScale (x : Ctx) (q : Req) (s : State) : State :=
  let l := x.br.latency 17
  match reqHeld s x.b x.k x.world q with
  | some (s, i, lost) => s.holdReq x.b x.k { dests := [], effs := [], tok := none, req := some (i, q), due := some (x.st.clk + l), lost := lost }
  | none =>
    let (s', es) := q.performBy s x.b x.k
    s'.modStrand x.b x.k fun t => t.addPends l es

def scldOp (f : FmtFL) (x : Ctx) : SlotOp :=
  let m : MemOp := { slot := 7, va := (x.opnd f.base).toNat, size := 256, acc := .load, dbg := false, cls := f.cls.toNat }
  memOp x m f.pred [f.base] [] [] (some 17) (x.sendScale (x.mkReq m 32 0 0 0 f.z.toNat 0))

/-! Format registers (R336). -/

def fmtwOp (f : FmtFW) (x : Ctx) : SlotOp where
  slot := 7
  runs := x.on f.pred
  guard := f.pred
  reads := x.resOf f.pred [f.a]
  dests := [.fmt f.f.toNat]
  traps := x.latchTraps 7 [f.a]
  eff := x.mod fun t => { t with r := { t.r with fmt := Store.set t.r.fmt f.f.toNat ((x.opnd f.a).setWidth 32) 0 } }

/-- A result of slot F that the next bundle sees, with the latch. -/
def auxScalar (x : Ctx) (pred : BitVec 3) (d : BitVec 6) (os : List Operand) (reads : List Res) (traps : List Trap) (v : Word) : SlotOp where
  slot := 7
  runs := x.on pred
  guard := pred
  reads := x.resOf pred os ++ reads
  dests := [.x (x.r.cellX d.toNat)]
  traps := x.latchTraps 7 os ++ traps
  eff := x.mod fun t => t.addPends 1 [.x (x.r.cellX d.toNat) v, .latch 7 v x.st.c.gen]

/-- FMTR reads the register, so it must be valid (R141, R142; log 59, DEDUCED). -/
def fmtrOp (f : FmtFR) (x : Ctx) : SlotOp :=
  let v := Store.get x.r.fmt f.f.toNat 0
  { auxScalar x f.pred f.dst [] [.fmt f.f.toNat] (trapIf (!fmtValid v) { cause := 0x16, step := 6, slot := 7 }) (v.setWidth 64) with
    early := x.fabTraps 7 v }

def ttrdOp (f : FmtFT) (x : Ctx) : SlotOp :=
  let v := (x.opnd f.a).toNat
  auxScalar x f.pred f.dst [f.a] [] (trapIf (63 < v) { cause := 0x16, step := 6, slot := 7 }) ((x.br.timingOf v).setWidth 64)

/-! Converters (R337, R394). -/

/-- A lane of a decode table as f32. -/
def decodeLane (tab cw c : Nat) : Nat := f32.encode .rne (tableNum (tab / 2 ^ (32 * (c % 2 ^ cw)) % 2 ^ 32))

/-- The row FBX writes and the bits it writes: an even id encodes, an odd one decodes. -/
def fbxRow (i : SpliceImage) (id : Nat) (src : Row) : Row × Row :=
  let tab := i.table.foldr (fun e a => a * 2 ^ 32 + e.toNat) 0
  if id % 2 = 0 then
    let w := if i.csrc = 0 then 32 else 16
    let n := if i.csrc = 0 then 64 else 128
    (packLanes 8 ((lanesOf w src).map fun c => Config.converterCode i.id c % 2 ^ i.cw), enableRow 8 (List.replicate n true))
  else (packLanes 32 (((lanesOf 8 src).take 64).map (decodeLane tab i.cw)), rowOnes)

def fbxOp (f : FmtFB) (x : Ctx) : SlotOp :=
  let i := x.rowIndex f.row
  let img := (x.br.converter f.id.toNat).bind fun id => x.s.flash.find? (·.id == id)
  { slot := 7
    runs := x.on f.pred
    guard := f.pred
    reads := x.resOf f.pred [] ++ [.row f.ta.toNat i]
    dests := [.row f.td.toNat i]
    early := x.featTrap 7 0 ++ trapIf (x.br.converter f.id.toNat).isNone { cause := 0x02, step := 2, slot := 7 }
    eff := x.mod fun t => match img with
      | some g =>
        let (v, m) := fbxRow g f.id.toNat (x.r.tileRow f.ta.toNat i)
        t.addPend (x.br.latency 22) (.tile f.td.toNat i v m)
      | none => t
    cls := some 22 }

/-! Special functions (R338, R158, R159). -/

def sfnOp (g : Nat → Nat) (f : FmtFF) (x : Ctx) : SlotOp :=
  let i := x.rowIndex f.row
  { slot := 7
    runs := x.on f.pred
    guard := f.pred
    reads := x.resOf f.pred [] ++ [.row f.ta.toNat i]
    dests := [.row f.td.toNat i]
    early := x.featTrap 7 1
    eff := x.mod fun t => t.addPend (x.br.latency 16) (.tile f.td.toNat i (packLanes 32 ((lanesOf 32 (x.r.tileRow f.ta.toNat i)).map g)) rowOnes)
    cls := some 16 }

def fexp2Op (f : FmtFF) (x : Ctx) : SlotOp := sfnOp fexp2 f x
def flog2Op (f : FmtFF) (x : Ctx) : SlotOp := sfnOp flog2 f x
def frcpOp (f : FmtFF) (x : Ctx) : SlotOp := sfnOp frcp f x
def frsqOp (f : FmtFF) (x : Ctx) : SlotOp := sfnOp frsq f x
def fsqrtOp (f : FmtFF) (x : Ctx) : SlotOp := sfnOp fsqrt f x
def ftanhOp (f : FmtFF) (x : Ctx) : SlotOp := sfnOp ftanh f x
def fsigOp (f : FmtFF) (x : Ctx) : SlotOp := sfnOp fsig f x

/-! Hints and the seed (R340, R341). -/

def hintOp (f : FmtFH) (x : Ctx) : SlotOp where
  slot := 7
  runs := x.on f.pred
  guard := f.pred
  reads := x.resOf f.pred []

/-- The generator's state from a seed (R155): it is never zero. -/
def seedOf (v : Word) : BitVec 32 := if v.setWidth 32 = (0 : BitVec 32) then 0x6D2B79F5 else v.setWidth 32

def seedwOp (f : FmtFD) (x : Ctx) : SlotOp where
  slot := 7
  runs := x.on f.pred
  guard := f.pred
  reads := x.resOf f.pred [f.a]
  traps := x.latchTraps 7 [f.a]
  eff := x.mod fun t => { t with r := { t.r with stoch := seedOf (x.opnd f.a) } }

/-! The meanings of slot F. -/

def execNopF (s : State) : Host.Outcome State Fault Refusal := issueOne .nopF (fun _ => nopOp 7) s
def execScope (f : FmtFS) (s : State) : Host.Outcome State Fault Refusal := issueOne (.scope f) (scopeOp f) s
def execScld (f : FmtFL) (s : State) : Host.Outcome State Fault Refusal := issueOne (.scld f) (scldOp f) s
def execFmtw (f : FmtFW) (s : State) : Host.Outcome State Fault Refusal := issueOne (.fmtw f) (fmtwOp f) s
def execFmtr (f : FmtFR) (s : State) : Host.Outcome State Fault Refusal := issueOne (.fmtr f) (fmtrOp f) s
def execFbx (f : FmtFB) (s : State) : Host.Outcome State Fault Refusal := issueOne (.fbx f) (fbxOp f) s
def execFexp2 (f : FmtFF) (s : State) : Host.Outcome State Fault Refusal := issueOne (.fexp2 f) (fexp2Op f) s
def execFlog2 (f : FmtFF) (s : State) : Host.Outcome State Fault Refusal := issueOne (.flog2 f) (flog2Op f) s
def execFrcp (f : FmtFF) (s : State) : Host.Outcome State Fault Refusal := issueOne (.frcp f) (frcpOp f) s
def execFrsq (f : FmtFF) (s : State) : Host.Outcome State Fault Refusal := issueOne (.frsq f) (frsqOp f) s
def execFsqrt (f : FmtFF) (s : State) : Host.Outcome State Fault Refusal := issueOne (.fsqrt f) (fsqrtOp f) s
def execFtanh (f : FmtFF) (s : State) : Host.Outcome State Fault Refusal := issueOne (.ftanh f) (ftanhOp f) s
def execFsig (f : FmtFF) (s : State) : Host.Outcome State Fault Refusal := issueOne (.fsig f) (fsigOp f) s
def execTtrd (f : FmtFT) (s : State) : Host.Outcome State Fault Refusal := issueOne (.ttrd f) (ttrdOp f) s
def execHint (f : FmtFH) (s : State) : Host.Outcome State Fault Refusal := issueOne (.hint f) (hintOp f) s
def execSeedw (f : FmtFD) (s : State) : Host.Outcome State Fault Refusal := issueOne (.seedw f) (seedwOp f) s

end Sys2Proof.Machine
end

