-- ==== Sys2Proof/Machine/Scalar.lean ====
section
/-!
DEFINITION. Slots A and B (R234 to R250): integer and floating-point operations, staging and system registers, predicates, RDCYC, PARAM.
-/

namespace Sys2Proof.Machine

/-! Results (R235, R236, R239). -/

def wMulHi (sgn : Bool) (a b : Word) : Word :=
  if sgn then BitVec.ofInt 64 ((a.toInt * b.toInt) / 2 ^ 64) else BitVec.ofNat 64 (a.toNat * b.toNat / 2 ^ 64)

/-- Quotient and remainder (R236): never a trap. -/
def wDivRem (sgn : Bool) (a b : Word) : Word × Word :=
  if b = 0 then (BitVec.allOnes 64, a)
  else if sgn then (BitVec.ofInt 64 (a.toInt.tdiv b.toInt), BitVec.ofInt 64 (a.toInt.tmod b.toInt))
  else (BitVec.ofNat 64 (a.toNat / b.toNat), BitVec.ofNat 64 (a.toNat % b.toNat))

/-- A shift amount: b[5:0] (R235). -/
def shAmt (b : Word) : Nat := b.toNat % 64

/-- Leading and trailing zeros, ones. -/
def wClz (a : Word) : Nat := if a = 0 then 64 else 63 - Nat.log2 a.toNat
def wCtz (a : Word) : Nat := ((List.range 64).find? a.getLsbD).getD 64
def wPopc (a : Word) : Nat := (List.range 64).countP a.getLsbD

/-- Position and length of a field (R239). -/
def fieldOf (c : Word) : Nat × Nat :=
  let pos := bits c 0 6
  let len := bits c 6 6 + 1
  (pos, if 64 < pos + len then 64 - pos else len)

def wExt (sgn : Bool) (a c : Word) : Word :=
  let (pos, len) := fieldOf c
  let v := bits a pos len
  if sgn && 2 ^ (len - 1) ≤ v then BitVec.ofInt 64 ((v : Int) - 2 ^ len) else BitVec.ofNat 64 v

def wIns (d a c : Word) : Word :=
  let (pos, len) := fieldOf c
  let m : Word := BitVec.ofNat 64 ((2 ^ len - 1) * 2 ^ pos)
  (d &&& ~~~ m) ||| (BitVec.ofNat 64 (a.toNat * 2 ^ pos) &&& m)

/-- An integer condition (R175). -/
def condInt (c : BitVec 3) (a b : Word) : Bool :=
  match c.toNat with
  | 0 => a == b
  | 1 => a != b
  | 2 => decide (a.toInt < b.toInt)
  | 3 => decide (a.toInt ≤ b.toInt)
  | 4 => decide (a.toNat < b.toNat)
  | 5 => decide (a.toNat ≤ b.toNat)
  | 6 => decide (b.toInt < a.toInt)
  | _ => decide (b.toInt ≤ a.toInt)

/-- A binary32 condition (R175, R242); codes 6 and 7 do not decode. -/
def condF32 (c : BitVec 3) (a b : Nat) : Bool :=
  match c.toNat with
  | 0 => f32.eqv a b
  | 1 => !f32.eqv a b
  | 2 => f32.lt a b
  | 3 => f32.le a b
  | 4 => f32.lt b a
  | _ => f32.le b a

/-- Bits 31 to 0 of an operand, for binary32 (R241). -/
def lo32 (v : Word) : Nat := v.toNat % 2 ^ 32

/-! FCVT (R153, R154, R243). -/

def cvtSource (ty : Nat) (a : Word) : Num :=
  match ty with
  | 0 => f32.decode (a.toNat % 2 ^ 32)
  | 1 => bf16.decode (a.toNat % 2 ^ 16)
  | 2 => f16.decode (a.toNat % 2 ^ 16)
  | 3 => Num.ofInt (BitVec.ofNat 32 a.toNat).toInt
  | 4 => Num.ofInt (a.toNat % 2 ^ 32)
  | 5 => Num.ofInt a.toInt
  | _ => Num.ofInt a.toNat

def cvtResult (ty : Nat) (r : Rnd) (v : Num) : Word :=
  match ty with
  | 0 => BitVec.ofNat 64 (f32.encode r v)
  | 1 => BitVec.ofNat 64 (bf16.encode r v)
  | 2 => BitVec.ofNat 64 (f16.encode r v)
  | 3 => BitVec.ofInt 64 (toIntSat true 32 r v)
  | 4 => BitVec.ofInt 64 (toIntSat false 32 r v)
  | 5 => BitVec.ofInt 64 (toIntSat true 64 r v)
  | _ => BitVec.ofInt 64 (toIntSat false 64 r v)

/-! Forms of slots A and B. -/

/-- The operand fields an operation with an optional long immediate reads. -/
def osL (a b : Operand) (lng : Option (BitVec 32)) : List Operand := if lng.isSome then [a] else [a, b]

/-- R format (R174): a function of the two operands. -/
def arOp (cls : Nat) (g : Word → Word → Word) (f : FmtAR) (x : Ctx) : SlotOp :=
  scalarOp x f.sl.num f.pred f.ws f.dst.toNat cls (osL f.a f.b f.lng) (g (x.opnd f.a) (x.opndL f.b f.lng))

def axOp (g : Word → Word → Word) (f : FmtAX) (x : Ctx) : SlotOp :=
  scalarOp x f.sl.num f.pred f.ws f.dst.toNat 0 [f.a, f.b] (g (x.opnd f.a) (x.opnd f.b))

def aiOp (g : Word → Word → Word) (f : FmtAI) (x : Ctx) : SlotOp :=
  scalarOp x f.sl.num f.pred f.ws f.dst.toNat 0 [f.a] (g (x.opnd f.a) (immL f.imm f.lng))

def asOp (g : Word → Nat → Word) (f : FmtAS) (x : Ctx) : SlotOp :=
  scalarOp x f.sl.num f.pred f.ws f.dst.toNat 0 [f.a] (g (x.opnd f.a) f.n.toNat)

def auOp (g : Word → Nat) (f : FmtAU) (x : Ctx) : SlotOp :=
  scalarOp x f.sl.num f.pred f.ws f.dst.toNat 0 [f.a] (BitVec.ofNat 64 (g (x.opnd f.a)))

/-- A binary32 operation under FRM (R241). -/
def afOp (g : Rnd → Nat → Nat → Nat) (f : FmtAR) (x : Ctx) : SlotOp :=
  arOp 3 (fun a b => BitVec.ofNat 64 (g (Rnd.ofArith x.r.frm) (lo32 a) (lo32 b))) f x

/-- Adds the destination to what an operation reads (R239 to R241). -/
def SlotOp.readsDst (o : SlotOp) (x : Ctx) (d : BitVec 6) : SlotOp := { o with reads := .x (x.r.cellX d.toNat) :: o.reads }

def addOp (f : FmtAR) (x : Ctx) : SlotOp := arOp 0 (· + ·) f x
def addiOp (f : FmtAI) (x : Ctx) : SlotOp := aiOp (· + ·) f x
def subOp (f : FmtAR) (x : Ctx) : SlotOp := arOp 0 (· - ·) f x
def mulOp (f : FmtAR) (x : Ctx) : SlotOp := arOp 1 (· * ·) f x
def mulhIOp (f : FmtAR) (x : Ctx) : SlotOp := arOp 1 (wMulHi true) f x
def mulhWOp (f : FmtAR) (x : Ctx) : SlotOp := arOp 1 (wMulHi false) f x
def divIOp (f : FmtAR) (x : Ctx) : SlotOp := arOp 2 (fun a b => (wDivRem true a b).1) f x
def divWOp (f : FmtAR) (x : Ctx) : SlotOp := arOp 2 (fun a b => (wDivRem false a b).1) f x
def remIOp (f : FmtAR) (x : Ctx) : SlotOp := arOp 2 (fun a b => (wDivRem true a b).2) f x
def remWOp (f : FmtAR) (x : Ctx) : SlotOp := arOp 2 (fun a b => (wDivRem false a b).2) f x
def andOp (f : FmtAR) (x : Ctx) : SlotOp := arOp 0 (· &&& ·) f x
def orOp (f : FmtAR) (x : Ctx) : SlotOp := arOp 0 (· ||| ·) f x
def xorOp (f : FmtAR) (x : Ctx) : SlotOp := arOp 0 (· ^^^ ·) f x
def andnOp (f : FmtAR) (x : Ctx) : SlotOp := arOp 0 (fun a b => a &&& ~~~ b) f x
def andiOp (f : FmtAI) (x : Ctx) : SlotOp := aiOp (· &&& ·) f x
def oriOp (f : FmtAI) (x : Ctx) : SlotOp := aiOp (· ||| ·) f x
def xoriOp (f : FmtAI) (x : Ctx) : SlotOp := aiOp (· ^^^ ·) f x
def shlOp (f : FmtAX) (x : Ctx) : SlotOp := axOp (fun a b => a <<< shAmt b) f x
def shrOp (f : FmtAX) (x : Ctx) : SlotOp := axOp (fun a b => a >>> shAmt b) f x
def sarOp (f : FmtAX) (x : Ctx) : SlotOp := axOp (fun a b => a.sshiftRight (shAmt b)) f x
def rolOp (f : FmtAX) (x : Ctx) : SlotOp := axOp (fun a b => a.rotateLeft (shAmt b)) f x
def shliOp (f : FmtAS) (x : Ctx) : SlotOp := asOp (fun a n => a <<< n) f x
def shriOp (f : FmtAS) (x : Ctx) : SlotOp := asOp (fun a n => a >>> n) f x
def sariOp (f : FmtAS) (x : Ctx) : SlotOp := asOp (fun a n => a.sshiftRight n) f x
def clzOp (f : FmtAU) (x : Ctx) : SlotOp := auOp wClz f x
def ctzOp (f : FmtAU) (x : Ctx) : SlotOp := auOp wCtz f x
def popcOp (f : FmtAU) (x : Ctx) : SlotOp := auOp wPopc f x
def minIOp (f : FmtAR) (x : Ctx) : SlotOp := arOp 0 (fun a b => if a.toInt ≤ b.toInt then a else b) f x
def maxIOp (f : FmtAR) (x : Ctx) : SlotOp := arOp 0 (fun a b => if a.toInt ≤ b.toInt then b else a) f x
def minWOp (f : FmtAR) (x : Ctx) : SlotOp := arOp 0 (fun a b => if a.toNat ≤ b.toNat then a else b) f x
def maxWOp (f : FmtAR) (x : Ctx) : SlotOp := arOp 0 (fun a b => if a.toNat ≤ b.toNat then b else a) f x

def cmpOp (f : FmtAC) (x : Ctx) : SlotOp :=
  predOp x f.sl.num f.pred f.ws f.pd.toNat 0 (osL f.a f.b f.lng) (condInt f.cond (x.opnd f.a) (x.opndL f.b f.lng))
def cmpiOp (f : FmtACI) (x : Ctx) : SlotOp :=
  predOp x f.sl.num f.pred f.ws f.pd.toNat 0 [f.a] (condInt f.cond (x.opnd f.a) (immL f.imm f.lng))

/-- SEL reads its predicate as a selector and is never suppressed (R238). -/
def selOp (f : FmtAR) (x : Ctx) : SlotOp :=
  { scalarOp x f.sl.num f.pred f.ws f.dst.toNat 0 (osL f.a f.b f.lng) (if x.on f.pred then x.opnd f.a else x.opndL f.b f.lng) with runs := true }

def extIOp (f : FmtAX) (x : Ctx) : SlotOp := axOp (wExt true) f x
def extWOp (f : FmtAX) (x : Ctx) : SlotOp := axOp (wExt false) f x
def insOp (f : FmtAX) (x : Ctx) : SlotOp := (axOp (wIns (x.r.getX f.dst.toNat)) f x).readsDst x f.dst

def movlOp (f : FmtAL) (x : Ctx) : SlotOp := scalarOp x f.sl.num f.pred f.ws f.dst.toNat 0 [] (f.lng.setWidth 64)
def movhOp (f : FmtAL) (x : Ctx) : SlotOp :=
  (scalarOp x f.sl.num f.pred f.ws f.dst.toNat 0 [] (BitVec.ofNat 64 (lo32 (x.r.getX f.dst.toNat) + f.lng.toNat * 2 ^ 32))).readsDst x f.dst

def faddOp (f : FmtAR) (x : Ctx) : SlotOp := afOp f32.add f x
def fsubOp (f : FmtAR) (x : Ctx) : SlotOp := afOp f32.sub f x
def fmulOp (f : FmtAR) (x : Ctx) : SlotOp := afOp f32.mul f x
def fmacOp (f : FmtAR) (x : Ctx) : SlotOp :=
  (afOp (fun r a b => f32.fma r (lo32 (x.r.getX f.dst.toNat)) a b) f x).readsDst x f.dst
def fminOp (f : FmtAR) (x : Ctx) : SlotOp := afOp (fun _ => f32.min) f x
def fmaxOp (f : FmtAR) (x : Ctx) : SlotOp := afOp (fun _ => f32.max) f x
def fcmpOp (f : FmtAC) (x : Ctx) : SlotOp :=
  predOp x f.sl.num f.pred f.ws f.pd.toNat 3 (osL f.a f.b f.lng) (condF32 f.cond (lo32 (x.opnd f.a)) (lo32 (x.opndL f.b f.lng)))

/-- FCVT draws once under STOCH, in slot order (R154, R156). -/
def fcvtOp (f : FmtAV) (x : Ctx) : SlotOp :=
  let v := cvtSource f.cvFrom.toNat (x.opnd f.a)
  { scalarOp x f.sl.num f.pred f.ws f.dst.toNat 3 [f.a] 0 with
    eff := fun s =>
      let (r, st) := Rnd.ofConv x.r.frm (s.strand x.b x.k).r.stoch
      x.putX f.sl.num f.ws f.dst.toNat 3 (cvtResult f.cvTo.toNat r v) (x.mod (fun t => { t with r := { t.r with stoch := st } }) s) }

/-! Staging, system registers, predicates (R244 to R250): slot B. -/

def kwOp (f : FmtBKw) (x : Ctx) : SlotOp where
  slot := 2
  runs := x.on f.pred
  guard := f.pred
  reads := x.resOf f.pred (if f.lng.isSome then [] else [f.b])
  dests := if f.ws then [] else [.k f.k.toNat]
  traps := x.latchTraps 2 (if f.lng.isSome then [] else [f.b])
  eff := if f.ws then id else x.mod fun t => t.addPend (x.br.latency 0) (.k f.k.toNat (x.opndL f.b f.lng))
  cls := some 0

def krOp (f : FmtBKr) (x : Ctx) : SlotOp :=
  let o := scalarOp x 2 f.pred f.ws f.dst.toNat 0 [] (Store.get x.r.k f.k.toNat 0)
  { o with reads := .k f.k.toNat :: o.reads }

/-- The decode-time causes of GSR and SSR (R245). -/
def Ctx.sysEarly (x : Ctx) (n : Nat) : List Trap :=
  if sysAssigned n then (if sysSupv n then x.privTrap 2 else []) else [{ cause := 0x02, step := 2, slot := 2 }]

def gsrOp (f : FmtBG) (x : Ctx) : SlotOp :=
  { scalarOp x 2 f.pred f.ws f.dst.toNat 0 [] (x.readSys f.num.toNat) with early := x.sysEarly f.num.toNat }

def ssrOp (f : FmtBS) (x : Ctx) : SlotOp where
  slot := 2
  runs := x.on f.pred
  guard := f.pred
  reads := x.resOf f.pred [f.b]
  early := x.sysEarly f.num.toNat
  traps := x.latchTraps 2 [f.b]
  eff := x.writeSys f.num.toNat (x.opnd f.b)
  cls := some 0

/-- Predicates read by predicate logic (R247). -/
def Ctx.predRes (x : Ctx) (ps : List (BitVec 3)) : List Res := ps.map fun p => .p (x.r.cellP p.toNat)

def pOp (x : Ctx) (pred : BitVec 3) (ws : Bool) (pd : BitVec 3) (srcs : List (BitVec 3)) (v : Bool) : SlotOp :=
  let o := predOp x 2 pred ws pd.toNat 0 [] v
  { o with reads := x.predRes srcs ++ o.reads }

def pandOp (f : FmtBP2) (x : Ctx) : SlotOp := pOp x f.pred f.ws f.pd [f.pa, f.pb] (x.on f.pa && x.on f.pb)
def porOp (f : FmtBP2) (x : Ctx) : SlotOp := pOp x f.pred f.ws f.pd [f.pa, f.pb] (x.on f.pa || x.on f.pb)
def pxorOp (f : FmtBP2) (x : Ctx) : SlotOp := pOp x f.pred f.ws f.pd [f.pa, f.pb] (x.on f.pa != x.on f.pb)
def pnotOp (f : FmtBP1) (x : Ctx) : SlotOp := pOp x f.pred f.ws f.pd [f.pa] (!x.on f.pa)

def pgetOp (f : FmtBD) (x : Ctx) : SlotOp :=
  let o := scalarOp x 2 f.pred f.ws f.dst.toNat 0 [] (x.r.predFile.setWidth 64)
  { o with reads := (List.range 8).map (fun i => .p (x.r.cellP i)) ++ o.reads }

/-- PSET (R248): each predicate its mask names. -/
def psetOp (f : FmtBPs) (x : Ctx) : SlotOp :=
  let v := x.opnd f.b
  let named := (List.range 8).filter fun i => i != 0 && f.msk.getLsbD i
  let file : BitVec 8 := (x.r.predFile &&& ~~~ f.msk) ||| (v.setWidth 8 &&& f.msk) ||| 1
  let writes := if f.ws then [] else named
  { slot := 2
    runs := x.on f.pred
    guard := f.pred
    reads := x.resOf f.pred [f.b] ++ (List.range 8).map (fun i => .p (x.r.cellP i))
    dests := writes.map fun i => .p (x.r.cellP i)
    traps := x.latchTraps 2 [f.b]
    eff := x.mod fun t => t.addPends (x.br.latency 0) (writes.map (fun i => .p (x.r.cellP i) (v.getLsbD i)) ++ [.latch 2 (file.setWidth 64) x.st.c.gen])
    cls := some 0 }

/-- RDCYC (R249): after a resume the value is free; a frozen strand's counter moves on. -/
def rdcycOp (f : FmtBD) (x : Ctx) : SlotOp :=
  let o := scalarOp x 2 f.pred f.ws f.dst.toNat 0 [] (if x.st.clkFree then Config.freeWord x.s.freeCtr else BitVec.ofNat 64 x.st.clk)
  { o with eff := fun s => o.eff (if x.st.clkFree then { s with freeCtr := s.freeCtr + 1 } else s) }

/-- The doubleword PARAM loads (R250): no owner token, and no data breakpoint, which is for slot M. -/
def Ctx.paramOp (x : Ctx) (i : Word) : MemOp :=
  { slot := 2, va := (dParams x.desc + 8 * i.toNat) % 2 ^ 64, size := 8, acc := .load, tok := false, dbg := false }

def paramOp (f : FmtBPm) (x : Ctx) : SlotOp :=
  let i := x.opnd f.a
  let m := match x.st.slot0.params with
    | some p => { x.paramOp i with va := (p.toNat + 8 * i.toNat) % 2 ^ 64 }
    | none => x.paramOp i
  let n := if x.st.slot0.params.isSome then 8 else dPcount x.desc
  let okI := decide (i.toNat < n)
  let cell := x.r.cellX f.dst.toNat
  let q := x.mkReq m 33 0 0 cell 0 0
  { slot := 2
    runs := x.on f.pred
    guard := f.pred
    reads := x.resOf f.pred [f.a]
    dests := (if f.ws then [] else [.x cell]) ++ [.latch 2]
    traps := x.latchTraps 2 [f.a] ++ (if okI then x.memTraps m else [{ cause := 0x16, step := 6, slot := 2 }])
    walks := if okI then [m.va] else []
    stage1 := okI && x.ownXfer m
    wait := okI && x.memWait m
    eff := fun s => x.send (if f.ws then { q with cell := 64 } else q) (x.useTlb m.va s)
    cls := some 4 }

/-! The meanings of slots A and B. -/

def nopAbOp (sl : ScalarSlot) (_x : Ctx) : SlotOp := nopOp sl.num

def execNop (sl : ScalarSlot) (s : State) : Host.Outcome State Fault Refusal := issueOne (.nop sl) (nopAbOp sl) s
def execAdd (f : FmtAR) (s : State) : Host.Outcome State Fault Refusal := issueOne (.add f) (addOp f) s
def execAddi (f : FmtAI) (s : State) : Host.Outcome State Fault Refusal := issueOne (.addi f) (addiOp f) s
def execSub (f : FmtAR) (s : State) : Host.Outcome State Fault Refusal := issueOne (.sub f) (subOp f) s
def execMul (f : FmtAR) (s : State) : Host.Outcome State Fault Refusal := issueOne (.mul f) (mulOp f) s
def execMulhI (f : FmtAR) (s : State) : Host.Outcome State Fault Refusal := issueOne (.mulhI f) (mulhIOp f) s
def execMulhW (f : FmtAR) (s : State) : Host.Outcome State Fault Refusal := issueOne (.mulhW f) (mulhWOp f) s
def execDivI (f : FmtAR) (s : State) : Host.Outcome State Fault Refusal := issueOne (.divI f) (divIOp f) s
def execDivW (f : FmtAR) (s : State) : Host.Outcome State Fault Refusal := issueOne (.divW f) (divWOp f) s
def execRemI (f : FmtAR) (s : State) : Host.Outcome State Fault Refusal := issueOne (.remI f) (remIOp f) s
def execRemW (f : FmtAR) (s : State) : Host.Outcome State Fault Refusal := issueOne (.remW f) (remWOp f) s
def execAnd (f : FmtAR) (s : State) : Host.Outcome State Fault Refusal := issueOne (.and f) (andOp f) s
def execOr (f : FmtAR) (s : State) : Host.Outcome State Fault Refusal := issueOne (.or f) (orOp f) s
def execXor (f : FmtAR) (s : State) : Host.Outcome State Fault Refusal := issueOne (.xor f) (xorOp f) s
def execAndn (f : FmtAR) (s : State) : Host.Outcome State Fault Refusal := issueOne (.andn f) (andnOp f) s
def execAndi (f : FmtAI) (s : State) : Host.Outcome State Fault Refusal := issueOne (.andi f) (andiOp f) s
def execOri (f : FmtAI) (s : State) : Host.Outcome State Fault Refusal := issueOne (.ori f) (oriOp f) s
def execXori (f : FmtAI) (s : State) : Host.Outcome State Fault Refusal := issueOne (.xori f) (xoriOp f) s
def execShl (f : FmtAX) (s : State) : Host.Outcome State Fault Refusal := issueOne (.shl f) (shlOp f) s
def execShr (f : FmtAX) (s : State) : Host.Outcome State Fault Refusal := issueOne (.shr f) (shrOp f) s
def execSar (f : FmtAX) (s : State) : Host.Outcome State Fault Refusal := issueOne (.sar f) (sarOp f) s
def execRol (f : FmtAX) (s : State) : Host.Outcome State Fault Refusal := issueOne (.rol f) (rolOp f) s
def execShli (f : FmtAS) (s : State) : Host.Outcome State Fault Refusal := issueOne (.shli f) (shliOp f) s
def execShri (f : FmtAS) (s : State) : Host.Outcome State Fault Refusal := issueOne (.shri f) (shriOp f) s
def execSari (f : FmtAS) (s : State) : Host.Outcome State Fault Refusal := issueOne (.sari f) (sariOp f) s
def execClz (f : FmtAU) (s : State) : Host.Outcome State Fault Refusal := issueOne (.clz f) (clzOp f) s
def execCtz (f : FmtAU) (s : State) : Host.Outcome State Fault Refusal := issueOne (.ctz f) (ctzOp f) s
def execPopc (f : FmtAU) (s : State) : Host.Outcome State Fault Refusal := issueOne (.popc f) (popcOp f) s
def execMinI (f : FmtAR) (s : State) : Host.Outcome State Fault Refusal := issueOne (.minI f) (minIOp f) s
def execMaxI (f : FmtAR) (s : State) : Host.Outcome State Fault Refusal := issueOne (.maxI f) (maxIOp f) s
def execMinW (f : FmtAR) (s : State) : Host.Outcome State Fault Refusal := issueOne (.minW f) (minWOp f) s
def execMaxW (f : FmtAR) (s : State) : Host.Outcome State Fault Refusal := issueOne (.maxW f) (maxWOp f) s
def execCmp (f : FmtAC) (s : State) : Host.Outcome State Fault Refusal := issueOne (.cmp f) (cmpOp f) s
def execCmpi (f : FmtACI) (s : State) : Host.Outcome State Fault Refusal := issueOne (.cmpi f) (cmpiOp f) s
def execSel (f : FmtAR) (s : State) : Host.Outcome State Fault Refusal := issueOne (.sel f) (selOp f) s
def execExtI (f : FmtAX) (s : State) : Host.Outcome State Fault Refusal := issueOne (.extI f) (extIOp f) s
def execExtW (f : FmtAX) (s : State) : Host.Outcome State Fault Refusal := issueOne (.extW f) (extWOp f) s
def execIns (f : FmtAX) (s : State) : Host.Outcome State Fault Refusal := issueOne (.ins f) (insOp f) s
def execMovl (f : FmtAL) (s : State) : Host.Outcome State Fault Refusal := issueOne (.movl f) (movlOp f) s
def execMovh (f : FmtAL) (s : State) : Host.Outcome State Fault Refusal := issueOne (.movh f) (movhOp f) s
def execFadd (f : FmtAR) (s : State) : Host.Outcome State Fault Refusal := issueOne (.fadd f) (faddOp f) s
def execFsub (f : FmtAR) (s : State) : Host.Outcome State Fault Refusal := issueOne (.fsub f) (fsubOp f) s
def execFmul (f : FmtAR) (s : State) : Host.Outcome State Fault Refusal := issueOne (.fmul f) (fmulOp f) s
def execFmac (f : FmtAR) (s : State) : Host.Outcome State Fault Refusal := issueOne (.fmac f) (fmacOp f) s
def execFmin (f : FmtAR) (s : State) : Host.Outcome State Fault Refusal := issueOne (.fmin f) (fminOp f) s
def execFmax (f : FmtAR) (s : State) : Host.Outcome State Fault Refusal := issueOne (.fmax f) (fmaxOp f) s
def execFcmp (f : FmtAC) (s : State) : Host.Outcome State Fault Refusal := issueOne (.fcmp f) (fcmpOp f) s
def execFcvt (f : FmtAV) (s : State) : Host.Outcome State Fault Refusal := issueOne (.fcvt f) (fcvtOp f) s
def execKw (f : FmtBKw) (s : State) : Host.Outcome State Fault Refusal := issueOne (.kw f) (kwOp f) s
def execKr (f : FmtBKr) (s : State) : Host.Outcome State Fault Refusal := issueOne (.kr f) (krOp f) s
def execGsr (f : FmtBG) (s : State) : Host.Outcome State Fault Refusal := issueOne (.gsr f) (gsrOp f) s
def execSsr (f : FmtBS) (s : State) : Host.Outcome State Fault Refusal := issueOne (.ssr f) (ssrOp f) s
def execPand (f : FmtBP2) (s : State) : Host.Outcome State Fault Refusal := issueOne (.pand f) (pandOp f) s
def execPor (f : FmtBP2) (s : State) : Host.Outcome State Fault Refusal := issueOne (.por f) (porOp f) s
def execPxor (f : FmtBP2) (s : State) : Host.Outcome State Fault Refusal := issueOne (.pxor f) (pxorOp f) s
def execPnot (f : FmtBP1) (s : State) : Host.Outcome State Fault Refusal := issueOne (.pnot f) (pnotOp f) s
def execPget (f : FmtBD) (s : State) : Host.Outcome State Fault Refusal := issueOne (.pget f) (pgetOp f) s
def execPset (f : FmtBPs) (s : State) : Host.Outcome State Fault Refusal := issueOne (.pset f) (psetOp f) s
def execRdcyc (f : FmtBD) (s : State) : Host.Outcome State Fault Refusal := issueOne (.rdcyc f) (rdcycOp f) s
def execParam (f : FmtBPm) (s : State) : Host.Outcome State Fault Refusal := issueOne (.param f) (paramOp f) s

end Sys2Proof.Machine
end

