-- ==== Sys2Proof/Machine/Slots.lean ====
section
/-!
DEFINITION. The operation each instruction is in its slot, for bundles of several (R160, R161). A step of the device is none.
-/

namespace Sys2Proof.Machine

/-- The slot operation an instruction is. -/
def slotOp (i : Instr) : Option (Ctx → SlotOp) :=
  match i with
  | .nopC => some fun _ => nopOp 0
  | .br f => some (brOp f)
  | .brn f => some (brnOp f)
  | .brL f => some (brLOp f)
  | .bri f => some (briOp f)
  | .call f => some (callOp f)
  | .callL f => some (callLOp f)
  | .calli f => some (calliOp f)
  | .ret f => some (retOp f)
  | .loop f => some (loopOp f)
  | .loopr f => some (looprOp f)
  | .loopL f => some (loopLOp f)
  | .leave f => some (leaveOp f)
  | .safe f => some (safeOp f)
  | .yield f => some (yieldOp f)
  | .halt f => some (haltOp f)
  | .trap f => some (trapOp f)
  | .brk f => some (brkOp f)
  | .barArr f => some (barArrOp f)
  | .barWait f => some (barWaitOp f)
  | .barSync f => some (barSyncOp f)
  | .eret f => some (eretOp f)
  | .nop sl => some (nopAbOp sl)
  | .add f => some (addOp f)
  | .addi f => some (addiOp f)
  | .sub f => some (subOp f)
  | .mul f => some (mulOp f)
  | .mulhI f => some (mulhIOp f)
  | .mulhW f => some (mulhWOp f)
  | .divI f => some (divIOp f)
  | .divW f => some (divWOp f)
  | .remI f => some (remIOp f)
  | .remW f => some (remWOp f)
  | .and f => some (andOp f)
  | .or f => some (orOp f)
  | .xor f => some (xorOp f)
  | .andn f => some (andnOp f)
  | .andi f => some (andiOp f)
  | .ori f => some (oriOp f)
  | .xori f => some (xoriOp f)
  | .shl f => some (shlOp f)
  | .shr f => some (shrOp f)
  | .sar f => some (sarOp f)
  | .rol f => some (rolOp f)
  | .shli f => some (shliOp f)
  | .shri f => some (shriOp f)
  | .sari f => some (sariOp f)
  | .clz f => some (clzOp f)
  | .ctz f => some (ctzOp f)
  | .popc f => some (popcOp f)
  | .minI f => some (minIOp f)
  | .maxI f => some (maxIOp f)
  | .minW f => some (minWOp f)
  | .maxW f => some (maxWOp f)
  | .cmp f => some (cmpOp f)
  | .cmpi f => some (cmpiOp f)
  | .sel f => some (selOp f)
  | .extI f => some (extIOp f)
  | .extW f => some (extWOp f)
  | .ins f => some (insOp f)
  | .movl f => some (movlOp f)
  | .movh f => some (movhOp f)
  | .fadd f => some (faddOp f)
  | .fsub f => some (fsubOp f)
  | .fmul f => some (fmulOp f)
  | .fmac f => some (fmacOp f)
  | .fmin f => some (fminOp f)
  | .fmax f => some (fmaxOp f)
  | .fcmp f => some (fcmpOp f)
  | .fcvt f => some (fcvtOp f)
  | .kw f => some (kwOp f)
  | .kr f => some (krOp f)
  | .gsr f => some (gsrOp f)
  | .ssr f => some (ssrOp f)
  | .pand f => some (pandOp f)
  | .por f => some (porOp f)
  | .pxor f => some (pxorOp f)
  | .pnot f => some (pnotOp f)
  | .pget f => some (pgetOp f)
  | .pset f => some (psetOp f)
  | .rdcyc f => some (rdcycOp f)
  | .param f => some (paramOp f)
  | .nopM => some fun _ => nopOp 3
  | .ldI8 f => some (ldI8Op f)
  | .ldW8 f => some (ldW8Op f)
  | .ldI16 f => some (ldI16Op f)
  | .ldW16 f => some (ldW16Op f)
  | .ldI32 f => some (ldI32Op f)
  | .ldW32 f => some (ldW32Op f)
  | .ld64 f => some (ld64Op f)
  | .st8 f => some (st8Op f)
  | .st16 f => some (st16Op f)
  | .st32 f => some (st32Op f)
  | .st64 f => some (st64Op f)
  | .ldt f => some (ldtOp f)
  | .stt f => some (sttOp f)
  | .ldtf f => some (ldtfOp f)
  | .sttf f => some (sttfOp f)
  | .amoAdd f => some (amoAddOp f)
  | .amoMinI f => some (amoMinIOp f)
  | .amoMaxI f => some (amoMaxIOp f)
  | .amoAnd f => some (amoAndOp f)
  | .amoOr f => some (amoOrOp f)
  | .amoXor f => some (amoXorOp f)
  | .amoSwp f => some (amoSwpOp f)
  | .amoCas f => some (amoCasOp f)
  | .amoFadd f => some (amoFaddOp f)
  | .pref f => some (prefOp f)
  | .fenceC f => some (fenceCOp f)
  | .fenceX f => some (fenceXOp f)
  | .fenceE f => some (fenceEOp f)
  | .ilock f => some (ilockOp f)
  | .iunlk f => some (iunlkOp f)
  | .slabDef f => some (slabDefOp f)
  | .slabRel f => some (slabRelOp f)
  | .slabQry f => some (slabQryOp f)
  | .slabRdy f => some (slabRdyOp f)
  | .slabEmp f => some (slabEmpOp f)
  | .nopV => some fun _ => nopOp 4
  | .vadd f => some (vaddOp f)
  | .vsub f => some (vsubOp f)
  | .vmul f => some (vmulOp f)
  | .vfma f => some (vfmaOp f)
  | .vfms f => some (vfmsOp f)
  | .vmin f => some (vminOp f)
  | .vmax f => some (vmaxOp f)
  | .vabs f => some (vabsOp f)
  | .vneg f => some (vnegOp f)
  | .vand f => some (vandOp f)
  | .vor f => some (vorOp f)
  | .vxor f => some (vxorOp f)
  | .vshl f => some (vshlOp f)
  | .vshr f => some (vshrOp f)
  | .vsar f => some (vsarOp f)
  | .vcmpeq f => some (vcmpeqOp f)
  | .vcmpne f => some (vcmpneOp f)
  | .vcmplt f => some (vcmpltOp f)
  | .vcmple f => some (vcmpleOp f)
  | .vsel f => some (vselOp f)
  | .vcvt f => some (vcvtOp f)
  | .vcvtn f => some (vcvtnOp f)
  | .vcvtw f => some (vcvtwOp f)
  | .vrotr f => some (vrotrOp f)
  | .vrotc f => some (vrotcOp f)
  | .vbcr f => some (vbcrOp f)
  | .vbcc f => some (vbccOp f)
  | .vredrAdd f => some (vredrAddOp f)
  | .vredrMax f => some (vredrMaxOp f)
  | .vredrMin f => some (vredrMinOp f)
  | .vredcAdd f => some (vredcAddOp f)
  | .vredcMax f => some (vredcMaxOp f)
  | .vredcMin f => some (vredcMinOp f)
  | .vshuf f => some (vshufOp f)
  | .vpatld f => some (vpatldOp f)
  | .vpatsw f => some (vpatswOp f)
  | .vpart f => some (vpartOp f)
  | .vgath f => some (vgathOp f)
  | .vscat f => some (vscatOp f)
  | .vmov f => some (vmovOp f)
  | .vmovPop f => some (vmovPopOp f)
  | .vmovPush f => some (vmovPushOp f)
  | .vsplat f => some (vsplatOp f)
  | .viota f => some (viotaOp f)
  | .vmskAnd f => some (vmskAndOp f)
  | .vmskOr f => some (vmskOrOp f)
  | .vmskXor f => some (vmskXorOp f)
  | .vmskAndn f => some (vmskAndnOp f)
  | .vmskCopy f => some (vmskCopyOp f)
  | .vmskNot f => some (vmskNotOp f)
  | .vmskFirst f => some (vmskFirstOp f)
  | .vmcnt f => some (vmcntOp f)
  | .vacc f => some (vaccOp f)
  | .vfree f => some (vfreeOp f)
  | .nopX => some fun _ => nopOp 5
  | .mlease f => some (mleaseOp f)
  | .mrel f => some (mrelOp f)
  | .mlds f => some (mldsOp f)
  | .mma f => some (mmaOp f)
  | .mmaAcc f => some (mmaAccOp f)
  | .macr f => some (macrOp f)
  | .macw f => some (macwOp f)
  | .macz f => some (maczOp f)
  | .mkz f => some (mkzOp f)
  | .mkzAll f => some (mkzAllOp f)
  | .mcntLoads f => some (mcntLoadsOp f)
  | .mcntSteps f => some (mcntStepsOp f)
  | .mstat f => some (mstatOp f)
  | .nopE => some fun _ => nopOp 6
  | .cpy f => some (cpyOp f)
  | .cpy2d f => some (cpy2dOp f)
  | .cpys f => some (cpysOp f)
  | .cpyd f => some (cpydOp f)
  | .gath f => some (gathOp f)
  | .scat f => some (scatOp f)
  | .bsld f => some (bsldOp f)
  | .tnew f => some (tnewOp f)
  | .tdel f => some (tdelOp f)
  | .tlend f => some (tlendOp f)
  | .tgive f => some (tgiveOp f)
  | .tret f => some (tretOp f)
  | .tsplit f => some (tsplitOp f)
  | .tmerge f => some (tmergeOp f)
  | .tshare f => some (tshareOp f)
  | .tashr f => some (tashrOp f)
  | .tunsh f => some (tunshOp f)
  | .tacq f => some (tacqOp f)
  | .trel f => some (trelOp f)
  | .trevive f => some (treviveOp f)
  | .tqry f => some (tqryOp f)
  | .send f => some (sendOp f)
  | .recv f => some (recvOp f)
  | .coll f => some (collOp f)
  | .vfpush f => some (vfpushOp f)
  | .vfpop f => some (vfpopOp f)
  | .vfcnt f => some (vfcntOp f)
  | .ewait f => some (ewaitOp f)
  | .evr f => some (evrOp f)
  | .eset f => some (esetOp f)
  | .notify f => some (notifyOp f)
  | .launch f => some (launchOp f)
  | .decide f => some (decideOp f)
  | .cancel f => some (cancelOp f)
  | .scrub f => some (scrubOp f)
  | .splreq f => some (splreqOp f)
  | .rtset f => some (rtsetOp f)
  | .nopF => some fun _ => nopOp 7
  | .scope f => some (scopeOp f)
  | .scld f => some (scldOp f)
  | .fmtw f => some (fmtwOp f)
  | .fmtr f => some (fmtrOp f)
  | .fbx f => some (fbxOp f)
  | .fexp2 f => some (fexp2Op f)
  | .flog2 f => some (flog2Op f)
  | .frcp f => some (frcpOp f)
  | .frsq f => some (frsqOp f)
  | .fsqrt f => some (fsqrtOp f)
  | .ftanh f => some (ftanhOp f)
  | .fsig f => some (fsigOp f)
  | .ttrd f => some (ttrdOp f)
  | .hint f => some (hintOp f)
  | .seedw f => some (seedwOp f)
  | .slotCommit _ _ _ _ => none
  | .slotWithdraw _ _ _ => none
  | .slotResume _ _ _ => none
  | .slotRerun _ _ _ => none
  | .slotCancel _ _ _ => none
  | .recordStart _ _ => none
  | .startTransferDone _ _ => none
  | .preloadBegin _ _ => none
  | .padPreloadBegin _ _ => none
  | .preloadDone _ _ => none
  | .budgetSpent _ _ => none
  | .haltComplete _ _ => none
  | .partModeWrite _ _ => none
  | .sliceEnd _ => none
  | .leaseGrant _ => none
  | .engineServiceGrant _ _ => none
  | .engineCommandEnd _ _ => none
  | .scoreboardArrival _ _ _ => none
  | .pairSyncWrite _ _ => none
  | .pwrGateApply _ _ => none
  | .pwrGateSelect _ _ => none
  | .domainWakeDone _ _ => none
  | .bankModeWrite _ _ => none
  | .bankSwitchDone _ _ => none
  | .tlbInvGo _ _ => none
  | .tlbInvDone _ => none
  | .tokenTransferComplete _ => none
  | .uncorrectableError _ _ _ => none
  | .packetRouterHop _ => none
  | .packetHubHop _ => none
  | .packetNodeArrive _ => none
  | .faultReturnArrive _ => none
  | .responseTimeout _ _ => none
  | .suspendTimeout _ _ => none
  | .userRouteLost _ _ => none
  | .flitCrcFail _ _ => none
  | .messageArrive _ => none
  | .remoteEventBump _ => none
  | .mldsLoadDone _ _ => none
  | .keyInstall _ _ _ _ => none
  | .preemptRequest _ _ => none
  | .preemptBundleLimit _ _ => none
  | .trapqHeadWrite _ _ => none
  | .handlerLaunch _ _ _ _ _ => none
  | .contextSave _ _ => none
  | .streamingSave _ _ => none
  | .contextRestore _ _ _ => none
  | .dbgHalt _ _ => none
  | .dbgStep _ _ => none
  | .dbgResume _ _ => none
  | .tdispLock _ _ => none
  | .tdispRun _ => none
  | .tdispError _ => none
  | .ideIntegrityFail _ => none
  | .partAssignWrite _ _ => none
  | .hostMemoryRequest _ _ _ _ _ => none
  | .qcfgWrite _ _ _ => none
  | .qtailWrite _ _ => none
  | .hostLaunch _ _ => none
  | .hostGive _ _ => none
  | .hostQuiesce _ _ => none
  | .hostResume _ _ => none
  | .hostReport _ _ => none
  | .hostTeardown _ _ => none
  | .commandComplete _ _ => none
  | .declassifyAdd _ _ _ => none
  | .declassifyRemove _ _ _ => none
  | .floorRaiseDone _ _ => none
  | .scrubProgStart _ _ => none
  | .scrubProgSelect _ _ => none
  | .teardownPhase2 _ => none
  | .teardownPhase3 _ => none
  | .partitionReset _ => none
  | .powerOn => none
  | .configUpdate _ _ _ => none
  | .aidinLoad _ _ _ _ => none
  | .nativeTranslate _ _ _ _ _ => none
  | .spliceAnswer _ => none
  | .iftSlice _ _ _ _ => none
  | .iftGapTimeout _ => none
  | .shadowDetect _ _ => none
  | .shadowCntClr _ => none
  | .replicaWarn _ => none
  | .supplySag _ => none
  | .hbmEccError _ _ _ _ _ => none
  | .hbmParityFail _ _ _ _ _ _ => none
  | .registerEccError _ _ _ _ => none
  | .keySlotParityError _ _ => none
  | .errLogCellClr => none
  | .errLogXferClr => none
  | .registerWrite _ _ _ => none
  | .pageWalkDone _ _ => none
  | .instructionFetchMissDone _ _ => none
  | .linkMarkUp _ _ _ _ _ => none
  | .tdispUnlock _ => none
  | .slabUncorrectableError _ _ _ => none
  | .tableUncorrectableError _ _ _ => none
  | .supplyRecovery _ => none
  | .graphSubmit _ _ _ => none

/-- A no-op of any slot (R162). -/
def isNop (i : Instr) : Bool :=
  match i with
  | .nopC => true
  | .nop _ => true
  | .nopM => true
  | .nopV => true
  | .nopX => true
  | .nopE => true
  | .nopF => true
  | _ => false

/-- The scope a SCOPE operation gives its bundle (R334). -/
def scopeOf (i : Instr) : Option Nat :=
  match i with
  | .scope f => some f.scope.toNat
  | _ => none

end Sys2Proof.Machine
end

