-- ==== Sys2Proof/Machine/Dispatch.lean ====
section
/-!
DEFINITION. One arm per instruction: its meaning.
-/

namespace Sys2Proof.Machine

/-- What an instruction does (opcode table). -/
def exec (i : Instr) (s : State) : Host.Outcome State Fault Refusal :=
  match i with
  | .nopC => Sys2Proof.Machine.execNopC s
  | .br f => Sys2Proof.Machine.execBr f s
  | .brn f => Sys2Proof.Machine.execBrn f s
  | .brL f => Sys2Proof.Machine.execBrL f s
  | .bri f => Sys2Proof.Machine.execBri f s
  | .call f => Sys2Proof.Machine.execCall f s
  | .callL f => Sys2Proof.Machine.execCallL f s
  | .calli f => Sys2Proof.Machine.execCalli f s
  | .ret f => Sys2Proof.Machine.execRet f s
  | .loop f => Sys2Proof.Machine.execLoop f s
  | .loopr f => Sys2Proof.Machine.execLoopr f s
  | .loopL f => Sys2Proof.Machine.execLoopL f s
  | .leave f => Sys2Proof.Machine.execLeave f s
  | .safe f => Sys2Proof.Machine.execSafe f s
  | .yield f => Sys2Proof.Machine.execYield f s
  | .halt f => Sys2Proof.Machine.execHalt f s
  | .trap f => Sys2Proof.Machine.execTrap f s
  | .brk f => Sys2Proof.Machine.execBrk f s
  | .barArr f => Sys2Proof.Machine.execBarArr f s
  | .barWait f => Sys2Proof.Machine.execBarWait f s
  | .barSync f => Sys2Proof.Machine.execBarSync f s
  | .eret f => Sys2Proof.Machine.execEret f s
  | .nop sl => Sys2Proof.Machine.execNop sl s
  | .add f => Sys2Proof.Machine.execAdd f s
  | .addi f => Sys2Proof.Machine.execAddi f s
  | .sub f => Sys2Proof.Machine.execSub f s
  | .mul f => Sys2Proof.Machine.execMul f s
  | .mulhI f => Sys2Proof.Machine.execMulhI f s
  | .mulhW f => Sys2Proof.Machine.execMulhW f s
  | .divI f => Sys2Proof.Machine.execDivI f s
  | .divW f => Sys2Proof.Machine.execDivW f s
  | .remI f => Sys2Proof.Machine.execRemI f s
  | .remW f => Sys2Proof.Machine.execRemW f s
  | .and f => Sys2Proof.Machine.execAnd f s
  | .or f => Sys2Proof.Machine.execOr f s
  | .xor f => Sys2Proof.Machine.execXor f s
  | .andn f => Sys2Proof.Machine.execAndn f s
  | .andi f => Sys2Proof.Machine.execAndi f s
  | .ori f => Sys2Proof.Machine.execOri f s
  | .xori f => Sys2Proof.Machine.execXori f s
  | .shl f => Sys2Proof.Machine.execShl f s
  | .shr f => Sys2Proof.Machine.execShr f s
  | .sar f => Sys2Proof.Machine.execSar f s
  | .rol f => Sys2Proof.Machine.execRol f s
  | .shli f => Sys2Proof.Machine.execShli f s
  | .shri f => Sys2Proof.Machine.execShri f s
  | .sari f => Sys2Proof.Machine.execSari f s
  | .clz f => Sys2Proof.Machine.execClz f s
  | .ctz f => Sys2Proof.Machine.execCtz f s
  | .popc f => Sys2Proof.Machine.execPopc f s
  | .minI f => Sys2Proof.Machine.execMinI f s
  | .maxI f => Sys2Proof.Machine.execMaxI f s
  | .minW f => Sys2Proof.Machine.execMinW f s
  | .maxW f => Sys2Proof.Machine.execMaxW f s
  | .cmp f => Sys2Proof.Machine.execCmp f s
  | .cmpi f => Sys2Proof.Machine.execCmpi f s
  | .sel f => Sys2Proof.Machine.execSel f s
  | .extI f => Sys2Proof.Machine.execExtI f s
  | .extW f => Sys2Proof.Machine.execExtW f s
  | .ins f => Sys2Proof.Machine.execIns f s
  | .movl f => Sys2Proof.Machine.execMovl f s
  | .movh f => Sys2Proof.Machine.execMovh f s
  | .fadd f => Sys2Proof.Machine.execFadd f s
  | .fsub f => Sys2Proof.Machine.execFsub f s
  | .fmul f => Sys2Proof.Machine.execFmul f s
  | .fmac f => Sys2Proof.Machine.execFmac f s
  | .fmin f => Sys2Proof.Machine.execFmin f s
  | .fmax f => Sys2Proof.Machine.execFmax f s
  | .fcmp f => Sys2Proof.Machine.execFcmp f s
  | .fcvt f => Sys2Proof.Machine.execFcvt f s
  | .kw f => Sys2Proof.Machine.execKw f s
  | .kr f => Sys2Proof.Machine.execKr f s
  | .gsr f => Sys2Proof.Machine.execGsr f s
  | .ssr f => Sys2Proof.Machine.execSsr f s
  | .pand f => Sys2Proof.Machine.execPand f s
  | .por f => Sys2Proof.Machine.execPor f s
  | .pxor f => Sys2Proof.Machine.execPxor f s
  | .pnot f => Sys2Proof.Machine.execPnot f s
  | .pget f => Sys2Proof.Machine.execPget f s
  | .pset f => Sys2Proof.Machine.execPset f s
  | .rdcyc f => Sys2Proof.Machine.execRdcyc f s
  | .param f => Sys2Proof.Machine.execParam f s
  | .nopM => Sys2Proof.Machine.execNopM s
  | .ldI8 f => Sys2Proof.Machine.execLdI8 f s
  | .ldW8 f => Sys2Proof.Machine.execLdW8 f s
  | .ldI16 f => Sys2Proof.Machine.execLdI16 f s
  | .ldW16 f => Sys2Proof.Machine.execLdW16 f s
  | .ldI32 f => Sys2Proof.Machine.execLdI32 f s
  | .ldW32 f => Sys2Proof.Machine.execLdW32 f s
  | .ld64 f => Sys2Proof.Machine.execLd64 f s
  | .st8 f => Sys2Proof.Machine.execSt8 f s
  | .st16 f => Sys2Proof.Machine.execSt16 f s
  | .st32 f => Sys2Proof.Machine.execSt32 f s
  | .st64 f => Sys2Proof.Machine.execSt64 f s
  | .ldt f => Sys2Proof.Machine.execLdt f s
  | .stt f => Sys2Proof.Machine.execStt f s
  | .ldtf f => Sys2Proof.Machine.execLdtf f s
  | .sttf f => Sys2Proof.Machine.execSttf f s
  | .amoAdd f => Sys2Proof.Machine.execAmoAdd f s
  | .amoMinI f => Sys2Proof.Machine.execAmoMinI f s
  | .amoMaxI f => Sys2Proof.Machine.execAmoMaxI f s
  | .amoAnd f => Sys2Proof.Machine.execAmoAnd f s
  | .amoOr f => Sys2Proof.Machine.execAmoOr f s
  | .amoXor f => Sys2Proof.Machine.execAmoXor f s
  | .amoSwp f => Sys2Proof.Machine.execAmoSwp f s
  | .amoCas f => Sys2Proof.Machine.execAmoCas f s
  | .amoFadd f => Sys2Proof.Machine.execAmoFadd f s
  | .pref f => Sys2Proof.Machine.execPref f s
  | .fenceC f => Sys2Proof.Machine.execFenceC f s
  | .fenceX f => Sys2Proof.Machine.execFenceX f s
  | .fenceE f => Sys2Proof.Machine.execFenceE f s
  | .ilock f => Sys2Proof.Machine.execIlock f s
  | .iunlk f => Sys2Proof.Machine.execIunlk f s
  | .slabDef f => Sys2Proof.Machine.execSlabDef f s
  | .slabRel f => Sys2Proof.Machine.execSlabRel f s
  | .slabQry f => Sys2Proof.Machine.execSlabQry f s
  | .slabRdy f => Sys2Proof.Machine.execSlabRdy f s
  | .slabEmp f => Sys2Proof.Machine.execSlabEmp f s
  | .nopV => Sys2Proof.Machine.execNopV s
  | .vadd f => Sys2Proof.Machine.execVadd f s
  | .vsub f => Sys2Proof.Machine.execVsub f s
  | .vmul f => Sys2Proof.Machine.execVmul f s
  | .vfma f => Sys2Proof.Machine.execVfma f s
  | .vfms f => Sys2Proof.Machine.execVfms f s
  | .vmin f => Sys2Proof.Machine.execVmin f s
  | .vmax f => Sys2Proof.Machine.execVmax f s
  | .vabs f => Sys2Proof.Machine.execVabs f s
  | .vneg f => Sys2Proof.Machine.execVneg f s
  | .vand f => Sys2Proof.Machine.execVand f s
  | .vor f => Sys2Proof.Machine.execVor f s
  | .vxor f => Sys2Proof.Machine.execVxor f s
  | .vshl f => Sys2Proof.Machine.execVshl f s
  | .vshr f => Sys2Proof.Machine.execVshr f s
  | .vsar f => Sys2Proof.Machine.execVsar f s
  | .vcmpeq f => Sys2Proof.Machine.execVcmpeq f s
  | .vcmpne f => Sys2Proof.Machine.execVcmpne f s
  | .vcmplt f => Sys2Proof.Machine.execVcmplt f s
  | .vcmple f => Sys2Proof.Machine.execVcmple f s
  | .vsel f => Sys2Proof.Machine.execVsel f s
  | .vcvt f => Sys2Proof.Machine.execVcvt f s
  | .vcvtn f => Sys2Proof.Machine.execVcvtn f s
  | .vcvtw f => Sys2Proof.Machine.execVcvtw f s
  | .vrotr f => Sys2Proof.Machine.execVrotr f s
  | .vrotc f => Sys2Proof.Machine.execVrotc f s
  | .vbcr f => Sys2Proof.Machine.execVbcr f s
  | .vbcc f => Sys2Proof.Machine.execVbcc f s
  | .vredrAdd f => Sys2Proof.Machine.execVredrAdd f s
  | .vredrMax f => Sys2Proof.Machine.execVredrMax f s
  | .vredrMin f => Sys2Proof.Machine.execVredrMin f s
  | .vredcAdd f => Sys2Proof.Machine.execVredcAdd f s
  | .vredcMax f => Sys2Proof.Machine.execVredcMax f s
  | .vredcMin f => Sys2Proof.Machine.execVredcMin f s
  | .vshuf f => Sys2Proof.Machine.execVshuf f s
  | .vpatld f => Sys2Proof.Machine.execVpatld f s
  | .vpatsw f => Sys2Proof.Machine.execVpatsw f s
  | .vpart f => Sys2Proof.Machine.execVpart f s
  | .vgath f => Sys2Proof.Machine.execVgath f s
  | .vscat f => Sys2Proof.Machine.execVscat f s
  | .vmov f => Sys2Proof.Machine.execVmov f s
  | .vmovPop f => Sys2Proof.Machine.execVmovPop f s
  | .vmovPush f => Sys2Proof.Machine.execVmovPush f s
  | .vsplat f => Sys2Proof.Machine.execVsplat f s
  | .viota f => Sys2Proof.Machine.execViota f s
  | .vmskAnd f => Sys2Proof.Machine.execVmskAnd f s
  | .vmskOr f => Sys2Proof.Machine.execVmskOr f s
  | .vmskXor f => Sys2Proof.Machine.execVmskXor f s
  | .vmskAndn f => Sys2Proof.Machine.execVmskAndn f s
  | .vmskCopy f => Sys2Proof.Machine.execVmskCopy f s
  | .vmskNot f => Sys2Proof.Machine.execVmskNot f s
  | .vmskFirst f => Sys2Proof.Machine.execVmskFirst f s
  | .vmcnt f => Sys2Proof.Machine.execVmcnt f s
  | .vacc f => Sys2Proof.Machine.execVacc f s
  | .vfree f => Sys2Proof.Machine.execVfree f s
  | .nopX => Sys2Proof.Machine.execNopX s
  | .mlease f => Sys2Proof.Machine.execMlease f s
  | .mrel f => Sys2Proof.Machine.execMrel f s
  | .mlds f => Sys2Proof.Machine.execMlds f s
  | .mma f => Sys2Proof.Machine.execMma f s
  | .mmaAcc f => Sys2Proof.Machine.execMmaAcc f s
  | .macr f => Sys2Proof.Machine.execMacr f s
  | .macw f => Sys2Proof.Machine.execMacw f s
  | .macz f => Sys2Proof.Machine.execMacz f s
  | .mkz f => Sys2Proof.Machine.execMkz f s
  | .mkzAll f => Sys2Proof.Machine.execMkzAll f s
  | .mcntLoads f => Sys2Proof.Machine.execMcntLoads f s
  | .mcntSteps f => Sys2Proof.Machine.execMcntSteps f s
  | .mstat f => Sys2Proof.Machine.execMstat f s
  | .nopE => Sys2Proof.Machine.execNopE s
  | .cpy f => Sys2Proof.Machine.execCpy f s
  | .cpy2d f => Sys2Proof.Machine.execCpy2d f s
  | .cpys f => Sys2Proof.Machine.execCpys f s
  | .cpyd f => Sys2Proof.Machine.execCpyd f s
  | .gath f => Sys2Proof.Machine.execGath f s
  | .scat f => Sys2Proof.Machine.execScat f s
  | .bsld f => Sys2Proof.Machine.execBsld f s
  | .tnew f => Sys2Proof.Machine.execTnew f s
  | .tdel f => Sys2Proof.Machine.execTdel f s
  | .tlend f => Sys2Proof.Machine.execTlend f s
  | .tgive f => Sys2Proof.Machine.execTgive f s
  | .tret f => Sys2Proof.Machine.execTret f s
  | .tsplit f => Sys2Proof.Machine.execTsplit f s
  | .tmerge f => Sys2Proof.Machine.execTmerge f s
  | .tshare f => Sys2Proof.Machine.execTshare f s
  | .tashr f => Sys2Proof.Machine.execTashr f s
  | .tunsh f => Sys2Proof.Machine.execTunsh f s
  | .tacq f => Sys2Proof.Machine.execTacq f s
  | .trel f => Sys2Proof.Machine.execTrel f s
  | .trevive f => Sys2Proof.Machine.execTrevive f s
  | .tqry f => Sys2Proof.Machine.execTqry f s
  | .send f => Sys2Proof.Machine.execSend f s
  | .recv f => Sys2Proof.Machine.execRecv f s
  | .coll f => Sys2Proof.Machine.execColl f s
  | .vfpush f => Sys2Proof.Machine.execVfpush f s
  | .vfpop f => Sys2Proof.Machine.execVfpop f s
  | .vfcnt f => Sys2Proof.Machine.execVfcnt f s
  | .ewait f => Sys2Proof.Machine.execEwait f s
  | .evr f => Sys2Proof.Machine.execEvr f s
  | .eset f => Sys2Proof.Machine.execEset f s
  | .notify f => Sys2Proof.Machine.execNotify f s
  | .launch f => Sys2Proof.Machine.execLaunch f s
  | .decide f => Sys2Proof.Machine.execDecide f s
  | .cancel f => Sys2Proof.Machine.execCancel f s
  | .scrub f => Sys2Proof.Machine.execScrub f s
  | .splreq f => Sys2Proof.Machine.execSplreq f s
  | .rtset f => Sys2Proof.Machine.execRtset f s
  | .nopF => Sys2Proof.Machine.execNopF s
  | .scope f => Sys2Proof.Machine.execScope f s
  | .scld f => Sys2Proof.Machine.execScld f s
  | .fmtw f => Sys2Proof.Machine.execFmtw f s
  | .fmtr f => Sys2Proof.Machine.execFmtr f s
  | .fbx f => Sys2Proof.Machine.execFbx f s
  | .fexp2 f => Sys2Proof.Machine.execFexp2 f s
  | .flog2 f => Sys2Proof.Machine.execFlog2 f s
  | .frcp f => Sys2Proof.Machine.execFrcp f s
  | .frsq f => Sys2Proof.Machine.execFrsq f s
  | .fsqrt f => Sys2Proof.Machine.execFsqrt f s
  | .ftanh f => Sys2Proof.Machine.execFtanh f s
  | .fsig f => Sys2Proof.Machine.execFsig f s
  | .ttrd f => Sys2Proof.Machine.execTtrd f s
  | .hint f => Sys2Proof.Machine.execHint f s
  | .seedw f => Sys2Proof.Machine.execSeedw f s
  | .slotCommit b k n rec => Sys2Proof.Machine.execSlotCommit b k n rec s
  | .slotWithdraw b k n => Sys2Proof.Machine.execSlotWithdraw b k n s
  | .slotResume b k n => Sys2Proof.Machine.execSlotResume b k n s
  | .slotRerun b k n => Sys2Proof.Machine.execSlotRerun b k n s
  | .slotCancel b k n => Sys2Proof.Machine.execSlotCancel b k n s
  | .recordStart b k => Sys2Proof.Machine.execRecordStart b k s
  | .startTransferDone b k => Sys2Proof.Machine.execStartTransferDone b k s
  | .preloadBegin b k => Sys2Proof.Machine.execPreloadBegin b k s
  | .padPreloadBegin b k => Sys2Proof.Machine.execPadPreloadBegin b k s
  | .preloadDone b k => Sys2Proof.Machine.execPreloadDone b k s
  | .budgetSpent b k => Sys2Proof.Machine.execBudgetSpent b k s
  | .haltComplete b k => Sys2Proof.Machine.execHaltComplete b k s
  | .partModeWrite p v => Sys2Proof.Machine.execPartModeWrite p v s
  | .sliceEnd p => Sys2Proof.Machine.execSliceEnd p s
  | .leaseGrant b => Sys2Proof.Machine.execLeaseGrant b s
  | .engineServiceGrant b g => Sys2Proof.Machine.execEngineServiceGrant b g s
  | .engineCommandEnd b g => Sys2Proof.Machine.execEngineCommandEnd b g s
  | .scoreboardArrival b k n => Sys2Proof.Machine.execScoreboardArrival b k n s
  | .pairSyncWrite b v => Sys2Proof.Machine.execPairSyncWrite b v s
  | .pwrGateApply b v => Sys2Proof.Machine.execPwrGateApply b v s
  | .pwrGateSelect b v => Sys2Proof.Machine.execPwrGateSelect b v s
  | .domainWakeDone b d => Sys2Proof.Machine.execDomainWakeDone b d s
  | .bankModeWrite b v => Sys2Proof.Machine.execBankModeWrite b v s
  | .bankSwitchDone b n => Sys2Proof.Machine.execBankSwitchDone b n s
  | .tlbInvGo p v => Sys2Proof.Machine.execTlbInvGo p v s
  | .tlbInvDone p => Sys2Proof.Machine.execTlbInvDone p s
  | .tokenTransferComplete n => Sys2Proof.Machine.execTokenTransferComplete n s
  | .uncorrectableError pa inBraid braid => Sys2Proof.Machine.execUncorrectableError pa inBraid braid s
  | .packetRouterHop n => Sys2Proof.Machine.execPacketRouterHop n s
  | .packetHubHop n => Sys2Proof.Machine.execPacketHubHop n s
  | .packetNodeArrive a => Sys2Proof.Machine.execPacketNodeArrive a s
  | .faultReturnArrive n => Sys2Proof.Machine.execFaultReturnArrive n s
  | .responseTimeout b n => Sys2Proof.Machine.execResponseTimeout b n s
  | .suspendTimeout b n => Sys2Proof.Machine.execSuspendTimeout b n s
  | .userRouteLost b n => Sys2Proof.Machine.execUserRouteLost b n s
  | .flitCrcFail link ab => Sys2Proof.Machine.execFlitCrcFail link ab s
  | .messageArrive n => Sys2Proof.Machine.execMessageArrive n s
  | .remoteEventBump n => Sys2Proof.Machine.execRemoteEventBump n s
  | .mldsLoadDone b n => Sys2Proof.Machine.execMldsLoadDone b n s
  | .keyInstall world region braids key => Sys2Proof.Machine.execKeyInstall world region braids key s
  | .preemptRequest b k => Sys2Proof.Machine.execPreemptRequest b k s
  | .preemptBundleLimit b k => Sys2Proof.Machine.execPreemptBundleLimit b k s
  | .trapqHeadWrite p v => Sys2Proof.Machine.execTrapqHeadWrite p v s
  | .handlerLaunch b k b2 k2 page => Sys2Proof.Machine.execHandlerLaunch b k b2 k2 page s
  | .contextSave b k => Sys2Proof.Machine.execContextSave b k s
  | .streamingSave b k => Sys2Proof.Machine.execStreamingSave b k s
  | .contextRestore n b k => Sys2Proof.Machine.execContextRestore n b k s
  | .dbgHalt b k => Sys2Proof.Machine.execDbgHalt b k s
  | .dbgStep b k => Sys2Proof.Machine.execDbgStep b k s
  | .dbgResume b k => Sys2Proof.Machine.execDbgResume b k s
  | .tdispLock fn ide => Sys2Proof.Machine.execTdispLock fn ide s
  | .tdispRun fn => Sys2Proof.Machine.execTdispRun fn s
  | .tdispError fn => Sys2Proof.Machine.execTdispError fn s
  | .ideIntegrityFail fn => Sys2Proof.Machine.execIdeIntegrityFail fn s
  | .partAssignWrite fn v => Sys2Proof.Machine.execPartAssignWrite fn v s
  | .hostMemoryRequest fn cxlMem addr len data => Sys2Proof.Machine.execHostMemoryRequest fn cxlMem addr len data s
  | .qcfgWrite fn journal v => Sys2Proof.Machine.execQcfgWrite fn journal v s
  | .qtailWrite fn v => Sys2Proof.Machine.execQtailWrite fn v s
  | .hostLaunch fn seq => Sys2Proof.Machine.execHostLaunch fn seq s
  | .hostGive fn seq => Sys2Proof.Machine.execHostGive fn seq s
  | .hostQuiesce fn seq => Sys2Proof.Machine.execHostQuiesce fn seq s
  | .hostResume fn seq => Sys2Proof.Machine.execHostResume fn seq s
  | .hostReport fn seq => Sys2Proof.Machine.execHostReport fn seq s
  | .hostTeardown fn seq => Sys2Proof.Machine.execHostTeardown fn seq s
  | .commandComplete fn seq => Sys2Proof.Machine.execCommandComplete fn seq s
  | .declassifyAdd world base log2 => Sys2Proof.Machine.execDeclassifyAdd world base log2 s
  | .declassifyRemove world base log2 => Sys2Proof.Machine.execDeclassifyRemove world base log2 s
  | .floorRaiseDone world region => Sys2Proof.Machine.execFloorRaiseDone world region s
  | .scrubProgStart p v => Sys2Proof.Machine.execScrubProgStart p v s
  | .scrubProgSelect p v => Sys2Proof.Machine.execScrubProgSelect p v s
  | .teardownPhase2 w => Sys2Proof.Machine.execTeardownPhase2 w s
  | .teardownPhase3 w => Sys2Proof.Machine.execTeardownPhase3 w s
  | .partitionReset p => Sys2Proof.Machine.execPartitionReset p s
  | .powerOn => Sys2Proof.Machine.execPowerOn s
  | .configUpdate verifies boot version => Sys2Proof.Machine.execConfigUpdate verifies boot version s
  | .aidinLoad p world base object => Sys2Proof.Machine.execAidinLoad p world base object s
  | .nativeTranslate p world code region entries => Sys2Proof.Machine.execNativeTranslate p world code region entries s
  | .spliceAnswer n => Sys2Proof.Machine.execSpliceAnswer n s
  | .iftSlice b unit pass salvage => Sys2Proof.Machine.execIftSlice b unit pass salvage s
  | .iftGapTimeout b => Sys2Proof.Machine.execIftGapTimeout b s
  | .shadowDetect b unit => Sys2Proof.Machine.execShadowDetect b unit s
  | .shadowCntClr b => Sys2Proof.Machine.execShadowCntClr b s
  | .replicaWarn b => Sys2Proof.Machine.execReplicaWarn b s
  | .supplySag b => Sys2Proof.Machine.execSupplySag b s
  | .hbmEccError pa beat bit unc agents => Sys2Proof.Machine.execHbmEccError pa beat bit unc agents s
  | .hbmParityFail pa beat lane fails single agents => Sys2Proof.Machine.execHbmParityFail pa beat lane fails single agents s
  | .registerEccError b k file idx => Sys2Proof.Machine.execRegisterEccError b k file idx s
  | .keySlotParityError b n => Sys2Proof.Machine.execKeySlotParityError b n s
  | .errLogCellClr => Sys2Proof.Machine.execErrLogCellClr s
  | .errLogXferClr => Sys2Proof.Machine.execErrLogXferClr s
  | .registerWrite unit num v => Sys2Proof.Machine.execRegisterWrite unit num v s
  | .pageWalkDone b k => Sys2Proof.Machine.execPageWalkDone b k s
  | .instructionFetchMissDone b k => Sys2Proof.Machine.execInstructionFetchMissDone b k s
  | .linkMarkUp link rankAB rankBA lanesAB lanesBA => Sys2Proof.Machine.execLinkMarkUp link rankAB rankBA lanesAB lanesBA s
  | .tdispUnlock fn => Sys2Proof.Machine.execTdispUnlock fn s
  | .slabUncorrectableError b fifo id => Sys2Proof.Machine.execSlabUncorrectableError b fifo id s
  | .tableUncorrectableError b table idx => Sys2Proof.Machine.execTableUncorrectableError b table idx s
  | .supplyRecovery b => Sys2Proof.Machine.execSupplyRecovery b s
  | .graphSubmit p parent nodes => Sys2Proof.Machine.execGraphSubmit p parent nodes s

end Sys2Proof.Machine
end

