-- ==== Sys2Proof/Machine/Fetch.lean ====
section
/-!
DEFINITION. A strand's next bundle: where it is fetched, how it is decoded, the causes found before any slot is asked, and its issue (R63, R80,
R160 to R166, R184, R193, R197 to R199).
-/

namespace Sys2Proof.Machine

/-- The lines that hold n bytes from an address on (R261). -/
def fetchLines (a n : Nat) : List Nat := [a / 128 * 128, (a + n - 1) / 128 * 128].dedup

/-- The first byte of n from an address on whose page cannot be fetched, with its fault (R80, R83). -/
def fetchStop (s : State) (b w a n : Nat) : Option (Nat × Nat) :=
  [a, a + n - 1].findSome? fun v => (fetchFault s b w v).map fun f => (v, f)

/-- The bytes of n code addresses: faults and missing lines are found before they are read. -/
inductive Fetched where
  | fault (va code : Nat)
  | miss (line : Nat)
  | bytes (v : Nat)
  deriving DecidableEq, Repr

def fetchN (s : State) (b w a n : Nat) : Fetched :=
  match fetchStop s b w a n with
  | some (v, f) => .fault v f
  | none =>
    match (fetchLines a n).find? fun l => !(s.braid b).icLines.contains (l, w) with
    | some l => .miss l
    | none => match readVALE s b w a n with | .ok v => .bytes v | .error f => .fault a f

/-- What decoding a bundle gives: the words of its slots, their readings and the bundle. -/
structure Decoded where
  ws : List (Nat × BitVec 32)
  rs : List (Nat × Except DecErr Instr)
  out : Except (List (DecErr × Nat)) Bundle

/-- The bundle at the strand's position (R193). -/
inductive Got where
  | fault (va code : Nat)
  | miss (line : Nat)
  | got (d : Decoded)

/-- Words of a number, least significant first. -/
def wordsOf (v n : Nat) : List (BitVec 32) := (List.range n).map fun i => BitVec.ofNat 32 (v / 2 ^ (32 * i))

def fetchBundle (s : State) (b w : Nat) (pc : Word) : Got :=
  if pc.getLsbD 0 then
    match fetchN s b w (pc.toNat - 1) 32 with
    | .fault v f => .fault v f
    | .miss l => .miss l
    | .bytes v => let v := BitVec.ofNat 256 v; .got { ws := nativeWords v, rs := nativeReadings v, out := decodeNative v }
  else
    match fetchN s b w pc.toNat 4 with
    | .fault v f => .fault v f
    | .miss l => .miss l
    | .bytes t =>
      let tag := BitVec.ofNat 32 t
      let n := tagCount tag
      match fetchN s b w (pc.toNat + 4) (4 * n) with
      | .fault v f => .fault v f
      | .miss l => .miss l
      | .bytes v => .got { ws := denseWords tag (wordsOf v n), rs := denseReadings tag (wordsOf v n), out := decodeDense tag (wordsOf v n) }

/-- What decoding refuses of a slot, as an operation that does nothing but trap (R182). -/
def errOp (e : DecErr × Nat) : Ctx → SlotOp := fun _ =>
  match e.1 with
  | .undefined => { slot := e.2, early := [{ cause := 0x02, step := 2, slot := e.2 }] }
  | .illegal => { slot := e.2, early := [{ cause := 0x01, step := 3, slot := e.2 }] }

/-- A masked feature traps as an undefined opcode does, whatever the other fields of its word hold (R183). -/
def featOps (d : Decoded) : List (Ctx → SlotOp) :=
  d.ws.filterMap fun (k, w) => (wordFeature k w).map fun bit => fun x => { slot := k, early := x.featTrap k bit }

/-- A bundle that does not decode goes through the stages of R184 with the operations that do: the first cause of all its slots is reported. -/
def issueBad (d : Decoded) (es : List (DecErr × Nat)) (s : State) : State :=
  issue 8 none (((okInstrs d.rs).filterMap slotOp) ++ es.map errOp ++ featOps d) s

/-- A decoded bundle issues: through exec where one operation is left beside no-ops, else its operations together. -/
def runOps (bd : Bundle) (native : Bool) (s : State) : Host.Outcome State Fault Refusal :=
  match bd.ops.filter (!isNop ·) with
  | [i] => if native || bd.words == (Bundle.single i).words then exec i s else .next (issue bd.words (scopeOf i) ((slotOp i).toList) s)
  | is => .next (issue bd.words (is.findSome? scopeOf) (is.filterMap slotOp) s)

/-- One bundle of strand k of braid b, from its fetch on. A route timeout comes first (R184); then breakpoints, fetch faults and misses; then what
decoding finds. -/
def runStrand (s : State) (b k : Nat) : Host.Outcome State Fault Refusal :=
  let s := { s with cur := (b, k) }
  let t := s.strand b k
  let w := recWorld t.slot0.bind
  match t.rtTimeout with
  | some e => .next (takeTrap s b k { cause := 0x0F, step := 0, detail := e })
  | none =>
    if t.instrBps t.c.pc ≠ 0 then .next (takeTrap s b k { cause := 0x12, step := 1, bp := t.instrBps t.c.pc })
    else match fetchBundle s b w t.c.pc with
      | .fault v f => .next (takeTrap s b k { cause := 0x06, step := 1, addr := v, detail := f })
      | .miss l => .next (stall (s.modStrand b k fun t => { t with hold := some (.fetch l) }) b k true)
      | .got d =>
        match d.out with
        | .error es => .next (issueBad d es s)
        | .ok bd => runOps bd (t.c.pc.getLsbD 0) s

/-- The strand has a bundle to issue: its unit runs, its HALT does not wait, and nothing holds its fetch. -/
def Strand.ready (t : Strand) : Bool := t.slot0.st == .running && !t.haltWait && t.hold.isNone && t.frz.isNone

/-- A running unit that issues nothing while its cycles pass: its HALT waits, or it is being frozen, for a result that is not due yet (R316, R350). -/
def Strand.idles (t : Strand) : Bool := t.slot0.st == .running && (t.haltWait || t.frz.isSome) && t.sbd.any fun v => t.clk < v.early

/-- A strand moves: it issues its bundle, or a cycle passes for a unit that cannot. -/
def moveStrand (s : State) (b k : Nat) : Host.Outcome State Fault Refusal :=
  let t := s.strand b k
  if t.ready then runStrand s b k
  else .next (if t.slot0.st = .running then s.modStrand b k (·.tick) else s)

end Sys2Proof.Machine
end

