-- ==== Sys2Proof/Machine/Run.lean ====
section
/-!
DEFINITION. The order in which the machine's agents move (log 1): steps of the device that are due, then the running strand with the least clock. The
specification leaves the order open; State.agenda names any other.
-/

namespace Sys2Proof.Machine

/-! Steps of the device that may be due. Each is tried only where something stands that it could act on. -/

def State.strandKeys (s : State) : List (Nat × Nat) := s.strands.map fun e => (e.1 / 4, e.1 % 4)
def State.braidKeys (s : State) : List Nat := s.braids.map (·.1)
def State.partKeys (s : State) : List Nat := s.parts.map (·.1)
def State.worldKeys (s : State) : List Nat := s.worlds.map (·.1)

/-- A step of the device with its operands. -/
abbrev Act := State → Host.Outcome State Fault Refusal

/-- Steps about one strand. -/
def strandDue (s : State) (b k : Nat) : List Act :=
  let t := s.strand b k
  (match t.hold with
    | some (.fetch _) => [execInstructionFetchMissDone b k]
    | some (.walk _) => [execPageWalkDone b k]
    | none => []) ++
  (match t.sbd.findIdx? fun v => v.tok.isNone && v.req.isNone with | some n => [execScoreboardArrival b k n] | none => []) ++
  (if t.slot.isEmpty then [] else
    [execStartTransferDone b k, execRecordStart b k, execPreloadBegin b k, execPadPreloadBegin b k, execPreloadDone b k, execHaltComplete b k,
      execBudgetSpent b k, execPreemptBundleLimit b k])

/-- Steps about one braid. -/
def braidDue (s : State) (b : Nat) : List Act :=
  let t := s.braid b
  (if t.leaseReqs.isEmpty then [] else [execLeaseGrant b]) ++
  (if t.cmds.isEmpty then [] else (List.range 10).flatMap fun g => [execEngineServiceGrant b g, execEngineCommandEnd b g]) ++
  (((List.range 2).filter fun n => (Store.get t.sbuf n {}).st == 1 && decide ((Store.get t.sbuf n {}).due ≤ braidClk s b)).map fun n => execMldsLoadDone b n) ++
  t.bankSw.map (fun w => execBankSwitchDone b w.bank) ++ (if t.logicWaking then [execDomainWakeDone b 0] else []) ++
  (if t.bstWaking then [execDomainWakeDone b 1] else []) ++ ((List.range 6).filter t.fabWaking.getLsbD).map fun g => execDomainWakeDone b (g + 2)

/-- Steps about one packet. -/
def packetDue (p : Packet) (n : Nat) : List Act :=
  if p.delivered then
    (if p.kind = 8 then [execFaultReturnArrive n] else if p.kind = 7 then [execRemoteEventBump n]
     else if p.kind = 5 ∨ p.kind = 6 then [execMessageArrive n] else [])
  else match p.at_ with
    | .router _ => [execPacketRouterHop n]
    | .hub => [execPacketHubHop n]
    | .peer _ => []
    | _ => [execPacketNodeArrive (.held n)]

/-- The step that begins a host command, or completes it. -/
def commandDue (w : Nat) (c : HostCmd) : List Act :=
  if c.begun then [execCommandComplete w c.seq]
  else match cmdOp c.entry with
    | 1 => [execHostLaunch w c.seq]
    | 2 => [execHostGive w c.seq]
    | 3 => [execHostQuiesce w c.seq]
    | 4 => [execHostResume w c.seq]
    | 5 => [execHostReport w c.seq]
    | 6 => [execHostTeardown w c.seq]
    | _ => []

/-- Everything that may be due, in the order it is tried. -/
def candidates (s : State) : List Act :=
  s.strandKeys.flatMap (fun e => strandDue s e.1 e.2) ++ ((List.range s.xfers.length).map execTokenTransferComplete) ++
    s.braidKeys.flatMap (braidDue s) ++ s.packets.zipIdx.flatMap (fun e => packetDue e.1 e.2) ++
    (s.partKeys.filter fun p => !(s.part p).tlbInv.getLsbD 63).map execTlbInvDone ++ ((List.range s.spliceReqs.length).map execSpliceAnswer) ++
    s.pairs.map (fun p => execFloorRaiseDone p.world p.region) ++
    s.worlds.flatMap (fun e => e.2.cmds.flatMap (commandDue e.1)) ++
    s.worlds.flatMap fun e => if e.2.phase = 1 then [execTeardownPhase2 e.1] else if e.2.phase = 2 then [execTeardownPhase3 e.1] else []

/-- The state an outcome goes on with, where it is another one. -/
def changed (s : State) (o : Host.Outcome State Fault Refusal) : Option State :=
  match o with
  | .next t => if t = s then none else some t
  | _ => none

/-- The machine after the first candidate that changes anything. -/
def due (s : State) : Option State := (candidates s).findSome? fun a => changed s (a s)

/-- What firmware goes on with by itself: handler launches that have ended (R346), and repairs whose braid is quiet (R399). -/
def chores (s : State) : Option State :=
  (s.partKeys.findSome? (handlerStep s)).orElse fun _ => s.braidKeys.findSome? (repairStep s)

/-- The strand with the least clock that has a bundle to issue or cycles to wait, the lowest number where clocks tie. -/
def nextStrand (s : State) : Option (Nat × Nat) :=
  (s.strandKeys.filter fun e => (s.strand e.1 e.2).ready || (s.strand e.1 e.2).idles).foldl (fun a e =>
    match a with
    | none => some e
    | some d => some (if (s.strand e.1 e.2).clk < (s.strand d.1 d.2).clk then e else d)) none

/-- The machine moves of itself: firmware, a step that is due, a bundle; nothing where it is idle. -/
def runSelf (s : State) : Host.Outcome State Fault Refusal :=
  match (chores s).orElse fun _ => due s with
  | some t => .next t
  | none =>
    match nextStrand s with
    | some (b, k) => moveStrand s b k
    | none => .next s

/-- One move of the schedule: a strand issues or waits a cycle, a step of the device happens; any other move is none. -/
def runMove (m : Move) (s : State) : Host.Outcome State Fault Refusal :=
  match m with
  | .strand b k => if b < 96 ∧ k < 4 then moveStrand s b k else .next s
  | .device i => if i.slot.isNone then exec i s else .next s

/-- A module held in reset: it can be delivered a blob and powered on again (R421); else it stands still. -/
def runHeld (m : Option Move) (s : State) : Host.Outcome State Fault Refusal :=
  match m with
  | some (.device (.powerOn)) => execPowerOn s
  | some (.device (.configUpdate v m n)) => execConfigUpdate v m n s
  | some _ => .next s
  | none => .fault .heldInReset

/-! The strand a program is placed on (log 5). -/

/-- A record of world 0 with supervisor rights, running (R39). -/
def placedRecord : Rec := 2 ^ 123

/-- Where a placed bundle stands: the first bundle of a native region (R192). -/
def placedPage : Nat := 0x10000

end Sys2Proof.Machine
end

