-- ==== Sys2Proof/Machine/Step.lean ====
section
/-!
DEFINITION. One step of the machine (log 1), and an instruction placed where the next step fetches it (log 5).
-/

namespace Sys2Proof.Machine

/-- ONE STEP: the next move of the schedule, or where it names none what the machine does of itself. -/
def step (s : State) : Host.Outcome State Fault Refusal :=
  let t := { s with agenda := s.agenda.tail }
  if s.heldInReset then runHeld s.agenda.head? t
  else match s.agenda with
    | [] => runSelf s
    | m :: _ => runMove m t

/-- The instruction of a row placed in a native bundle of its own, sealed and executable, on strand 0 of braid 0, whose unit runs in world 0 as a
supervisor; the schedule names that strand next. -/
def State.withFetchWord (s : State) (nbits w : Nat) : State :=
  match decodeTableWord nbits w with
  | none => s
  | some i =>
    let v := bundleOf i (BitVec.ofNat 32 w)
    let s := s.writeN (placedPage + 16) (leBytes 2 0x7FE)
    let s := s.writeN (placedPage + 64) (leBytes 32 v.toNat)
    let page : TlbEntry := { world := 0, vpage := placedPage / 65536, page := placedPage, vis := 0, isSealed := true, x := true, w := false }
    let s := s.modBraid 0 fun t => { t with tlb := page :: t.tlb, icLines := (placedPage, 0) :: t.icLines }
    let s := s.modStrand 0 0 fun t =>
      { t with slot := Store.put t.slot 0 { st := .running, bind := placedRecord, desc := some 0 }, c := { t.c with pc := BitVec.ofNat 64 (placedPage + 65) }
               hold := none, haltWait := false, skip0 := false, skipRest := false, rtTimeout := none, frz := none, dbgCtl := [], sbd := [] }
    { s with agenda := [.strand 0 0], heldInReset := false }

end Sys2Proof.Machine
end

