-- ==== Sys2Proof/Safety.lean ====
section
/-!
DEFINITION. What a safe run is, and the terms claims are stated in: a strand that nothing delays, what a bundle may change, and how its strand
then stands.
-/

namespace Sys2Proof.Machine

/-- A step went on. -/
def Safe (o : Host.Outcome State Fault Refusal) : Prop := ∃ t, o = .next t

/-- The invariant of every state: memory in canonical form (log 3). -/
def State.Inv (s : State) : Prop := Memory.wf s.mem

/-- The module responds: it is not held in reset (R421). -/
def State.Alive (s : State) : Prop := s.heldInReset = false

/-- The strand whose bundle issues. -/
def State.here (s : State) : Strand := s.strand s.cur.1 s.cur.2

/-- The context of an operation that is alone in its bundle. -/
def State.ctx (s : State) (i : Instr) : Ctx := Ctx.of s (Bundle.single i).words none

/-- NOTHING DELAYS THE BUNDLE: the unit runs, is not being frozen, and neither waits at a HALT nor passes over a slot after a resume; no result of an
earlier bundle is in flight or awaited, and it waits on no FIFO; every issue interval has passed (R187); no pre-emption, single step or route timeout is
pending; and the bundle does not end a loop body (R224). -/
structure Quiet (s : State) : Prop where
  strand : s.cur.2 < 4
  runs : s.here.slot0.st = .running
  noHalt : s.here.haltWait = false
  noFreeze : s.here.frz = none
  noFifo : s.here.fifoWait = none
  noTimeout : s.here.rtTimeout = none
  whole : s.here.skip0 = false ∧ s.here.skipRest = false
  landed : s.here.pend = []
  arrived : s.here.sbd = []
  intervals : ∀ key, Store.get s.here.nextIss key 0 ≤ s.here.clk
  noStep : s.here.stepOnce = false
  noRequest : s.here.preempt = none
  inBody : ∀ e ∈ s.here.c.loops.head?, e.last ≠ s.here.c.pc.toNat ∨ e.depth ≠ s.here.c.callDepth

/-- ONLY THE STRAND'S OWN PART OF THE MACHINE CHANGED: memory, tokens, braids, partitions, worlds and every other strand are as before. -/
def OnlyHere (s t : State) : Prop :=
  { t with strands := s.strands } = s ∧ ∀ b k, k < 4 → (b, k) ≠ s.cur → t.strand b k = s.strand b k

/-- The strand as it stands once its bundle has issued in n cycles and its results have landed: registers r and control state c, the clock n
cycles on (R185, R187, R249); nothing else of it has changed. -/
def Strand.after (o : Strand) (n : Nat) (r : Regs) (c : Ctl) (iss : Store Nat) : Strand :=
  { o with r := r, c := c, clk := o.clk + n, runCyc := o.runCyc + n, lastClk := o.clk + n, nextIss := iss, bpSkip := 0, walked := [], fifoWait := none, stalled := false
           landed := false }

/-- The issue intervals after an operation of a class (R187). -/
def Ctx.isses (x : Ctx) (slot cls : Nat) : Store Nat := Store.put x.st.nextIss (64 * slot + cls) (x.st.clk + x.br.interval cls)

/-- The control state after a bundle that falls through: only the pc moves on (R160, R197). -/
def Ctx.stepped (x : Ctx) : Ctl := { x.st.c with pc := BitVec.ofNat 64 x.next }

/-- The control state after a taken transfer: a group switch, by which every latch is lost (R170, R215). -/
def Ctx.jumped (x : Ctx) (pc : Word) : Ctl := { x.st.c with pc := pc, latch := [], latchOk := 0, gen := x.st.c.gen + 1 }

/-- A slot's latch holds a value (R169). -/
def Ctl.latched (c : Ctl) (slot : Nat) (v : Word) : Ctl := { c with latch := Store.set c.latch slot v 0, latchOk := setBit c.latchOk slot true }

/-- The issue intervals after an operation of a class, or of none (R187). -/
def Ctx.issOf (x : Ctx) (slot : Nat) : Option Nat → Store Nat
  | some c => x.isses slot c
  | none => x.st.nextIss

/-- THE INSTRUCTION COMPLETES on its own strand: it answers a next state, nothing but its strand has changed, and once its latency has passed the
strand holds registers r and control state c, its bundle's cycles have passed, and its class cannot issue again in its slot before its interval
(R185, R187). Everything else of the strand is as before. -/
def Settles (i : Instr) (s : State) (lat slot : Nat) (cls : Option Nat) (r : Regs) (c : Ctl) : Prop :=
  ∃ t, exec i s = .next t ∧ OnlyHere s t ∧
    { t.here.landUpTo (s.here.clk + lat) with landed := false } = s.here.after (s.ctx i).cycles r c ((s.ctx i).issOf slot cls)

/-- The same of an operation that changes the machine to u beside its strand. -/
def SettlesIn (u : State) (i : Instr) (s : State) (lat slot : Nat) (cls : Option Nat) (r : Regs) (c : Ctl) : Prop :=
  ∃ t, exec i s = .next t ∧ OnlyHere u t ∧
    { t.here.landUpTo (s.here.clk + lat) with landed := false } = u.here.after (s.ctx i).cycles r c ((s.ctx i).issOf slot cls)

/-- The same of an operation with a timing class. -/
def Completes (i : Instr) (s : State) (lat slot cls : Nat) (r : Regs) (c : Ctl) : Prop := Settles i s lat slot (some cls) r c

/-- A format of kind 15 is not masked and has its converter installed (R142, R183). -/
def Ctx.fmtRuns (x : Ctx) (v : BitVec 32) : Prop := fmtKind v = 15 → x.masked 0 = false ∧ (x.br.converter (fmtConv v)).isSome = true

/-- The operation runs and every latch it reads is valid (R167, R170). -/
def Ctx.ready (x : Ctx) (pred : BitVec 3) (os : List Operand) : Prop := x.r.pred pred.toNat = true ∧ ∀ o ∈ os, x.badLatch o = false

/-- A scalar result: WS suppresses the register (R174, R214). -/
def Regs.withX (r : Regs) (ws : Bool) (d : BitVec 6) (v : Word) : Regs := if ws then r else { r with x := Store.set r.x (r.cellX d.toNat) v 0 }

/-- A predicate result: WS suppresses it, and p0 discards it (R167, R214, R237). -/
def Regs.withP (r : Regs) (ws : Bool) (p : BitVec 3) (v : Bool) : Regs :=
  if ws = true ∨ p = 0 then r else { r with pr := setBit r.pr (r.cellP p.toNat) v }

/-- The latency and the issue interval of a class on the strand's braid (R187, R189). -/
def State.lat (s : State) (cls : Nat) : Nat := (s.braid s.cur.1).latency cls

/-- THE INSTRUCTION DOES THIS AND NOTHING ELSE: it answers exactly the state u, its strand with registers r and control state c and its bundle's
cycles passed. -/
def Did (i : Instr) (s : State) (slot : Nat) (cls : Option Nat) (u : State) (r : Regs) (c : Ctl) : Prop :=
  exec i s = .next (u.modStrand s.cur.1 s.cur.2 fun t => t.after (s.ctx i).cycles r c ((s.ctx i).issOf slot cls))

/-- THE INSTRUCTION HAS AN EFFECT ON THE MACHINE: it answers exactly the state u with the strand moved on past its bundle. -/
def Effects (i : Instr) (s : State) (slot : Nat) (cls : Option Nat) (u : State) : Prop :=
  Did i s slot cls u (u.strand s.cur.1 s.cur.2).r { (u.strand s.cur.1 s.cur.2).c with pc := BitVec.ofNat 64 (s.ctx i).next }

/-- The bundle stalls: a cycle passes, and nothing else happens; `r63` tells whether R63 names the wait (R63, R184). -/
def StallsAs (r63 : Bool) (i : Instr) (s u : State) : Prop :=
  exec i s = .next (u.modStrand s.cur.1 s.cur.2 fun t => { t with clk := t.clk + 1, runCyc := t.runCyc + 1, landed := false, stalled := r63 })

/-- The bundle stalls on a wait of R63. -/
def Stalls (i : Instr) (s u : State) : Prop := StallsAs true i s u

/-- Every scoreboarded value that is there written to its registers (R75). -/
def Strand.arrived (t : Strand) : Strand :=
  ((t.sbd.filter fun v => v.tok.isNone && v.req.isNone).flatMap (·.effs)).foldl Strand.landEff
    { t with sbd := t.sbd.filter fun v => v.tok.isSome || v.req.isSome }

/-- THE INSTRUCTION COMPLETES WITH A SCOREBOARDED RESULT (R75): as Effects, once every awaited value of the strand has arrived. -/
def Arrives (i : Instr) (s : State) (slot : Nat) (cls : Option Nat) (u : State) (r : Regs) (c : Ctl) : Prop :=
  ∃ t, exec i s = .next t ∧ t.modStrand s.cur.1 s.cur.2 Strand.arrived =
    u.modStrand s.cur.1 s.cur.2 fun t => t.after (s.ctx i).cycles r c ((s.ctx i).issOf slot cls)

/-! What the caches hold, apart from everything else. -/

/-- A strand without its L1 and its micro-TLB; a braid without its cache. -/
def Strand.cold (t : Strand) : Strand := { t with l1 := [], mtlb := [] }
def Braid.cold (t : Braid) : Braid := { t with cache := [] }

/-- ONLY CACHES DIFFER (R66, R67, R76, R81): memory, marks of poison, tokens, worlds, and all of every strand and braid but what its caches hold are the same. -/
def SameButCaches (t u : State) : Prop :=
  { t with strands := u.strands, braids := u.braids, slices := u.slices } = u ∧ (∀ b k, (t.strand b k).cold = (u.strand b k).cold) ∧
    ∀ b, (t.braid b).cold = (u.braid b).cold

/-- The machine after an access: its translation used, its lines brought in or marked (R66, R67, R76, R81). -/
def Ctx.accessed (x : Ctx) (m : MemOp) (pa : Nat) (s : State) : State := (x.useTlb m.va s).touch x.b x.k x.arm m.acc.num m.cls pa m.size

/-- The machine after a store: besides, the lines it covers wholly lose their mark of poison (R420). -/
def Ctx.stored (x : Ctx) (m : MemOp) (pa : Nat) (s : State) : State := (x.accessed m pa s).markWrite false pa m.size

/-- AN ACCESS THAT NOTHING STOPS (R52, R83, R94, R99, R134, R252, R357, R415, R420): aligned, below 2^48, under a translation the strand or the braid holds, allowed
by its page, its world and its owner token, served by a cache or its route open, with room for a buffered line, no breakpoint on it, no transfer of the
strand's own over it, no poisoned data read, and no line to be fetched through a dead channel. -/
structure Reaches (x : Ctx) (m : MemOp) (e : TlbEntry) : Prop where
  aligned : m.va % m.size = 0
  below : m.va < 2 ^ 48
  held : (tlbFind x.st.mtlb x.world m.va).or (x.br.tlbHit x.world m.va) = some e
  writable : m.acc ≠ .load → e.isSealed = false ∧ e.w = true ∧ boundaryFault x.s x.world e = false
  token : m.tok = true → (m.acc = .load ∧ e.isSealed = true) ∨ tokenCheck x.s (x.br.holds x.agent x.world) (e.pa m.va) m.acc = none
  route : x.fareOf m (e.pa m.va) = .sent
  room : m.acc ≠ .load → x.br.bufferFull x.arm (e.pa m.va) m.size = false
  unbroken : m.dbg = true → x.st.dataBps m.va m.size m.acc.num = 0
  free : x.ownXfer m = false
  clean : m.acc ≠ .store → x.s.poisoned (e.pa m.va) m.size = false
  alive : x.s.deadLines (m.acc == .store) (e.pa m.va) m.size = []

/-- AN ACCESS IN A SLAB THAT NOTHING STOPS (R70, R73, R74): aligned, inside a ready slab of the unit's own world. -/
structure ReachesSlab (x : Ctx) (m : MemOp) : Prop where
  aligned : m.va % m.size = 0
  window : isWindow m.va = true
  owned : slabWorld (x.br.slabOf (winSlab m.va)) = x.world
  ready : slabState (x.br.slabOf (winSlab m.va)) = 2
  inside : winOff m.va + m.size ≤ slabSize (x.br.slabOf (winSlab m.va)) * 256
  unbroken : m.dbg = true → x.st.dataBps m.va m.size m.acc.num = 0

/-- No breakpoint, walk or trap of the operation's slot but the given one: it ends as taking that trap does (R161, R184). -/
def Traps (i : Instr) (s : State) (u : Trap) : Prop := exec i s = .next (takeTrap s s.cur.1 s.cur.2 u)

end Sys2Proof.Machine
end

