-- ==== Sys2Proof/Certificates/Slice0/Obligations.lean ====
section
/-!
DEFINITION. The statements for the provers. Each says when an instruction completes and what the machine then holds.
-/

namespace Sys2Proof.Machine.Claims
/-! Slots A and B. -/

/-- R format, integer (R235, R236): constructor, timing class, result. -/
def intR : List ((FmtAR → Instr) × Nat × (Word → Word → Word)) := [
  (.add, 0, fun a b => a + b), (.sub, 0, fun a b => a - b), (.mul, 1, fun a b => a * b),
  (.mulhI, 1, fun a b => BitVec.ofInt 64 (a.toInt * b.toInt / 2 ^ 64)), (.mulhW, 1, fun a b => BitVec.ofNat 64 (a.toNat * b.toNat / 2 ^ 64)),
  (.divI, 2, fun a b => if b = 0 then BitVec.allOnes 64 else a.sdiv b), (.divW, 2, fun a b => if b = 0 then BitVec.allOnes 64 else a / b),
  (.remI, 2, fun a b => if b = 0 then a else a.srem b), (.remW, 2, fun a b => if b = 0 then a else a % b),
  (.and, 0, fun a b => a &&& b), (.or, 0, fun a b => a ||| b), (.xor, 0, fun a b => a ^^^ b), (.andn, 0, fun a b => a &&& ~~~ b),
  (.minI, 0, fun a b => if a.slt b then a else b), (.maxI, 0, fun a b => if a.slt b then b else a),
  (.minW, 0, fun a b => if a.ult b then a else b), (.maxW, 0, fun a b => if a.ult b then b else a)]

/-- I format (R234, R235). -/
def intI : List ((FmtAI → Instr) × (Word → Word → Word)) := [
  (.addi, fun a b => a + b), (.andi, fun a b => a &&& b), (.ori, fun a b => a ||| b), (.xori, fun a b => a ^^^ b)]

/-- Shifts by an immediate (R235). -/
def intS : List ((FmtAS → Instr) × (Word → Nat → Word)) := [
  (.shli, fun a n => a <<< n), (.shri, fun a n => a >>> n), (.sari, fun a n => a.sshiftRight n)]

/-- Shifts by a register: bits 63 to 6 of the amount are ignored (R235). -/
def intX : List ((FmtAX → Instr) × (Word → Word → Word)) := [
  (.shl, fun a b => a <<< (b &&& 63)), (.shr, fun a b => a >>> (b &&& 63)), (.sar, fun a b => a.sshiftRight (b &&& 63).toNat),
  (.rol, fun a b => a.rotateLeft (b &&& 63).toNat)]

/-- POS and LEN of a control value (R239). -/
def fieldPos (c : Word) : Nat := (c &&& 63).toNat
def fieldLen (c : Word) : Nat := min (((c >>> 6) &&& 63).toNat + 1) (64 - fieldPos c)

/-- Field operations: the destination as read, the source and the control value (R239). -/
def fieldX : List ((FmtAX → Instr) × (Word → Word → Word → Word)) := [
  (.extW, fun _ a c => BitVec.ofNat 64 (a.toNat / 2 ^ fieldPos c % 2 ^ fieldLen c)),
  (.extI, fun _ a c => BitVec.ofInt 64 (Int.bmod (a.toNat / 2 ^ fieldPos c) (2 ^ fieldLen c))),
  (.ins, fun d a c =>
    let m : Word := (((1 : Word) <<< fieldLen c) - 1) <<< fieldPos c
    (d &&& ~~~ m) ||| ((a <<< fieldPos c) &&& m))]

/-- n is the number of leading zeros, of trailing zeros, of ones (R235). -/
def Leading (a : Word) (n : Nat) : Prop := n ≤ 64 ∧ (∀ i < n, a.getLsbD (63 - i) = false) ∧ (n < 64 → a.getLsbD (63 - n) = true)
def Trailing (a : Word) (n : Nat) : Prop := n ≤ 64 ∧ (∀ i < n, a.getLsbD i = false) ∧ (n < 64 → a.getLsbD n = true)
def Ones (a : Word) (n : Nat) : Prop := n = ((Finset.range 64).filter fun i => a.getLsbD i = true).card

def countU : List ((FmtAU → Instr) × (Word → Nat → Prop)) := [(.clz, Leading), (.ctz, Trailing), (.popc, Ones)]

/-- Condition codes 0 to 7 of integer compares (R175). -/
def intCond : List (Word → Word → Bool) := [
  fun a b => a == b, fun a b => a != b, fun a b => a.slt b, fun a b => a.sle b, fun a b => a.ult b, fun a b => a.ule b, fun a b => b.slt a, fun a b => b.sle a]

/-- Conditions of FCMP by code (R175, R242): NaN makes every one false but ne. -/
def floatCond : List (Nat → Nat → Bool) := [
  fun a b => f32.eqv a b, fun a b => !f32.eqv a b, fun a b => f32.lt a b, fun a b => f32.le a b, fun a b => f32.lt b a, fun a b => f32.le b a]

/-- The low 32 bits of an operand. -/
def low32 (v : Word) : Nat := v.toNat % 2 ^ 32

/-- Scalar binary32 operations: rounding, the destination as read, the operands (R241). -/
def floatR : List ((FmtAR → Instr) × (Rnd → Nat → Nat → Nat → Nat)) := [
  (.fadd, fun r _ a b => f32.add r a b), (.fsub, fun r _ a b => f32.sub r a b), (.fmul, fun r _ a b => f32.mul r a b),
  (.fmac, fun r d a b => f32.fma r d a b), (.fmin, fun _ _ a b => f32.min a b), (.fmax, fun _ _ a b => f32.max a b)]

/-- An I format's second operand: imm8 or the long immediate, sign-extended (R234). -/
def immOf (f : FmtAI) : Word := match f.lng with | some l => l.signExtend 64 | none => f.imm.signExtend 64

end Sys2Proof.Machine.Claims

open Sys2Proof Sys2Proof.Machine Sys2Proof.Machine.Claims

/-- R234 to R236: every two-operand integer operation writes its result to DST, and to its slot's latch in either case, at the latency of its class;
with WS the register is not written; with a long immediate that is the second operand. Nothing else changes. -/
def Sys2Proof.Machine.Claims.IntegerOperationsComplete : Prop :=
  ∀ e ∈ intR, ∀ (f : FmtAR) (s : State), Quiet s → (s.ctx (e.1 f)).ready f.pred (f.a :: if f.lng.isSome then [] else [f.b]) →
    let x := s.ctx (e.1 f)
    let v := e.2.2 (x.opnd f.a) (x.opndL f.b f.lng)
    Completes (e.1 f) s (s.lat e.2.1) f.sl.num e.2.1 (s.here.r.withX f.ws f.dst v) (x.stepped.latched f.sl.num v)

/-- R234, R235: ADDI, ANDI, ORI and XORI. -/
def Sys2Proof.Machine.Claims.ImmediateOperationsComplete : Prop :=
  ∀ e ∈ intI, ∀ (f : FmtAI) (s : State), Quiet s → (s.ctx (e.1 f)).ready f.pred [f.a] →
    let x := s.ctx (e.1 f)
    let v := e.2 (x.opnd f.a) (immOf f)
    Completes (e.1 f) s (s.lat 0) f.sl.num 0 (s.here.r.withX f.ws f.dst v) (x.stepped.latched f.sl.num v)

/-- R235: shifts by an immediate and by a register, and rotations. -/
def Sys2Proof.Machine.Claims.ShiftsComplete : Prop :=
  (∀ e ∈ intS, ∀ (f : FmtAS) (s : State), Quiet s → (s.ctx (e.1 f)).ready f.pred [f.a] →
    let x := s.ctx (e.1 f)
    let v := e.2 (x.opnd f.a) f.n.toNat
    Completes (e.1 f) s (s.lat 0) f.sl.num 0 (s.here.r.withX f.ws f.dst v) (x.stepped.latched f.sl.num v)) ∧
  (∀ e ∈ intX, ∀ (f : FmtAX) (s : State), Quiet s → (s.ctx (e.1 f)).ready f.pred [f.a, f.b] →
    let x := s.ctx (e.1 f)
    let v := e.2 (x.opnd f.a) (x.opnd f.b)
    Completes (e.1 f) s (s.lat 0) f.sl.num 0 (s.here.r.withX f.ws f.dst v) (x.stepped.latched f.sl.num v))

/-- R239: EXT.i, EXT.w and INS, the destination read at issue. -/
def Sys2Proof.Machine.Claims.FieldOperationsComplete : Prop :=
  ∀ e ∈ fieldX, ∀ (f : FmtAX) (s : State), Quiet s → (s.ctx (e.1 f)).ready f.pred [f.a, f.b] →
    let x := s.ctx (e.1 f)
    let v := e.2 (s.here.r.getX f.dst.toNat) (x.opnd f.a) (x.opnd f.b)
    Completes (e.1 f) s (s.lat 0) f.sl.num 0 (s.here.r.withX f.ws f.dst v) (x.stepped.latched f.sl.num v)

/-- R235: CLZ, CTZ and POPC, 0 to 64. -/
def Sys2Proof.Machine.Claims.BitCountsComplete : Prop :=
  ∀ e ∈ countU, ∀ (f : FmtAU) (s : State) (n : Nat), Quiet s → (s.ctx (e.1 f)).ready f.pred [f.a] → e.2 ((s.ctx (e.1 f)).opnd f.a) n →
    Completes (e.1 f) s (s.lat 0) f.sl.num 0 (s.here.r.withX f.ws f.dst (BitVec.ofNat 64 n)) ((s.ctx (e.1 f)).stepped.latched f.sl.num (BitVec.ofNat 64 n))

/-- R237, R242, R175: compares write 1 or 0 to pd and to the latch; p0 and WS keep the latch's result alone. -/
def Sys2Proof.Machine.Claims.ComparesComplete : Prop :=
  (∀ (f : FmtAC) (s : State), Quiet s → (s.ctx (.cmp f)).ready f.pred (f.a :: if f.lng.isSome then [] else [f.b]) →
    let x := s.ctx (.cmp f)
    let v := (intCond.getD f.cond.toNat fun _ _ => false) (x.opnd f.a) (x.opndL f.b f.lng)
    Completes (.cmp f) s (s.lat 0) f.sl.num 0 (s.here.r.withP f.ws f.pd v) (x.stepped.latched f.sl.num (if v then 1 else 0))) ∧
  (∀ (f : FmtACI) (s : State), Quiet s → (s.ctx (.cmpi f)).ready f.pred [f.a] →
    let x := s.ctx (.cmpi f)
    let v := (intCond.getD f.cond.toNat fun _ _ => false) (x.opnd f.a) (match f.lng with | some l => l.signExtend 64 | none => f.imm.signExtend 64)
    Completes (.cmpi f) s (s.lat 0) f.sl.num 0 (s.here.r.withP f.ws f.pd v) (x.stepped.latched f.sl.num (if v then 1 else 0))) ∧
  (∀ (f : FmtAC) (s : State), f.cond.toNat < 6 → Quiet s → (s.ctx (.fcmp f)).ready f.pred (f.a :: if f.lng.isSome then [] else [f.b]) →
    let x := s.ctx (.fcmp f)
    let v := (floatCond.getD f.cond.toNat fun _ _ => false) (low32 (x.opnd f.a)) (low32 (x.opndL f.b f.lng))
    Completes (.fcmp f) s (s.lat 3) f.sl.num 3 (s.here.r.withP f.ws f.pd v) (x.stepped.latched f.sl.num (if v then 1 else 0)))

/-- R238, R240: SEL reads its predicate as a selector and is never suppressed; MOVL and MOVH build a 64-bit constant. -/
def Sys2Proof.Machine.Claims.SelectAndConstantsComplete : Prop :=
  (∀ (f : FmtAR) (s : State), Quiet s → (∀ o ∈ f.a :: (if f.lng.isSome then [] else [f.b]), (s.ctx (.sel f)).badLatch o = false) →
    let x := s.ctx (.sel f)
    let v := if s.here.r.pred f.pred.toNat then x.opnd f.a else x.opndL f.b f.lng
    Completes (.sel f) s (s.lat 0) f.sl.num 0 (s.here.r.withX f.ws f.dst v) (x.stepped.latched f.sl.num v)) ∧
  (∀ (f : FmtAL) (s : State), Quiet s → (s.ctx (.movl f)).ready f.pred [] →
    let v := f.lng.setWidth 64
    Completes (.movl f) s (s.lat 0) f.sl.num 0 (s.here.r.withX f.ws f.dst v) ((s.ctx (.movl f)).stepped.latched f.sl.num v)) ∧
  (∀ (f : FmtAL) (s : State), Quiet s → (s.ctx (.movh f)).ready f.pred [] →
    let v : Word := f.lng ++ (s.here.r.getX f.dst.toNat).setWidth 32
    Completes (.movh f) s (s.lat 0) f.sl.num 0 (s.here.r.withX f.ws f.dst v) ((s.ctx (.movh f)).stepped.latched f.sl.num v))

/-- R241, R152: scalar binary32 arithmetic under FRM as it stood before the bundle, FMAC rounded once with d read at issue. -/
def Sys2Proof.Machine.Claims.FloatOperationsComplete : Prop :=
  ∀ e ∈ floatR, ∀ (f : FmtAR) (s : State), Quiet s → (s.ctx (e.1 f)).ready f.pred (f.a :: if f.lng.isSome then [] else [f.b]) →
    let x := s.ctx (e.1 f)
    let v := BitVec.ofNat 64 (e.2 (Rnd.ofArith s.here.r.frm) (low32 (s.here.r.getX f.dst.toNat)) (low32 (x.opnd f.a)) (low32 (x.opndL f.b f.lng)))
    Completes (e.1 f) s (s.lat 3) f.sl.num 3 (s.here.r.withX f.ws f.dst v) (x.stepped.latched f.sl.num v)

/-- R154, R243: FCVT converts between the types of its control byte; under STOCH it draws once, whatever the types. -/
def Sys2Proof.Machine.Claims.FcvtCompletes : Prop :=
  ∀ (f : FmtAV) (s : State), f.cvTo.toNat < 7 → f.cvFrom.toNat < 7 → Quiet s → (s.ctx (.fcvt f)).ready f.pred [f.a] →
    let x := s.ctx (.fcvt f)
    let draw := stochStep s.here.r.stoch
    let rnd := if s.here.r.frm = 4 then Rnd.stoch (stochBits draw) else Rnd.ofArith s.here.r.frm
    let v := cvtResult f.cvTo.toNat rnd (cvtSource f.cvFrom.toNat (x.opnd f.a))
    let r := if s.here.r.frm = 4 then { s.here.r with stoch := draw } else s.here.r
    Completes (.fcvt f) s (s.lat 3) f.sl.num 3 (r.withX f.ws f.dst v) (x.stepped.latched f.sl.num v)

/-- R244: KW writes a staging register, but not with WS, and leaves its latch unchanged; KR reads one. -/
def Sys2Proof.Machine.Claims.StagingCompletes : Prop :=
  (∀ (f : FmtBKw) (s : State), Quiet s → (s.ctx (.kw f)).ready f.pred (if f.lng.isSome then [] else [f.b]) →
    let x := s.ctx (.kw f)
    Completes (.kw f) s (s.lat 0) 2 0 (if f.ws then s.here.r else { s.here.r with k := Store.set s.here.r.k f.k.toNat (x.opndL f.b f.lng) 0 }) x.stepped) ∧
  (∀ (f : FmtBKr) (s : State), Quiet s → (s.ctx (.kr f)).ready f.pred [] →
    let v := Store.get s.here.r.k f.k.toNat 0
    Completes (.kr f) s (s.lat 0) 2 0 (s.here.r.withX f.ws f.dst v) ((s.ctx (.kr f)).stepped.latched 2 v))

/-- The predicate file as PGET reads it: bit i is pi, and bit 0 reads 1 (R248). -/
def Sys2Proof.Machine.Claims.predBits (r : Regs) (v : BitVec 8) : Prop := ∀ i < 8, v.getLsbD i = r.pred i

/-- R247, R248: predicate logic, PGET, and PSET of the predicates its mask names: the latch takes the file as it would read. -/
def Sys2Proof.Machine.Claims.PredicateOperationsComplete : Prop :=
  (∀ e ∈ ([(.pand, fun a b => a && b), (.por, fun a b => a || b), (.pxor, fun a b => a != b)] : List ((FmtBP2 → Instr) × (Bool → Bool → Bool))),
    ∀ (f : FmtBP2) (s : State), Quiet s → (s.ctx (e.1 f)).ready f.pred [] →
    let v := e.2 (s.here.r.pred f.pa.toNat) (s.here.r.pred f.pb.toNat)
    Completes (e.1 f) s (s.lat 0) 2 0 (s.here.r.withP f.ws f.pd v) ((s.ctx (e.1 f)).stepped.latched 2 (if v then 1 else 0))) ∧
  (∀ (f : FmtBP1) (s : State), Quiet s → (s.ctx (.pnot f)).ready f.pred [] →
    let v := !s.here.r.pred f.pa.toNat
    Completes (.pnot f) s (s.lat 0) 2 0 (s.here.r.withP f.ws f.pd v) ((s.ctx (.pnot f)).stepped.latched 2 (if v then 1 else 0))) ∧
  (∀ (f : FmtBD) (s : State) (v : BitVec 8), Quiet s → (s.ctx (.pget f)).ready f.pred [] → predBits s.here.r v →
    Completes (.pget f) s (s.lat 0) 2 0 (s.here.r.withX f.ws f.dst (v.setWidth 64)) ((s.ctx (.pget f)).stepped.latched 2 (v.setWidth 64))) ∧
  (∀ (f : FmtBPs) (s : State) (r : Regs) (v : BitVec 8), Quiet s → (s.ctx (.pset f)).ready f.pred [f.b] →
    let x := s.ctx (.pset f)
    r = (if f.ws then s.here.r else ([1, 2, 3, 4, 5, 6, 7].filter fun i => f.msk.getLsbD i).foldl
      (fun (r : Regs) i => { r with pr := setBit r.pr (r.cellP i) ((x.opnd f.b).getLsbD i) }) s.here.r) →
    (∀ i < 8, v.getLsbD i = if i ≠ 0 ∧ f.msk.getLsbD i then (x.opnd f.b).getLsbD i else s.here.r.pred i) →
    Completes (.pset f) s (s.lat 0) 2 0 r (x.stepped.latched 2 (v.setWidth 64)))

/-- R234 to R236: integer operations of two registers, of a register and an immediate, and with a long immediate. -/
def Obligations.IntegerOperationsComplete : Prop := Claims.IntegerOperationsComplete ∧ Claims.ImmediateOperationsComplete

/-- R235, R239: shifts and rotations, field operations, bit counts. -/
def Obligations.ShiftsAndFieldsComplete : Prop := Claims.ShiftsComplete ∧ Claims.FieldOperationsComplete ∧ Claims.BitCountsComplete

/-- R237, R238, R240, R242: compares, SEL, MOVL and MOVH. -/
def Obligations.ComparesAndSelectComplete : Prop := Claims.ComparesComplete ∧ Claims.SelectAndConstantsComplete

/-- R152, R154, R241, R243: scalar floating point and its conversion. -/
def Obligations.FloatOperationsComplete : Prop := Claims.FloatOperationsComplete ∧ Claims.FcvtCompletes

/-- R244, R247, R248: staging registers and the predicate file. -/
def Obligations.StagingAndPredicatesComplete : Prop := Claims.StagingCompletes ∧ Claims.PredicateOperationsComplete
/-- R249: RDCYC writes the strand's cycle counter; after a resume it writes some value, which no statement names (log 4). -/
def Sys2Proof.Machine.Claims.RdcycCompletes : Prop :=
  (∀ (f : FmtBD) (s : State), Quiet s → (s.ctx (.rdcyc f)).ready f.pred [] → s.here.clkFree = false →
    let v := BitVec.ofNat 64 s.here.clk
    Completes (.rdcyc f) s (s.lat 0) 2 0 (s.here.r.withX f.ws f.dst v) ((s.ctx (.rdcyc f)).stepped.latched 2 v)) ∧
  (∀ (f : FmtBD) (s : State), Quiet s → (s.ctx (.rdcyc f)).ready f.pred [] → s.here.clkFree = true → ∃ t v, exec (.rdcyc f) s = .next t ∧
    OnlyHere { s with freeCtr := s.freeCtr + 1 } t ∧ { t.here.landUpTo (s.here.clk + s.lat 0) with landed := false } =
      s.here.after (s.ctx (.rdcyc f)).cycles (s.here.r.withX f.ws f.dst v) ((s.ctx (.rdcyc f)).stepped.latched 2 v) ((s.ctx (.rdcyc f)).isses 2 0))

/-- The registers of R245 that the strand, its unit, its world or the device hold in one field. -/
def Sys2Proof.Machine.Claims.sysValues : List (Nat × (Ctx → Word)) := [
  (0x00, fun x => x.r.frm.setWidth 64), (0x01, fun x => x.r.stoch.setWidth 64), (0x02, fun x => x.st.c.linkBase), (0x03, fun x => x.st.c.linkLimit),
  (0x04, fun x => x.st.c.linkTop), (0x05, fun x => BitVec.ofNat 64 x.st.c.leaseRun), (0x07, fun x => x.s.mapSeq.setWidth 64), (0x09, fun x => x.br.sig),
  (0x0A, fun x => BitVec.ofNat 64 x.world), (0x20, fun x => (x.s.world x.world).featMask.setWidth 64),
  (0x23, fun x => BitVec.ofNat 64 (4 * x.br.sync.toNat + 2 * x.br.syncRefused.toNat + x.br.sync.toNat)),
  (0x26, fun x => x.br.shTotal ++ x.br.shLast ++ x.br.shNom ++ (0 : BitVec 16)), (0x27, fun x => x.s.errCell), (0x28, fun x => x.s.errXfer),
  (0x2A, fun x => x.st.c.trapCtl.setWidth 64), (0x2B, fun x => x.st.c.trapVec.setWidth 64), (0x2C, fun x => x.st.c.trapEpc.setWidth 64),
  (0x2D, fun x => x.st.c.trapCause.setWidth 64)]

/-- R245: GSR writes the value of the register it names; it traps with cause 0x02 for an unassigned number, and with 0x03 where a user unit names a
supervisor register. -/
def Sys2Proof.Machine.Claims.GsrReadsOrTraps : Prop :=
  (∀ (f : FmtBG) (s : State), Quiet s → (s.ctx (.gsr f)).ready f.pred [] → sysAssigned f.num.toNat = true →
    (sysSupv f.num.toNat = true → (s.ctx (.gsr f)).supv = true) →
    let x := s.ctx (.gsr f)
    Completes (.gsr f) s (s.lat 0) 2 0 (s.here.r.withX f.ws f.dst (x.readSys f.num.toNat)) (x.stepped.latched 2 (x.readSys f.num.toNat))) ∧
  (∀ e ∈ sysValues, ∀ x : Ctx, x.readSys e.1 = e.2 x) ∧
  (∀ (f : FmtBG) (s : State), Quiet s → sysAssigned f.num.toNat = false → Traps (.gsr f) s { cause := 0x02, step := 2, slot := 2 }) ∧
  (∀ (f : FmtBG) (s : State), Quiet s → sysAssigned f.num.toNat = true → sysSupv f.num.toNat = true → (s.ctx (.gsr f)).supv = false →
    Traps (.gsr f) s { cause := 0x03, step := 4, slot := 2 })

/-- What SSR does to the registers the strand holds: FRM takes a defined code alone; LINK_BASE sets TOP too, and neither it nor LINK_LIMIT is
written while an entry is spilled; TRAP_CTL keeps INHANDLER; the read-only ones are ignored (R152, R183, R220, R231, R245). -/
def Sys2Proof.Machine.Claims.ssrOwn (r : Regs) (c : Ctl) (v : Word) : List (Nat × Regs × Ctl) := [
  (0x00, if (v &&& 7).toNat ≤ 4 then { r with frm := v.setWidth 3 } else r, c), (0x01, r, c),
  (0x02, r, if c.linkTop = c.linkBase then { c with linkBase := v &&& 0xFFFFFFFFFFF8, linkTop := v &&& 0xFFFFFFFFFFF8 } else c),
  (0x03, r, if c.linkTop = c.linkBase then { c with linkLimit := v &&& 0xFFFFFFFFFFF8 } else c),
  (0x04, r, c), (0x05, r, c), (0x06, r, c), (0x07, r, c), (0x08, r, c), (0x09, r, c), (0x0A, r, c), (0x20, r, c), (0x24, r, c),
  (0x2A, r, { c with trapCtl := c.trapCtl.extractLsb' 3 1 ++ v.setWidth 3 }), (0x2B, r, { c with trapVec := v.setWidth 48 }),
  (0x2C, r, { c with trapEpc := v.setWidth 48 }), (0x2D, r, c)]

/-- R245: SSR of a register of the strand takes effect from the next bundle; a user unit's SSR of a supervisor register traps with cause 0x03, and an
unassigned number with 0x02. -/
def Sys2Proof.Machine.Claims.SsrWritesOwnOrTraps : Prop :=
  (∀ (f : FmtBS) (s : State), Quiet s → (s.ctx (.ssr f)).ready f.pred [f.b] → (sysSupv f.num.toNat = true → (s.ctx (.ssr f)).supv = true) →
    ∀ e ∈ ssrOwn s.here.r (s.ctx (.ssr f)).stepped ((s.ctx (.ssr f)).opnd f.b), e.1 = f.num.toNat → Completes (.ssr f) s 0 2 0 e.2.1 e.2.2) ∧
  (∀ (f : FmtBS) (s : State), Quiet s → sysAssigned f.num.toNat = false → Traps (.ssr f) s { cause := 0x02, step := 2, slot := 2 }) ∧
  (∀ (f : FmtBS) (s : State), Quiet s → (s.ctx (.ssr f)).badLatch f.b = false → sysAssigned f.num.toNat = true → sysSupv f.num.toNat = true →
    (s.ctx (.ssr f)).supv = false → Traps (.ssr f) s { cause := 0x03, step := 4, slot := 2 })

/-- The registers of the braid, the partition and the device that a supervisor unit writes (R24, R26, R69, R245, R384, R405, R416 to R418): a PWR_GATE
write without APPLY names its target and request alone; a BANK_MODE request of the mode in force is done at once, and one that a bank in CACHE mode
can take stays pending; a PAIR_SYNC write of the mode in force clears REFUSED, and one while a vertical FIFO holds an entry is refused; SCRUB_PROG
begins a teardown of an assigned world, whose context key is destroyed (R361); CLR clears SHADOW_CNT's TOTAL and the error registers; LANE_MAP takes its selector. -/
def Sys2Proof.Machine.Claims.SsrWritesSharedRegisters : Prop :=
  ∀ (f : FmtBS) (s : State), Quiet s → (s.ctx (.ssr f)).ready f.pred [f.b] → (s.ctx (.ssr f)).supv = true →
    let b := s.cur.1
    let k := s.cur.2
    let v := (s.ctx (.ssr f)).opnd f.b
    let br := s.braid b
    let bank := bits v 59 5
    let req := bits v 57 2
    br.logicOn = true →
    let ask := fun res => Store.put br.bmReq k (BitVec.ofNat 64 (v.toNat / 2 ^ 53 * 2 ^ 53 + res * 2 ^ 50))
    (f.num = 0x21 → v.getLsbD 0 = false →
      Effects (.ssr f) s 2 (some 0) (s.setBraid b { br with pwrTarget := some (bits v 32 7), pwrReq := BitVec.ofNat 8 (bits v 4 8) })) ∧
    (f.num = 0x22 → bank < 24 → req ≠ 3 → br.bankModeOf bank = req → br.switching bank = false → s.bankReserved b bank = false →
      Effects (.ssr f) s 2 (some 0) (s.setBraid b { br with bmReq := ask 0 })) ∧
    (f.num = 0x22 → bank < 24 → (req = 1 ∨ req = 2) → br.bankModeOf bank = 0 → 2 < br.cacheBanks → br.switching bank = false →
      s.bankReserved b bank = false → Effects (.ssr f) s 2 (some 0) (s.setBraid b { br with
        bmReq := ask 1, bankSw := br.bankSw ++ [{ bank := bank, mode := req, evt := some (k, bits v 53 4) }] })) ∧
    (f.num = 0x23 → v.getLsbD 0 = br.sync → Effects (.ssr f) s 2 (some 0) (s.setBraid b { br with syncRefused := false })) ∧
    (f.num = 0x23 → v.getLsbD 0 ≠ br.sync → (∃ i < 4, Store.get br.vf i [] ≠ []) →
      Effects (.ssr f) s 2 (some 0) (s.setBraid b { br with syncRefused := true })) ∧
    (f.num = 0x25 → v.getLsbD 0 = true → s.assigned (bits v 56 8) (partOf b) = true → (s.world (bits v 56 8)).phase ∉ [1, 2] →
      Effects (.ssr f) s 2 (some 0) ((s.setPart (partOf b) { s.part (partOf b) with scrubSel := bits v 56 8 }).setWorld (bits v 56 8)
        { s.world (bits v 56 8) with phase := 1, ctxKey := none, listBraids := [], doneBraids := [], listRanges := [], doneGranules := [], byUnit := true })) ∧
    (f.num = 0x26 → v.getLsbD 0 = true → Effects (.ssr f) s 2 (some 0) (s.setBraid b { br with shTotal := 0 })) ∧
    (f.num = 0x27 → v.getLsbD 0 = true → Effects (.ssr f) s 2 (some 0) { s with errCell := 0 }) ∧
    (f.num = 0x28 → v.getLsbD 0 = true → Effects (.ssr f) s 2 (some 0) { s with errXfer := 0 }) ∧
    (f.num = 0x29 → Effects (.ssr f) s 2 (some 0) (s.setBraid b { br with laneSel := v.extractLsb' 56 8 }))

/-- The doubleword PARAM i loads: at PARAMS + 8 i of the descriptor; of a trap handler, in its parameter block of eight (R250, R346). -/
def Sys2Proof.Machine.Claims.paramAccess (x : Ctx) (i : Word) : MemOp :=
  { slot := 2, size := 8, acc := .load, tok := false, dbg := false
    va := ((match x.st.slot0.params with | some p => p.toNat | none => dParams x.desc) + 8 * i.toNat) % 2 ^ 64 }

/-- R250: PARAM loads a doubleword of the parameter block, with no owner token; an index not below PCOUNT traps with cause 0x16. -/
def Sys2Proof.Machine.Claims.ParamLoadsOrTraps : Prop :=
  (∀ (f : FmtBPm) (s : State) (e : TlbEntry), Quiet s → (s.ctx (.param f)).ready f.pred [f.a] →
    let x := s.ctx (.param f)
    let i := x.opnd f.a
    let m := paramAccess x i
    let v := BitVec.ofNat 64 (leNat (readBuf s s.cur.1 x.arm (e.pa m.va) 8))
    i.toNat < (if x.st.slot0.params.isSome then 8 else dPcount x.desc) → Reaches x m e → SameButCaches (x.accessed m (e.pa m.va) s) s ∧
    Arrives (.param f) s 2 (some 4) (x.accessed m (e.pa m.va) s) (s.here.r.withX f.ws f.dst v) (x.stepped.latched 2 v)) ∧
  (∀ (f : FmtBPm) (s : State), Quiet s → (s.ctx (.param f)).ready f.pred [f.a] →
    (if s.here.slot0.params.isSome then 8 else dPcount s.here.slot0.descr) ≤ ((s.ctx (.param f)).opnd f.a).toNat →
    Traps (.param f) s { cause := 0x16, step := 6, slot := 2 })

/-- R245, R249, R250: RDCYC, GSR and PARAM. -/
def Obligations.SystemReadsCompleteOrTrap : Prop := Claims.RdcycCompletes ∧ Claims.GsrReadsOrTraps ∧ Claims.ParamLoadsOrTraps

/-- R245: SSR, of the strand's registers and of those it shares. -/
def Obligations.SystemWritesComplete : Prop := Claims.SsrWritesOwnOrTraps ∧ Claims.SsrWritesSharedRegisters
/-! Slot C. -/

namespace Sys2Proof.Machine.Claims

/-- A target counted from the transfer's own bundle, or tag word in dense form, modulo 2^64 (R215, R216). -/
def targetOf (x : Ctx) (n : Int) : Nat := Int.toNat (((x.pc : Int) + n * (if x.native then 32 else 4)) % 2 ^ 64)

/-- A direct target stays in its native region; in dense form any is decoded (R193, R216). -/
def DirectOk (x : Ctx) (t : Nat) : Prop :=
  x.native = false ∨ ∃ h, regionHeader x.s x.b x.world (regionOf x.pc) = some h ∧ regionOf x.pc + 64 < t ∧ (t - 1 - regionOf x.pc - 64) / 32 < h.1

/-- An indirect target is an aligned tag word, or a bundle of a native region whose signature is the braid's (R195, R215). -/
def IndirectOk (x : Ctx) (t : Nat) : Prop :=
  t % 4 = 0 ∨ (t % 2 = 1 ∧ ∃ h, regionHeader x.s x.b x.world (regionOf t) = some h ∧ regionOf t + 64 < t ∧ (t - 1 - regionOf t) % 32 = 0 ∧
    (t - 1 - regionOf t - 64) / 32 < h.1 ∧ h.2 = x.br.sig)

/-- The body of a loop stays within its native region and within the body around it (R225). -/
def BodyOk (x : Ctx) (len : Nat) : Prop :=
  (x.native = true → ∃ h, regionHeader x.s x.b x.world (regionOf x.pc) = some h ∧ (x.pc - 1 - regionOf x.pc - 64) / 32 + len < h.1) ∧
  ∀ e ∈ x.st.c.loops.find? (·.depth == x.st.c.callDepth), (x.bodyEnd len).1 ≤ e.last

/-- Slot operations that change nothing but the pc: no-ops, SCOPE and HINT. -/
def noEffect : List (Instr × Nat) := [(.nopC, 0), (.nop .A, 1), (.nop .B, 2), (.nopM, 3), (.nopV, 4), (.nopX, 5), (.nopE, 6), (.nopF, 7)]

/-- The control state after a call: the return address and loop depth pushed, the call counted, a group switch (R218). -/
def called (x : Ctx) (t : Word) : Ctl :=
  { x.jumped t with links := { ret := BitVec.ofNat 48 x.next, depth := BitVec.ofNat 3 x.st.c.loops.length } :: x.st.c.links, callDepth := x.st.c.callDepth + 1 }

/-- The control state after RET to an entry: loops the callee left open are popped (R219). -/
def returned (x : Ctx) (e : LinkEntry) (rest : List LinkEntry) : Ctl :=
  { x.jumped (e.ret.setWidth 64) with links := rest, loops := x.st.c.loops.drop (x.st.c.loops.length - e.depth.toNat), callDepth := x.st.c.callDepth - 1 }

/-- The entry a loop pushes (R222, R223). -/
def loopEntry (x : Ctx) (len count : Nat) (rot : Option Nat) : LoopEntry :=
  { first := x.next, last := (x.bodyEnd len).1, exit := (x.bodyEnd len).2, count := count, n := rot.getD 0, idx := 0, depth := x.st.c.callDepth, rot := rot.isSome }

/-- p4 to p7 as LOOPR writes them (R223). -/
def stagePreds (r : Regs) (n : Nat) : Regs :=
  { r with pr := setBit (setBit (setBit (setBit r.pr (r.cellP 4) (decide (0 < n))) (r.cellP 5) false) (r.cellP 6) false) (r.cellP 7) false }

/-- The access by which a full link stack spills its oldest entry, and by which RET refills an empty one (R218, R219, R221). -/
def spillAccess (x : Ctx) : MemOp := { slot := 0, va := x.st.c.linkTop.toNat, size := 8, acc := .store, dbg := false }
def refillAccess (x : Ctx) : MemOp := { slot := 0, va := x.st.c.linkTop.toNat - 8, size := 8, acc := .load, dbg := false }

/-- A spilled entry: RET at 47 to 0, DEPTH at 50 to 48, zeros above (R221). -/
def spillBytes (e : LinkEntry) : List Byte := leBytes 8 ((0 : BitVec 13) ++ e.depth ++ e.ret).toNat

/-- What a call to t does: push; spill, then push; or trap, its spill area being full (R218). -/
def CallDoes (i : Instr) (s : State) (t : Word) : Prop :=
  let x := s.ctx i
  let c := s.here.c
  (c.links.length < 8 → Did i s 0 (some 0) s s.here.r (called x t)) ∧
  (∀ e old, c.links.getLast? = some old → 8 ≤ c.links.length → c.linkTop.toNat + 8 ≤ c.linkLimit.toNat → Reaches x (spillAccess x) e →
    Did i s 0 (some 0) (x.stored (spillAccess x) (e.pa c.linkTop.toNat) (writeBuf s s.cur.1 x.arm (e.pa c.linkTop.toNat) (spillBytes old))) s.here.r
      { called x t with links := { ret := BitVec.ofNat 48 x.next, depth := BitVec.ofNat 3 c.loops.length } :: c.links.dropLast, linkTop := c.linkTop + 8 }) ∧
  (∀ e, 8 ≤ c.links.length → c.linkLimit.toNat < c.linkTop.toNat + 8 → Reaches x (spillAccess x) e → Traps i s { cause := 0x05, step := 5 })

end Sys2Proof.Machine.Claims

/-- R162, R259, R334, R340: NOP in every slot, SCOPE and HINT change nothing but the pc; PREF, which alone of them takes an issue interval, changes beside it
only what the caches hold: a line none of the conditions of R259 stands against enters the braid cache. -/
def Obligations.NoEffectOperationsComplete : Prop :=
  (∀ e ∈ noEffect, ∀ s : State, Quiet s → Effects e.1 s e.2 none s) ∧
  (∀ (f : FmtFS) (s : State), Quiet s → Effects (.scope f) s 7 none s) ∧
  (∀ (f : FmtFH) (s : State), Quiet s → s.here.r.pred f.pred.toNat = true → Effects (.hint f) s 7 none s) ∧
  (∀ (f : FmtMP) (s : State), Quiet s → (s.ctx (.pref f)).ready f.pred [f.base] →
    let x := s.ctx (.pref f)
    let ea := (x.opnd f.base + (match f.lng with | some l => l.signExtend 64 | none => BitVec.ofInt 64 (f.off.toInt * 128))).toNat
    (isWindow ea = true ∨ 2 ^ 48 ≤ ea → Effects (.pref f) s 3 (some 4) s) ∧
    (∀ e, ea < 2 ^ 48 → (tlbFind x.st.mtlb x.world ea).or (x.br.tlbHit x.world ea) = some e →
      ∃ u, SameButCaches u s ∧ Effects (.pref f) s 3 (some 4) u ∧
        ((s.homeOnly (e.pa ea) = true ∨ fare s s.cur.1 x.world (e.pa ea) 0 ≠ .sent ∨ (e.isSealed = false ∧
          tokenCheck s (x.br.holds x.agent x.world) (e.pa ea) .load = some 0x07)) → u = s) ∧
        (s.homeOnly (e.pa ea) = false → fare s s.cur.1 x.world (e.pa ea) 0 = .sent → e.isSealed = true → x.br.hasLine x.arm (lineOf (e.pa ea)) = false →
          u = (s.homeTouch (lineOf (e.pa ea)) false []).allocLine s.cur.1 { line := lineOf (e.pa ea) })))

/-- R216, R170: a branch that is taken goes to its target and is a group switch, which loses every latch; BRN is taken when its predicate is false. -/
def Sys2Proof.Machine.Claims.BranchesComplete : Prop :=
  (∀ (f : FmtCB) (s : State), Quiet s → s.here.r.pred f.pred.toNat = true → DirectOk (s.ctx (.br f)) (targetOf (s.ctx (.br f)) f.off.toInt) →
    Did (.br f) s 0 (some 0) s s.here.r ((s.ctx (.br f)).jumped (BitVec.ofNat 64 (targetOf (s.ctx (.br f)) f.off.toInt)))) ∧
  (∀ (f : FmtCB) (s : State), Quiet s → s.here.r.pred f.pred.toNat = false → DirectOk (s.ctx (.brn f)) (targetOf (s.ctx (.brn f)) f.off.toInt) →
    Did (.brn f) s 0 (some 0) s s.here.r ((s.ctx (.brn f)).jumped (BitVec.ofNat 64 (targetOf (s.ctx (.brn f)) f.off.toInt)))) ∧
  (∀ (f : FmtCL) (s : State), Quiet s → s.here.r.pred f.pred.toNat = true → DirectOk (s.ctx (.brL f)) (targetOf (s.ctx (.brL f)) f.lng.toInt) →
    Did (.brL f) s 0 (some 0) s s.here.r ((s.ctx (.brL f)).jumped (BitVec.ofNat 64 (targetOf (s.ctx (.brL f)) f.lng.toInt)))) ∧
  (∀ (f : FmtCO) (s : State), Quiet s → (s.ctx (.bri f)).ready f.pred [f.tgt] → IndirectOk (s.ctx (.bri f)) ((s.ctx (.bri f)).opnd f.tgt).toNat →
    Did (.bri f) s 0 (some 0) s s.here.r ((s.ctx (.bri f)).jumped ((s.ctx (.bri f)).opnd f.tgt)))

/-- R193, R215, R216: a direct branch out of its native region makes the bundle illegal, whatever its predicate; an indirect target that is no code
address traps with cause 0x0B, and one in a region of another signature with 0x14; a branch not taken changes nothing. -/
def Sys2Proof.Machine.Claims.BranchesTrapOrFallThrough : Prop :=
  (∀ (f : FmtCB) (s : State), Quiet s → ¬ DirectOk (s.ctx (.br f)) (targetOf (s.ctx (.br f)) f.off.toInt) → Traps (.br f) s { cause := 0x01, step := 3 }) ∧
  (∀ (f : FmtCO) (s : State), Quiet s → (s.ctx (.bri f)).ready f.pred [f.tgt] → ((s.ctx (.bri f)).opnd f.tgt).toNat % 4 = 2 →
    Traps (.bri f) s { cause := 0x0B, step := 7, addr := ((s.ctx (.bri f)).opnd f.tgt).toNat }) ∧
  (∀ (f : FmtCO) (s : State) (h : Nat × Word), Quiet s → (s.ctx (.bri f)).ready f.pred [f.tgt] →
    let x := s.ctx (.bri f)
    let t := (x.opnd f.tgt).toNat
    t % 2 = 1 → fetchFault s s.cur.1 x.world (t - 1) = none → regionHeader s s.cur.1 x.world (regionOf t) = some h → regionOf t + 64 < t → (t - 1 - regionOf t) % 32 = 0 →
    (t - 1 - regionOf t - 64) / 32 < h.1 → h.2 ≠ x.br.sig → Traps (.bri f) s { cause := 0x14, step := 5 }) ∧
  (∀ (f : FmtCB) (s : State), Quiet s → s.here.r.pred f.pred.toNat = true → DirectOk (s.ctx (.brn f)) (targetOf (s.ctx (.brn f)) f.off.toInt) →
    Effects (.brn f) s 0 none s)

/-- R217, R218: a call pushes its return address and loop depth; a ninth entry first spills the oldest as an ST.64 at LINK_TOP, which rises by 8, and
traps with cause 0x05 where the spill area is full. -/
def Sys2Proof.Machine.Claims.CallsComplete : Prop :=
  (∀ (f : FmtCB) (s : State), Quiet s → s.here.r.pred f.pred.toNat = true → DirectOk (s.ctx (.call f)) (targetOf (s.ctx (.call f)) f.off.toInt) →
    CallDoes (.call f) s (BitVec.ofNat 64 (targetOf (s.ctx (.call f)) f.off.toInt))) ∧
  (∀ (f : FmtCL) (s : State), Quiet s → s.here.r.pred f.pred.toNat = true → DirectOk (s.ctx (.callL f)) (targetOf (s.ctx (.callL f)) f.lng.toInt) →
    CallDoes (.callL f) s (BitVec.ofNat 64 (targetOf (s.ctx (.callL f)) f.lng.toInt))) ∧
  (∀ (f : FmtCO) (s : State), Quiet s → (s.ctx (.calli f)).ready f.pred [f.tgt] → IndirectOk (s.ctx (.calli f)) ((s.ctx (.calli f)).opnd f.tgt).toNat →
    CallDoes (.calli f) s ((s.ctx (.calli f)).opnd f.tgt))

/-- R219: RET goes on at the newest entry; with none on chip it loads one from LINK_TOP − 8; with none spilled either it traps with cause 0x05. -/
def Sys2Proof.Machine.Claims.RetCompletesOrTraps : Prop :=
  (∀ (f : FmtCZ) (s : State) (e : LinkEntry) (rest : List LinkEntry), Quiet s → s.here.r.pred f.pred.toNat = true → s.here.c.links = e :: rest →
    IndirectOk (s.ctx (.ret f)) e.ret.toNat → Did (.ret f) s 0 (some 0) s s.here.r (returned (s.ctx (.ret f)) e rest)) ∧
  (∀ (f : FmtCZ) (s : State) (p : TlbEntry) (e : LinkEntry), Quiet s → s.here.r.pred f.pred.toNat = true → s.here.c.links = [] →
    let x := s.ctx (.ret f)
    let raw := BitVec.ofNat 64 (leNat (readBuf s s.cur.1 x.arm (p.pa (s.here.c.linkTop.toNat - 8)) 8))
    s.here.c.linkBase.toNat < s.here.c.linkTop.toNat → 8 ≤ s.here.c.linkTop.toNat → Reaches x (refillAccess x) p →
    e = { ret := raw.extractLsb' 0 48, depth := raw.extractLsb' 48 3 } → IndirectOk x e.ret.toNat →
    Did (.ret f) s 0 (some 0) (x.accessed (refillAccess x) (p.pa (s.here.c.linkTop.toNat - 8)) s) s.here.r { returned x e [] with linkTop := s.here.c.linkTop - 8 }) ∧
  (∀ (f : FmtCZ) (s : State) (p : TlbEntry), Quiet s → s.here.r.pred f.pred.toNat = true → s.here.c.links = [] →
    s.here.c.linkTop.toNat ≤ s.here.c.linkBase.toNat → Reaches (s.ctx (.ret f)) (refillAccess (s.ctx (.ret f))) p →
    Traps (.ret f) s { cause := 0x05, step := 5 })

/-- R222, R223: LOOP, LOOPR and LOOP.L push an entry and go on at the body's first bundle, LOOPR with its stage predicates; with count 0 they go on
after the body, an exit by count; a seventh entry traps with cause 0x04. -/
def Sys2Proof.Machine.Claims.LoopsComplete : Prop :=
  ∀ (i : Instr) (p : BitVec 3) (os : List Operand) (len count : Nat) (rot : Option Nat) (s : State),
    let x := s.ctx i
    ((∃ f : FmtCR, i = .loop f ∧ p = f.pred ∧ os = [f.cnt] ∧ len = f.len.toNat ∧ count = low32 (x.opnd f.cnt) ∧ rot = none) ∨
      (∃ f : FmtCR, i = .loopr f ∧ p = f.pred ∧ os = [f.cnt] ∧ len = f.len.toNat ∧ rot = some (low32 (x.opnd f.cnt)) ∧
        count = low32 (x.opnd f.cnt) + ((x.opnd f.cnt).extractLsb' 32 2).toNat) ∨
      (∃ f : FmtCRL, i = .loopL f ∧ p = f.pred ∧ os = [] ∧ len = f.len.toNat ∧ count = f.lng.toNat ∧ rot = none)) →
    Quiet s → x.ready p os → 0 < len → s.here.c.pc.toNat < 2 ^ 48 → BodyOk x len →
    (0 < count → s.here.c.loops.length < 6 →
      Completes i s (s.lat 0) 0 0 (match rot with | some n => stagePreds s.here.r n | none => s.here.r)
        { x.stepped with loops := loopEntry x len count rot :: s.here.c.loops }) ∧
    (count = 0 → (∀ e ∈ s.here.c.loops.head?, e.last ≠ (x.bodyEnd len).1 ∨ e.depth ≠ s.here.c.callDepth) →
      Did i s 0 (some 0) s s.here.r (x.jumped (BitVec.ofNat 64 (x.bodyEnd len).2))) ∧
    (0 < count → s.here.c.loops.length = 6 → Traps i s { cause := 0x04, step := 5 })

/-- R225: LEAVE pops the top entry of its call depth and goes on after its body; with none it traps with cause 0x04. -/
def Sys2Proof.Machine.Claims.LeaveCompletesOrTraps : Prop :=
  (∀ (f : FmtCZ) (s : State) (e : LoopEntry) (rest : List LoopEntry), Quiet s → s.here.r.pred f.pred.toNat = true → s.here.c.loops = e :: rest →
    e.depth = s.here.c.callDepth →
    Did (.leave f) s 0 (some 0) s s.here.r { (s.ctx (.leave f)).jumped (BitVec.ofNat 64 e.exit) with loops := rest }) ∧
  (∀ (f : FmtCZ) (s : State), Quiet s → s.here.r.pred f.pred.toNat = true → (∀ e ∈ s.here.c.loops.head?, e.depth ≠ s.here.c.callDepth) →
    Traps (.leave f) s { cause := 0x04, step := 5 })

/-- R224, R226: at the last bundle of the top loop's body the index rises and execution goes on at the body's first bundle, latches kept; a rotating
loop turns both rings and writes the predicate now named p4; the last iteration pops the entry and goes on after the body, latches lost. -/
def Obligations.BackEdgesOfOneLoop : Prop :=
  ∀ (c : Ctl) (r : Regs) (e : LoopEntry) (rest : List LoopEntry) (a next n : Nat), c.loops = e :: rest → e.last = a → e.depth = c.callDepth →
    e.count ≤ 2 ^ 32 → (∀ o ∈ rest.head?, o.last ≠ a ∨ o.depth ≠ c.callDepth) →
    let turned := { r with ringS := r.ringS + 1, ringP := r.ringP + 1 }
    (e.idx.toNat + 1 < e.count → backEdges a (n + 1) c r next false =
      ({ c with loops := { e with idx := e.idx + 1 } :: rest },
       if e.rot then { turned with pr := setBit turned.pr (turned.cellP 4) (decide (e.idx.toNat + 1 < e.n)) } else r, e.first, false)) ∧
    (e.count ≤ e.idx.toNat + 1 → backEdges a (n + 2) c r next false = ({ c with loops := rest }, r, e.exit, true)) ∧
    (e.rot = true → ∀ i < 15, r.cellX (32 + i) = turned.cellX (32 + i + 1))

/-- R227, R200: SAFE with no request pending loses latches and goes on in its form where no translation with the braid's signature is installed. -/
def Sys2Proof.Machine.Claims.SafeCompletes : Prop :=
  ∀ (f : FmtCX) (s : State), Quiet s → s.here.r.pred f.pred.toNat = true →
    (s.here.c.pc.getLsbD 0 = true ∨ s.here.c.loops ≠ [] ∨ ∀ e ∈ (s.part (partOf s.cur.1)).tcache, ¬ (e.1 = dCode s.here.slot0.descr ∧
      e.2.1 = recWorld s.here.slot0.bind ∧ e.2.2.1 = (s.braid s.cur.1).sig)) →
    Did (.safe f) s 0 (some 0) s s.here.r ((s.ctx (.safe f)).jumped (BitVec.ofNat 64 (s.ctx (.safe f)).next))

/-- R58, R228: YIELD gives up the lease with no charge for what is left, a request it has pending standing on, and forgoes the next grant of each resource it waits for. -/
def Sys2Proof.Machine.Claims.YieldCompletes : Prop :=
  ∀ (f : FmtCZ) (s : State), Quiet s → s.here.r.pred f.pred.toNat = true →
    let x := s.ctx (.yield f)
    (x.br.holder ≠ some s.cur.2 → Effects (.yield f) s 0 (some 0) (s.modStrand s.cur.1 s.cur.2 fun t => { t with yielded := x.waitingFor })) ∧
    (x.br.holder = some s.cur.2 → Effects (.yield f) s 0 (some 0) ((s.setBraid s.cur.1 { x.br with holder := none, left := 0 }).modStrand s.cur.1 s.cur.2
      fun t => { t with yielded := x.waitingFor, c := { t.c with leaseHas := x.br.leaseReqs.any (·.strand == s.cur.2) } }))

/-- R229: HALT issues, and its strand then waits for its fence at the same bundle. -/
def Sys2Proof.Machine.Claims.HaltIssues : Prop :=
  ∀ (f : FmtCZ) (s : State), Quiet s → s.here.r.pred f.pred.toNat = true →
    Did (.halt f) s 0 (some 0) (s.modStrand s.cur.1 s.cur.2 fun t => { t with haltWait := true }) s.here.r s.here.c

/-- R230 to R232: TRAP and BRK of a supervisor unit that takes them locally save the bundle's address, their cause and code, set INHANDLER, lose the
latches and go on at VEC; ERET goes back to EPC, clears INHANDLER, and treats a TRAP or BRK it returns to as a no-op once. -/
def Obligations.LocalTrapsAndReturn : Prop :=
  (∀ e ∈ ([(.trap, 0x11, 0), (.brk, 0x12, 1)] : List ((FmtCX → Instr) × Nat × Nat)), ∀ (f : FmtCX) (s : State), Quiet s →
    s.here.r.pred f.pred.toNat = true → recSupv s.here.slot0.bind = true → s.here.c.trapCtl.getLsbD 3 = false → s.here.c.trapCtl.getLsbD e.2.2 = true →
    exec (e.1 f) s = .next (s.modStrand s.cur.1 s.cur.2 fun t => { t with hold := none, walked := [], rtTimeout := none, stalled := false, fifoWait := none, c := { t.c with
      trapEpc := t.c.pc.setWidth 48, localPc := t.c.pc, trapCause := f.code ++ BitVec.ofNat 8 e.2.1, trapCtl := t.c.trapCtl ||| 8
      pc := t.c.trapVec.setWidth 64, latch := [], latchOk := 0, gen := t.c.gen + 1 } })) ∧
  (∀ (f : FmtCZ) (s : State), Quiet s → s.here.r.pred f.pred.toNat = true → recSupv s.here.slot0.bind = true → s.here.c.trapCtl.getLsbD 3 = true →
    IndirectOk (s.ctx (.eret f)) s.here.c.trapEpc.toNat →
    let c := s.here.c
    let again := c.trapEpc.setWidth 64 = c.localPc ∧ (c.trapCause.setWidth 8 = 0x11#8 ∨ c.trapCause.setWidth 8 = 0x12#8)
    Did (.eret f) s 0 (some 0) (s.modStrand s.cur.1 s.cur.2 fun t => { t with skip0 := decide again }) s.here.r
      { (s.ctx (.eret f)).jumped (c.trapEpc.setWidth 64) with trapCtl := c.trapCtl &&& 7 }) ∧
  (∀ (f : FmtCZ) (s : State), Quiet s → recSupv s.here.slot0.bind = false → Traps (.eret f) s { cause := 0x03, step := 4 }) ∧
  (∀ (f : FmtCZ) (s : State), Quiet s → s.here.r.pred f.pred.toNat = true → recSupv s.here.slot0.bind = true → s.here.c.trapCtl.getLsbD 3 = false →
    Traps (.eret f) s { cause := 0x03, step := 4 })

/-- R230, R344, R345: a TRAP or BRK of a user unit freezes its strand with the cause, its pc and registers as they were, to resume with slot 0 a no-op,
and its record enters the partition's queue with the unit, the cause, the code and the pc. -/
def Obligations.TrapsFreezeWithRecord : Prop :=
  ∀ e ∈ ([(.trap, 0x11), (.brk, 0x12)] : List ((FmtCX → Instr) × Nat)), ∀ (f : FmtCX) (s : State), Quiet s → s.here.r.pred f.pred.toNat = true →
    recSupv s.here.slot0.bind = false → (s.braid s.cur.1).cmds = [] → (s.part (partOf s.cur.1)).heldRecs = [] →
    (s.part (partOf s.cur.1)).tail ≠ (s.part (partOf s.cur.1)).head + 256 →
    ∃ t, exec (e.1 f) s = .next t ∧ t.mem = s.mem ∧ t.here.r = s.here.r ∧ t.here.c = { s.here.c with leaseAsked := false } ∧
      t.here.slot0 = { s.here.slot0 with st := .frozen, cause := e.2 } ∧ t.here.skip0 = true ∧
      (∀ b k, k < 4 → (b, k) ≠ s.cur → t.strand b k = s.strand b k) ∧
      (t.part (partOf s.cur.1)).tail = (s.part (partOf s.cur.1)).tail + 1 ∧
      let rec_ := Store.get (t.part (partOf s.cur.1)).ring ((s.part (partOf s.cur.1)).tail.toNat % 256) 0
      bits rec_ 280 8 = e.2 ∧ bits rec_ 304 15 = f.code.toNat ∧ bits rec_ 192 48 = s.here.c.pc.toNat % 2 ^ 48 ∧
      bits rec_ 448 8 = recWorld s.here.slot0.bind ∧ bits rec_ 412 24 = recUnit s.here.slot0.bind ∧ bits rec_ 436 12 = recLaunch s.here.slot0.bind

/-- R61, R233: an arrival is counted and recorded; the last one of a generation flips it and releases every strand that arrived; a strand waits at a
barrier while its arrival is unreleased, and goes on at once where it has none; a barrier with no count traps with cause 0x16. -/
def Obligations.BarriersComplete : Prop :=
  (∀ (f : FmtCBar) (s : State), Quiet s → s.here.r.pred f.pred.toNat = true → dBarCfg s.here.slot0.descr f.bar.toNat ≠ 0 →
    let j := f.bar.toNat
    let v := Store.get (s.braid s.cur.1).bars j {}
    let here := Store.has s.here.c.barArr j
    let arrived := (s.setBraid s.cur.1 { s.braid s.cur.1 with bars := Store.put (s.braid s.cur.1).bars j { v with arrived := v.arrived + 1 } }).modStrand
      s.cur.1 s.cur.2 fun t => { t with c := { t.c with barArr := Store.put t.c.barArr j v.gen } }
    (here = false → v.arrived + 1 < v.expected → Effects (.barArr f) s 0 (some 0) arrived) ∧
    (here = false → v.expected ≤ v.arrived + 1 → ∃ t, exec (.barArr f) s = .next t ∧ t.mem = s.mem ∧ t.here.r = s.here.r ∧
      Store.get (t.braid s.cur.1).bars j {} = { v with gen := !v.gen, arrived := 0 } ∧ (∀ k < 4, Store.has (t.strand s.cur.1 k).c.barArr j = false) ∧
      (∀ k < 4, k ≠ s.cur.2 → t.strand s.cur.1 k = s.strand s.cur.1 k ∨ t.strand s.cur.1 k = (s.strand s.cur.1 k).release j)) ∧
    (here = true → Traps (.barArr f) s { cause := 0x16, step := 6 })) ∧
  (∀ (f : FmtCBar) (s : State), Quiet s → s.here.r.pred f.pred.toNat = true → dBarCfg s.here.slot0.descr f.bar.toNat ≠ 0 →
    (Store.has s.here.c.barArr f.bar.toNat = false → Effects (.barWait f) s 0 (some 0) s) ∧
    (Store.has s.here.c.barArr f.bar.toNat = true → Stalls (.barWait f) s s)) ∧
  (∀ (f : FmtCBar) (s : State), Quiet s → s.here.r.pred f.pred.toNat = true → dBarCfg s.here.slot0.descr f.bar.toNat ≠ 0 →
    s.here.c.syncArr = true → Store.has s.here.c.barArr f.bar.toNat = false →
    Effects (.barSync f) s 0 (some 0) (s.modStrand s.cur.1 s.cur.2 fun t => { t with c := { t.c with syncArr := false } })) ∧
  (∀ (f : FmtCBar) (s : State), Quiet s → s.here.r.pred f.pred.toNat = true → dBarCfg s.here.slot0.descr f.bar.toNat ≠ 0 →
    s.here.c.syncArr = false → Store.has s.here.c.barArr f.bar.toNat = false →
    let j := f.bar.toNat
    let v := Store.get (s.braid s.cur.1).bars j {}
    v.arrived + 1 < v.expected → Stalls (.barSync f) s
      ((s.setBraid s.cur.1 { s.braid s.cur.1 with bars := Store.put (s.braid s.cur.1).bars j { v with arrived := v.arrived + 1 } }).modStrand
        s.cur.1 s.cur.2 fun t => { t with c := { t.c with barArr := Store.put t.c.barArr j v.gen, syncArr := true } })) ∧
  (∀ e ∈ ([.barArr, .barWait, .barSync] : List (FmtCBar → Instr)), ∀ (f : FmtCBar) (s : State), Quiet s → s.here.r.pred f.pred.toNat = true →
    dBarCfg s.here.slot0.descr f.bar.toNat = 0 → Traps (e f) s { cause := 0x16, step := 6 })

/-- R193, R215, R216: branches taken, not taken, and refused their target. -/
def Obligations.BranchesComplete : Prop := Claims.BranchesComplete ∧ Claims.BranchesTrapOrFallThrough

/-- R217 to R221: calls with their spill, returns with their refill. -/
def Obligations.CallsAndReturnsComplete : Prop := Claims.CallsComplete ∧ Claims.RetCompletesOrTraps

/-- R222, R223, R225: loops are entered, skipped, left. -/
def Obligations.LoopsComplete : Prop := Claims.LoopsComplete ∧ Claims.LeaveCompletesOrTraps

/-- R58, R200, R227 to R229: SAFE, YIELD, HALT. -/
def Obligations.SafeYieldHaltComplete : Prop := Claims.SafeCompletes ∧ Claims.YieldCompletes ∧ Claims.HaltIssues
/-! Slot M. -/

namespace Sys2Proof.Machine.Claims

/-- The effective address of an L, S or T format operation (R252). -/
def eaOf (x : Ctx) (base : Operand) (off : Int) (scale : Nat) (lng : Option (BitVec 32)) : Nat :=
  (x.opnd base + (match lng with | some l => l.signExtend 64 | none => BitVec.ofInt 64 (off * scale))).toNat

/-- An access of slot M in an ordering class (R106, R252). -/
def mAccess (va size : Nat) (acc : Acc) (cls : BitVec 4) : MemOp := { slot := 3, va := va, size := size, acc := acc, cls := cls.toNat }

/-- Scalar loads: size and the value from the bytes read (R254). -/
def loads : List ((FmtML → Instr) × Nat × (Nat → Word)) := [
  (.ldI8, 1, fun v => (BitVec.ofNat 8 v).signExtend 64), (.ldW8, 1, fun v => (BitVec.ofNat 8 v).setWidth 64),
  (.ldI16, 2, fun v => (BitVec.ofNat 16 v).signExtend 64), (.ldW16, 2, fun v => (BitVec.ofNat 16 v).setWidth 64),
  (.ldI32, 4, fun v => (BitVec.ofNat 32 v).signExtend 64), (.ldW32, 4, fun v => (BitVec.ofNat 32 v).setWidth 64), (.ld64, 8, fun v => BitVec.ofNat 64 v)]

/-- Scalar stores and their sizes (R255). -/
def stores : List ((FmtMS → Instr) × Nat) := [(.st8, 1), (.st16, 2), (.st32, 4), (.st64, 8)]

/-- The place in the braid's PAD banks of a window address: bank, and offset in its 64 KiB (R71, R74). -/
def slabPlace (br : Braid) (va : Nat) : Nat :=
  let e := br.slabOf (va / 2 ^ 50 % 64)
  slabBank e * 65536 + slabOffset e * 256 + va % 2 ^ 50

/-- Bytes of the PAD banks. -/
def padBytes (br : Braid) (a n : Nat) : List Byte := (List.range n).map fun i => Store.get br.pad (a + i) 0

/-- The new value of an atomic from the value found, the operand and the register d as read (R258); none where nothing is written. -/
def atomics : List ((FmtMA → Instr) × Nat × (Word → Word → Word → Option Word)) := [
  (.amoAdd, 8, fun v x _ => some (v + x)), (.amoMinI, 8, fun v x _ => some (if x.slt v then x else v)), (.amoMaxI, 8, fun v x _ => some (if v.slt x then x else v)),
  (.amoAnd, 8, fun v x _ => some (v &&& x)), (.amoOr, 8, fun v x _ => some (v ||| x)), (.amoXor, 8, fun v x _ => some (v ^^^ x)),
  (.amoSwp, 8, fun _ x _ => some x), (.amoCas, 8, fun v x d => if v = d then some x else none),
  (.amoFadd, 4, fun v x _ => some (BitVec.ofNat 64 (f32.add .rne (low32 v) (low32 x))))]

/-- A line of code that the strand may lock: its page is executable and sealed (R261). -/
def Fetchable (s : State) (b w line : Nat) : Prop := fetchFault s b w line = none

/-- The 128-byte lines that cover n bytes from a. -/
def linesFrom (a n : Nat) : List Nat := (List.range ((a + n - 1) / 128 - a / 128 + 1)).map fun i => (a / 128 + i) * 128

/-- The strand's scoreboarded results arrive and one of them is a scalar result of slot M. -/
def ArrivesX (i : Instr) (s u : State) (d : BitVec 6) (cls : Option Nat) (v : Word) : Prop :=
  Arrives i s 3 cls u (s.here.r.withX false d v) ((s.ctx i).stepped.latched 3 v)

end Sys2Proof.Machine.Claims

/-- R3: what bytes a write changes: those it writes, which read as written, and no other. -/
def Obligations.WritesChangeTheirBytesAlone : Prop :=
  ∀ (s : State) (a : Nat) (vs : List Byte), (∀ i < vs.length, (s.writeN a vs).byte (a + i) = vs.getD i 0) ∧
    (∀ p, p < a ∨ a + vs.length ≤ p → (s.writeN a vs).byte p = s.byte p) ∧ (s.Inv → (s.writeN a vs).Inv)

/-- R254, R52, R66: a scalar load extends the bytes read, from memory as its arm sees it or from a slab; the result is scoreboarded, and nothing else
changes but what the caches hold; an address that is no multiple of the size traps with cause 0x0B. -/
def Obligations.LoadsComplete : Prop :=
  ∀ e ∈ loads, ∀ (f : FmtML) (s : State), Quiet s → (s.ctx (e.1 f)).ready f.pred [f.base] →
    let x := s.ctx (e.1 f)
    let va := eaOf x f.base f.off.toInt e.2.1 f.lng
    let m := mAccess va e.2.1 .load f.cls
    (∀ p, Reaches x m p → SameButCaches (x.accessed m (p.pa va) s) s ∧ ArrivesX (e.1 f) s (x.accessed m (p.pa va) s) f.dst (some 4) (e.2.2 (leNat (readBuf s s.cur.1 x.arm (p.pa va) e.2.1)))) ∧
    (ReachesSlab x m →
      ArrivesX (e.1 f) s s f.dst (some 5) (e.2.2 (leNat (padBytes x.br (slabPlace x.br va) e.2.1)))) ∧
    (∀ p, va % e.2.1 ≠ 0 → va < 2 ^ 48 → x.br.tlbHit x.world va = some p → s.xfers = [] →
      Traps (e.1 f) s { cause := 0x0B, step := 7, slot := 3, addr := va })

/-- R255: a scalar store writes the low bytes of its data, little-endian, at its address and nowhere else; of a buffered unit into its arm's lines
alone (R52); in the window into its slab. Beside them only what the caches hold and marks of poison change (R66, R420). -/
def Obligations.StoresComplete : Prop :=
  ∀ e ∈ stores, ∀ (f : FmtMS) (s : State), Quiet s → (s.ctx (e.1 f)).ready f.pred [f.data, f.base] →
    let x := s.ctx (e.1 f)
    let va := eaOf x f.base f.off.toInt e.2 f.lng
    let bytes := leBytes e.2 ((x.opnd f.data).toNat % 2 ^ (8 * e.2))
    let m := mAccess va e.2 .store f.cls
    (∀ p u, Reaches x m p → SameButCaches (x.accessed m (p.pa va) u) u) ∧
    (∀ p, Reaches x m p → recBuf s.here.slot0.bind = false → Effects (e.1 f) s 3 (some 4) (x.stored m (p.pa va) (s.writeN (p.pa va) bytes)) ∧
      ∃ t, exec (e.1 f) s = .next t ∧ (∀ i < e.2, t.byte (p.pa va + i) = bytes.getD i 0) ∧
        ∀ a, a < p.pa va ∨ p.pa va + e.2 ≤ a → t.byte a = s.byte a) ∧
    (∀ p, Reaches x m p → recBuf s.here.slot0.bind = true →
      Effects (e.1 f) s 3 (some 4) (x.stored m (p.pa va) (writeBuf s s.cur.1 (some (recLaunch s.here.slot0.bind)) (p.pa va) bytes))) ∧
    (ReachesSlab x m →
      Effects (e.1 f) s 3 (some 5) (s.setBraid s.cur.1 (x.br.padSet (slabPlace x.br va) bytes))) ∧
    (∀ p, va % e.2 ≠ 0 → va < 2 ^ 48 → x.br.tlbHit x.world va = some p → s.xfers = [] →
      Traps (e.1 f) s { cause := 0x0B, step := 7, slot := 3, addr := va })

/-- R256: LDT reads 256 bytes into the row its ROW field names; STT writes that row. -/
def Obligations.TileRowAccessesComplete : Prop :=
  (∀ (f : FmtMT) (s : State) (p : TlbEntry), Quiet s → (s.ctx (.ldt f)).ready f.pred [f.base] →
    let x := s.ctx (.ldt f)
    let va := eaOf x f.base f.off.toInt 256 f.lng
    let m := mAccess va 256 .load f.cls
    Reaches x m p → SameButCaches (x.accessed m (p.pa va) s) s ∧
    Arrives (.ldt f) s 3 (some 5) (x.accessed m (p.pa va) s) (s.here.r.setTileRow f.tile.toNat (x.rowIndex f.row)
      (BitVec.ofNat 2048 (leNat (readBuf s s.cur.1 x.arm (p.pa va) 256))) rowOnes) x.stepped) ∧
  (∀ (f : FmtMT) (s : State) (p : TlbEntry), Quiet s → (s.ctx (.stt f)).ready f.pred [f.base] →
    let x := s.ctx (.stt f)
    let va := eaOf x f.base f.off.toInt 256 f.lng
    let m := mAccess va 256 .store f.cls
    let bytes := leBytes 256 (s.here.r.tileRow f.tile.toNat (x.rowIndex f.row)).toNat
    Reaches x m p → Effects (.stt f) s 3 (some 5) (x.stored m (p.pa va) (writeBuf s s.cur.1 x.arm (p.pa va) bytes)) ∧
      (recBuf s.here.slot0.bind = false → writeBuf s s.cur.1 x.arm (p.pa va) bytes = s.writeN (p.pa va) bytes))

/-- R257, R70, R303: a pop takes the oldest entry of the bank into a tile row, its last entry taking the bank's world tag with it; a push appends the
row, the first one giving the bank its tag; an empty bank makes a pop wait; a bank out of FIFO mode traps with cause 0x15. -/
def Obligations.FifoBanksComplete : Prop :=
  (∀ (f : FmtMT) (s : State) (v : Row) (rest : List Row), Quiet s → (s.ctx (.ldtf f)).ready f.pred [f.base] → f.off = 0 →
    let x := s.ctx (.ldtf f)
    let q := eaOf x f.base 0 0 f.lng
    q < 24 → x.br.bankModeOf q = 2 → x.br.switching q = false → Store.get x.br.bankTag q x.world = x.world → x.br.fifoOf q = v :: rest →
    Store.has x.br.fifoBad q = false → (∀ k < 4, (s.strand s.cur.1 k).fifoWait = none) →
    Arrives (.ldtf f) s 3 (some 5) (s.setBraid s.cur.1 { x.br with
        fifo := Store.set x.br.fifo q rest [], bankTag := if rest = [] then Store.del x.br.bankTag q else x.br.bankTag, fifoBad := Store.del x.br.fifoBad q })
      (s.here.r.setTileRow f.tile.toNat (x.rowIndex f.row) v rowOnes) x.stepped) ∧
  (∀ (f : FmtMT) (s : State), Quiet s → (s.ctx (.sttf f)).ready f.pred [f.base] → f.off = 0 →
    let x := s.ctx (.sttf f)
    let q := eaOf x f.base 0 0 f.lng
    q < 24 → x.br.bankModeOf q = 2 → x.br.switching q = false → Store.get x.br.bankTag q x.world = x.world → (x.br.fifoOf q).length < 256 →
    Effects (.sttf f) s 3 (some 5) (s.setBraid s.cur.1 { x.br with
        fifo := Store.put x.br.fifo q (x.br.fifoOf q ++ [s.here.r.tileRow f.tile.toNat (x.rowIndex f.row)]),
        bankTag := if x.br.fifoOf q = [] then Store.put x.br.bankTag q x.world else x.br.bankTag })) ∧
  (∀ (f : FmtV) (s : State) (v : Row) (rest : List Row), Quiet s → (s.ctx (.vmovPop f)).ready f.pred [] →
    let x := s.ctx (.vmovPop f)
    let q := (s.here.r.getX (48 + f.tb.toNat % 4)).toNat
    q < 24 → x.br.bankModeOf q = 2 → x.br.switching q = false → Store.get x.br.bankTag q x.world = x.world → x.br.fifoOf q = v :: rest →
    Store.has x.br.fifoBad q = false → (∀ k < 4, (s.strand s.cur.1 k).fifoWait = none) →
    Arrives (.vmovPop f) s 4 (some 5) (s.setBraid s.cur.1 { x.br with
        fifo := Store.set x.br.fifo q rest [], bankTag := if rest = [] then Store.del x.br.bankTag q else x.br.bankTag, fifoBad := Store.del x.br.fifoBad q })
      (s.here.r.setTileRow f.td.toNat (x.rowIndex f.row) v (enableRow (tyW f.ty.toNat) (enables (s.here.r.maskOf f.msk.toNat) (tyLanes f.ty.toNat)))) x.stepped) ∧
  (∀ (f : FmtV) (s : State), Quiet s → (s.ctx (.vmovPush f)).ready f.pred [] →
    let x := s.ctx (.vmovPush f)
    let q := (s.here.r.getX (48 + f.tb.toNat % 4)).toNat
    q < 24 → x.br.bankModeOf q = 2 → x.br.switching q = false → Store.get x.br.bankTag q x.world = x.world → (x.br.fifoOf q).length < 256 →
    Effects (.vmovPush f) s 4 (some 6) (s.setBraid s.cur.1 { x.br with
        fifo := Store.put x.br.fifo q (x.br.fifoOf q ++ [s.here.r.tileRow f.ta.toNat (x.rowIndex f.row) &&&
          enableRow (tyW f.ty.toNat) (enables (s.here.r.maskOf f.msk.toNat) (tyLanes f.ty.toNat))]),
        bankTag := if x.br.fifoOf q = [] then Store.put x.br.bankTag q x.world else x.br.bankTag })) ∧
  (∀ (f : FmtMT) (s : State), Quiet s → (s.ctx (.ldtf f)).ready f.pred [f.base] → f.off = 0 →
    let x := s.ctx (.ldtf f)
    let q := eaOf x f.base 0 0 f.lng
    (q < 24 → x.br.bankModeOf q = 2 → x.br.switching q = false → Store.get x.br.bankTag q x.world = x.world → x.br.fifoOf q = [] →
      Stalls (.ldtf f) s (s.modStrand s.cur.1 s.cur.2 (·.waitFifo (q, true)))) ∧
    (24 ≤ q ∨ x.br.bankModeOf q ≠ 2 → Traps (.ldtf f) s { cause := 0x15, step := 6, slot := 3 }))

/-- R258, R93: an atomic reads, combines and writes in one access, and its result is the value found; CAS writes only on a match; a read-shared range
traps with cause 0x08. -/
def Obligations.AtomicsComplete : Prop :=
  ∀ e ∈ atomics, ∀ (f : FmtMA) (s : State) (p : TlbEntry), Quiet s → (s.ctx (e.1 f)).ready f.pred [f.base] →
    let x := s.ctx (e.1 f)
    let va := (x.opnd f.base).toNat
    let pa := p.pa va
    let old := BitVec.ofNat 64 (leNat (readBuf s s.cur.1 x.arm pa e.2.1))
    let m := mAccess va e.2.1 .amo f.cls
    (e.2.1 = 4 → x.masked 6 = false) →
    (Reaches x m p →
      ArrivesX (e.1 f) s (x.accessed m pa (match e.2.2 old (s.here.r.getX f.data.toNat) (s.here.r.getX f.dst.toNat) with
        | some w => writeBuf s s.cur.1 x.arm pa (leBytes e.2.1 (w.toNat % 2 ^ (8 * e.2.1))) | none => s)) f.dst none old) ∧
    (∀ t, va % e.2.1 = 0 → va < 2 ^ 48 → x.br.tlbHit x.world va = some p → p.isSealed = false → p.w = true → boundaryFault s x.world p = false →
      s.xfers = [] → s.tokenAt pa = some t → t.mode = 1 → x.br.holds x.agent x.world t.base t.log2 1 = true →
      fare s s.cur.1 x.world pa 1 = .sent → Traps (e.1 f) s { cause := 0x08, step := 7, sub := 3, slot := 3, addr := va })

/-- R110, R117, R118, R260: a fence waits while an access it orders has not performed, and else changes nothing; FENCE.E reports a pending error. -/
def Sys2Proof.Machine.Claims.FencesComplete : Prop :=
  (∀ (f : FmtMFc) (s : State), Quiet s → s.here.r.pred f.pred.toNat = true → Effects (.fenceC f) s 3 none s) ∧
  (∀ (f : FmtMFx) (s : State), Quiet s → s.here.r.pred f.pred.toNat = true → (∀ c ∈ (s.braid s.cur.1).cmds, c.strand ≠ s.cur.2) →
    (∀ n < 2, (Store.get (s.braid s.cur.1).sbuf n {}).st ≠ 1 ∨ (Store.get (s.braid s.cur.1).sbuf n {}).strand ≠ s.cur.2) → Effects (.fenceX f) s 3 none s) ∧
  (∀ (f : FmtMFx) (s : State) (c : Cmd) (p : Nat), Quiet s → s.here.r.pred f.pred.toNat = true → c ∈ (s.braid s.cur.1).cmds → c.strand = s.cur.2 → c.path = p →
    0 < p → p < 5 → f.paths.getLsbD p = true → (∃ q < 6, q ≠ p ∧ f.paths.getLsbD q = true) → Stalls (.fenceX f) s s) ∧
  (∀ (f : FmtMZ) (s : State), Quiet s → s.here.r.pred f.pred.toNat = true → (∀ c ∈ (s.braid s.cur.1).cmds, c.strand ≠ s.cur.2) →
    (∀ n < 2, (Store.get (s.braid s.cur.1).sbuf n {}).st ≠ 1 ∨ (Store.get (s.braid s.cur.1).sbuf n {}).strand ≠ s.cur.2) →
    (s.here.pendErr = [] → Effects (.fenceE f) s 3 none s) ∧
    (∀ e es, s.here.pendErr = e :: es → Traps (.fenceE f) s { cause := 0x10, step := 10, slot := 3, detail := e })) ∧
  (∀ (f : FmtMZ) (s : State) (c : Cmd), Quiet s → s.here.r.pred f.pred.toNat = true → c ∈ (s.braid s.cur.1).cmds → c.strand = s.cur.2 → Stalls (.fenceE f) s s)

/-- R261, R262: ILOCK locks the lines of a range of fetchable code while the braid holds at most 512, and its result is their number; with length 0 it
tells how many the strand holds and whether one was lost; IUNLK gives up the strand's locks in a range, or all of them. -/
def Sys2Proof.Machine.Claims.InstructionLocksComplete : Prop :=
  (∀ (f : FmtMIl) (s : State), Quiet s → (s.ctx (.ilock f)).ready f.pred [f.a, f.n] →
    let x := s.ctx (.ilock f)
    let a := (x.opnd f.a).toNat % 2 ^ 48 / 2 * 2
    let n := min (x.opnd f.n).toNat 65536
    (n = 0 → ArrivesX (.ilock f) s s f.dst none (BitVec.ofNat 64
      ((x.br.icLocks.filter fun e => e.1 == s.cur.2).length % 65536 + (if s.here.ilockLost then 2 ^ 63 else 0)))) ∧
    (0 < n → (∀ l ∈ linesFrom a n, Fetchable s s.cur.1 x.world l) → x.br.lockedLines + (linesFrom a n).length ≤ 512 → ∃ locks lines,
      ArrivesX (.ilock f) s (s.setBraid s.cur.1 { x.br with icLocks := locks, icLines := lines }) f.dst none (BitVec.ofNat 64 (linesFrom a n).length) ∧
      ∀ e, e ∈ locks ↔ e ∈ x.br.icLocks ∨ ∃ l ∈ linesFrom a n, e = (s.cur.2, l, x.world))) ∧
  (∀ (f : FmtMIu) (s : State), Quiet s → (s.ctx (.iunlk f)).ready f.pred [f.a, f.n] →
    let x := s.ctx (.iunlk f)
    let a := (x.opnd f.a).toNat
    let n := (x.opnd f.n).toNat
    let kept := x.br.icLocks.filter fun e => decide (e.1 ≠ s.cur.2 ∨ (n ≠ 0 ∧ (e.2.1 < a / 128 * 128 ∨ a + n ≤ e.2.1)))
    Effects (.iunlk f) s 3 none (s.setBraid s.cur.1 { x.br with icLocks := kept }))

/-- R71, R72, R264, R265: SLAB.DEF defines an empty slab of the unit's world and strand in a PAD bank where it overlaps none; RDY and EMP turn its
state; REL frees it; QRY returns the entry of a slab of the unit's world; each result is a status, 0 for DONE, 6 where the slab is not defined, 8 where
it is another world's, 7 where it is another strand's. -/
def Obligations.SlabOperationsComplete : Prop :=
  (∀ (f : FmtMSl) (s : State), Quiet s → (s.ctx (.slabDef f)).ready f.pred [f.x] →
    let x := s.ctx (.slabDef f)
    let v := x.opnd f.x
    let id := bits v 26 6
    let bank := bits v 21 5
    let off := bits v 13 8
    let size := bits v 4 9
    bits v 32 32 = 0 → bits v 0 4 = 0 → 0 < size → off + size ≤ 256 → bank < 24 → Store.get x.br.bankTag bank x.world = x.world → slabSize (x.br.slabOf id) = 0 →
    x.br.switching bank = false → s.bankReserved s.cur.1 bank = false → x.br.bankModeOf bank = 1 → Store.get x.br.bankLast bank x.world = x.world →
    (∀ i < 64, slabSize (x.br.slabOf i) ≠ 0 → slabBank (x.br.slabOf i) = bank →
      off + size ≤ slabOffset (x.br.slabOf i) ∨ slabOffset (x.br.slabOf i) + slabSize (x.br.slabOf i) ≤ off) →
    ArrivesX (.slabDef f) s (s.setBraid s.cur.1 { x.br with
      slab := Store.put x.br.slab id (mkSlab x.world 0 s.cur.2 size off bank), bankTag := Store.put x.br.bankTag bank x.world,
      bankLast := Store.del x.br.bankLast bank }) f.dst (some 5) 0) ∧
  (∀ (f : FmtMSl) (s : State), Quiet s → (s.ctx (.slabQry f)).ready f.pred [f.x] →
    let x := s.ctx (.slabQry f)
    let e := x.br.slabOf ((x.opnd f.x).toNat % 64)
    ArrivesX (.slabQry f) s s f.dst (some 5) (if slabSize e ≠ 0 ∧ slabWorld e = x.world then e else 0)) ∧
  (∀ c ∈ ([(.slabRdy, [0], fun (t : Braid) id => { t with slab := Store.set t.slab id (slabWith (t.slabOf id) 2) 0 }),
      (.slabEmp, [2, 4], fun (t : Braid) id => { t with slab := Store.set t.slab id (slabWith (t.slabOf id) 0) 0 }),
      (.slabRel, [0, 2, 4], fun (t : Braid) id => t.freeSlab id)] : List ((FmtMSl → Instr) × List Nat × (Braid → Nat → Braid))),
    ∀ (f : FmtMSl) (s : State), Quiet s → (s.ctx (c.1 f)).ready f.pred [f.x] →
    let x := s.ctx (c.1 f)
    let id := (x.opnd f.x).toNat % 64
    let e := x.br.slabOf id
    (slabSize e = 0 → ArrivesX (c.1 f) s s f.dst (some 5) 6) ∧
    (slabSize e ≠ 0 → slabWorld e ≠ x.world → ArrivesX (c.1 f) s s f.dst (some 5) 8) ∧
    (slabSize e ≠ 0 → slabWorld e = x.world → slabOwner e ≠ s.cur.2 → ArrivesX (c.1 f) s s f.dst (some 5) 7) ∧
    (slabSize e ≠ 0 → slabWorld e = x.world → slabOwner e = s.cur.2 → slabState e ∈ c.2.1 →
      ArrivesX (c.1 f) s (s.setBraid s.cur.1 (c.2.2 x.br id)) f.dst (some 5) 0) ∧
    (slabSize e ≠ 0 → slabWorld e = x.world → slabOwner e = s.cur.2 → slabState e ∉ c.2.1 → ArrivesX (c.1 f) s s f.dst (some 5) 1))

/-- R110, R117, R118, R260 to R262: fences and instruction locks. -/
def Obligations.FencesAndLocksComplete : Prop := Claims.FencesComplete ∧ Claims.InstructionLocksComplete
/-! Slot V. -/

namespace Sys2Proof.Machine.Claims

/-- An integer operation on lanes of a type, modulo their width (R296), beside the float operation of the type. -/
def onLanes (g : FFmt → Rnd → Nat → Nat → Nat) (h : Int → Int → Int) (ty : Nat) (r : Rnd) (a b : Nat) : Nat :=
  if tyFloat ty then g (tyFmt ty) r a b else intLane (tyW ty) (h (laneInt ty a) (laneInt ty b))

/-- Elementwise operations on two rows: class and lane function (R296, R297). -/
def vec2 : List ((FmtV → Instr) × Nat × (Nat → Rnd → Nat → Nat → Nat)) := [
  (.vadd, 6, onLanes FFmt.add (· + ·)), (.vsub, 6, onLanes FFmt.sub (· - ·)), (.vmul, 7, onLanes FFmt.mul (· * ·)),
  (.vmin, 6, onLanes (fun t _ => t.min) min), (.vmax, 6, onLanes (fun t _ => t.max) max),
  (.vand, 6, fun _ _ a b => a &&& b), (.vor, 6, fun _ _ a b => a ||| b), (.vxor, 6, fun _ _ a b => a ^^^ b)]

/-- Fused operations on td, ta and tb, rounded once (R296). -/
def vec3 : List ((FmtV → Instr) × (Nat → Rnd → Nat → Nat → Nat → Nat)) := [
  (.vfma, fun ty r d a b => if tyFloat ty then (tyFmt ty).fma r d a b else intLane (tyW ty) (laneInt ty d + laneInt ty a * laneInt ty b)),
  (.vfms, fun ty r d a b => if tyFloat ty then (tyFmt ty).fms r d a b else intLane (tyW ty) (laneInt ty d - laneInt ty a * laneInt ty b))]

/-- Operations on one row, with the amount o(TB) of the shifts (R296, R297, R302); a NaN's sign operation is the canonical NaN. -/
def vec1 : List ((FmtV → Instr) × (Nat → Nat → Nat → Nat)) := [
  (.vmov, fun _ _ a => a),
  (.vabs, fun ty _ a => if tyFloat ty then (if ((tyFmt ty).decode a).isNan then (tyFmt ty).nanCode else a % 2 ^ (tyW ty - 1)) else intLane (tyW ty) (laneInt ty a).natAbs),
  (.vneg, fun ty _ a => if tyFloat ty then (if ((tyFmt ty).decode a).isNan then (tyFmt ty).nanCode else (a + 2 ^ (tyW ty - 1)) % 2 ^ tyW ty)
    else intLane (tyW ty) (- laneInt ty a)),
  (.vshl, fun ty k a => if k < tyW ty then a * 2 ^ k % 2 ^ tyW ty else 0), (.vshr, fun ty k a => if k < tyW ty then a / 2 ^ k else 0),
  (.vsar, fun ty k a => intLane (tyW ty) (Int.bmod a (2 ^ tyW ty) / 2 ^ min k (tyW ty)))]

/-- The rounding of lane arithmetic: FRM as it stood before the bundle (R152). -/
def rnd (s : State) : Rnd := Rnd.ofArith s.here.r.frm

/-- The row of a slot V operation, and the lanes of a tile's row (R177, R293). -/
def vRow (s : State) (i : Instr) (f : FmtV) : Nat := (s.ctx i).rowIndex f.row
def vLanes (s : State) (i : Instr) (f : FmtV) (t : BitVec 4) : List Nat := lanesOf (tyW f.ty.toNat) (s.here.r.tileRow t.toNat (vRow s i f))

/-- The lanes an operation's mask enables (R294). -/
def vEnable (s : State) (f : FmtV) (n : Nat) : Row := enableRow (tyW f.ty.toNat) (enables (s.here.r.maskOf f.msk.toNat) n)

/-- A slot V operation completes with lanes written to its row of td under its mask (R294). -/
def RowResult (i : Instr) (f : FmtV) (s : State) (cls : Nat) (out : List Nat) : Prop :=
  Completes i s (s.lat cls) 4 cls (s.here.r.setTileRow f.td.toNat (vRow s i f) (packLanes (tyW f.ty.toNat) out) (vEnable s f out.length)) (s.ctx i).stepped

/-- A slot V operation completes with every bit of its row written. -/
def FullRow (i : Instr) (s : State) (td : BitVec 4) (row cls : Nat) (v : Row) : Prop :=
  Completes i s (s.lat cls) 4 cls (s.here.r.setTileRow td.toNat row v rowOnes) (s.ctx i).stepped

/-- A slot V operation completes with a mask register written (R298, R300). -/
def MaskResult (i : Instr) (f : FmtV) (s : State) (m : BitVec 256) : Prop :=
  Completes i s (s.lat 6) 4 6 { s.here.r with mask := Store.set s.here.r.mask f.td.toNat m 0 } (s.ctx i).stepped

/-- A slot V operation completes with every row of td written under its mask (R309, R310). -/
def TileResult (i : Instr) (f : FmtV) (s : State) (cls : Nat) (g : Nat → Row) : Prop :=
  Completes i s (s.lat cls) 4 cls ((List.range 16).foldl (fun r j => r.setTileRow f.td.toNat j (g j) (vEnable s f (tyLanes f.ty.toNat))) s.here.r) (s.ctx i).stepped

/-- The operation runs. -/
def On (s : State) (p : BitVec 3) : Prop := s.here.r.pred p.toNat = true

def vcompares : List ((FmtV → Instr) × (FFmt → Nat → Nat → Bool) × (Int → Int → Bool)) := [
  (.vcmpeq, FFmt.eqv, fun a b => a == b), (.vcmpne, fun t a b => !t.eqv a b, fun a b => a != b), (.vcmplt, FFmt.lt, fun a b => decide (a < b)),
  (.vcmple, FFmt.le, fun a b => decide (a ≤ b))]

/-- Mask logic (R300). -/
def maskLogic : List ((FmtV → Instr) × (BitVec 256 → BitVec 256 → BitVec 256)) := [
  (.vmskAnd, fun a b => a &&& b), (.vmskOr, fun a b => a ||| b), (.vmskXor, fun a b => a ^^^ b), (.vmskAndn, fun a b => a &&& ~~~ b),
  (.vmskCopy, fun a _ => a), (.vmskNot, fun a _ => ~~~ a)]

/-- Reductions: along a row and across rows, with the operation, and the value that stands for a lane not enabled (R311). -/
def reductions : List ((FmtV → Instr) × (FmtV → Instr) × (Nat → Rnd → Nat → Nat → Nat) × (Nat → Nat)) := [
  (.vredrAdd, .vredcAdd, onLanes FFmt.add (· + ·), fun ty => if tyFloat ty then 2 ^ (tyW ty - 1) else 0),
  (.vredrMax, .vredcMax, onLanes (fun t _ => t.max) max, fun ty => if tyFloat ty then (tyFmt ty).encode .rne (.inf true) else
    if tySigned ty then 2 ^ (tyW ty - 1) else 0),
  (.vredrMin, .vredcMin, onLanes (fun t _ => t.min) min, fun ty => if tyFloat ty then (tyFmt ty).encode .rne (.inf false) else
    if tySigned ty then 2 ^ (tyW ty - 1) - 1 else 2 ^ tyW ty - 1)]

/-- VSHUF's lane of an entry's byte: zero, or a lane of ta or of tb (R314). -/
def shufLane (e : Rec) (a b : List Nat) (j : Nat) : Nat :=
  let sel := (e.extractLsb' (8 * j) 8).toNat
  if 128 ≤ sel then 0 else if sel < 64 then a.getD sel 0 else b.getD (sel - 64) 0

/-- VSCAT: the lane and the enable of each lane of td (R316). -/
def scatter (moves : List (Bool × Nat × Nat)) : Store Nat := moves.foldl (fun a m => if m.1 then Store.put a m.2.1 m.2.2 else a) []

end Sys2Proof.Machine.Claims

/-- R172, R294: a masked write of a row changes the enabled lanes of that row, which take the lanes given, and nothing else: its other lanes keep what
the row read before, zero if the tile was not in use; every other row of every tile reads as before, and the tile is in use and dirty. -/
def Obligations.MaskedRowWritesTheirLanesAlone : Prop :=
  ∀ (r : Regs) (t i w n : Nat) (out : List Nat) (m : BitVec 256), t < 16 → i < 16 → w ∈ [8, 16, 32] → n = 2048 / w → out.length = n → (∀ v ∈ out, v < 2 ^ w) →
    let r' := r.setTileRow t i (packLanes w out) (enableRow w (enables m n))
    (∀ j < n, (lanesOf w (r'.tileRow t i)).getD j 0 = if m.getLsbD j then out.getD j 0 else (lanesOf w (r.tileRow t i)).getD j 0) ∧
    (∀ t' i', t' < 16 → i' < 16 → (t', i') ≠ (t, i) → r'.tileRow t' i' = r.tileRow t' i') ∧
    r'.tUse = r.tUse ||| BitVec.ofNat 16 (2 ^ t) ∧ r'.tDirty = r.tDirty ||| BitVec.ofNat 16 (2 ^ t)

/-- R294, R296, R297, R302: elementwise operations on one, two and three rows of lanes, floats under FRM, integers modulo their width. -/
def Obligations.ElementwiseOperationsComplete : Prop :=
  (∀ e ∈ vec2, ∀ (f : FmtV) (s : State), Quiet s → On s f.pred → RowResult (e.1 f) f s e.2.1
    (List.zipWith (e.2.2 f.ty.toNat (rnd s)) (vLanes s (e.1 f) f f.ta) (vLanes s (e.1 f) f f.tb))) ∧
  (∀ e ∈ vec3, ∀ (f : FmtV) (s : State), Quiet s → On s f.pred → RowResult (e.1 f) f s 7
    (List.zipWith (fun d ab => e.2 f.ty.toNat (rnd s) d ab.1 ab.2) (vLanes s (e.1 f) f f.td) (List.zip (vLanes s (e.1 f) f f.ta) (vLanes s (e.1 f) f f.tb)))) ∧
  (∀ e ∈ vec1, ∀ (f : FmtV) (s : State), Quiet s → On s f.pred → RowResult (e.1 f) f s 6
    ((vLanes s (e.1 f) f f.ta).map (e.2 f.ty.toNat (s.here.r.getX (48 + f.tb.toNat)).toNat)))

/-- R298 to R301: compares write a bit for each lane the mask enables, keep those of the others and clear the bits above the lanes; VSEL chooses between
ta and tb lane by lane; mask logic, VMSK.FIRST and VMCNT. -/
def Obligations.MaskOperationsComplete : Prop :=
  (∀ e ∈ vcompares, ∀ (f : FmtV) (s : State) (m : BitVec 256), Quiet s → On s f.pred →
    let ty := f.ty.toNat
    let a := vLanes s (e.1 f) f f.ta
    let b := vLanes s (e.1 f) f f.tb
    let holds := fun j => if tyFloat ty then e.2.1 (tyFmt ty) (a.getD j 0) (b.getD j 0) else e.2.2 (laneInt ty (a.getD j 0)) (laneInt ty (b.getD j 0))
    (∀ j < 256, m.getLsbD j = if tyLanes ty ≤ j then false else if (s.here.r.maskOf f.msk.toNat).getLsbD j then holds j else
      (Store.get s.here.r.mask f.td.toNat 0).getLsbD j) → MaskResult (e.1 f) f s m) ∧
  (∀ (f : FmtV) (s : State), Quiet s → On s f.pred → FullRow (.vsel f) s f.td (vRow s (.vsel f) f) 6 (packLanes (tyW f.ty.toNat)
    ((List.range (tyLanes f.ty.toNat)).map fun j => if (s.here.r.maskOf f.msk.toNat).getLsbD j then (vLanes s (.vsel f) f f.ta).getD j 0
      else (vLanes s (.vsel f) f f.tb).getD j 0))) ∧
  (∀ e ∈ maskLogic, ∀ (f : FmtV) (s : State), Quiet s → On s f.pred → f.ta.toNat < 4 → f.tb.toNat < 4 →
    MaskResult (e.1 f) f s (e.2 (s.here.r.maskOf f.ta.toNat) (s.here.r.maskOf f.tb.toNat))) ∧
  (∀ (f : FmtV) (s : State) (m : BitVec 256), Quiet s → On s f.pred →
    (∀ j < 256, m.getLsbD j = (decide (j < tyLanes f.ty.toNat) && decide (j < (s.here.r.getX (48 + f.tb.toNat)).toNat))) → MaskResult (.vmskFirst f) f s m) ∧
  (∀ (f : FmtV) (s : State), Quiet s → On s f.pred →
    let n := BitVec.ofNat 64 (((List.range (tyLanes f.ty.toNat)).filter fun j => (s.here.r.maskOf f.msk.toNat).getLsbD j).length)
    Completes (.vmcnt f) s (s.lat 6) 4 6 (s.here.r.withX false (BitVec.ofNat 6 (48 + f.td.toNat)) n) ((s.ctx (.vmcnt f)).stepped.latched 4 n))

/-- R304, R305, R309, R310: splats, lane numbers, rotations and broadcasts; VIOTA of a float type traps with cause 0x16. -/
def Obligations.RowMovesComplete : Prop :=
  (∀ (f : FmtVS) (s : State), Quiet s → On s f.pred →
    let v : Word := match f.lng with | some l => l.signExtend 64 | none => s.here.r.getX (48 + f.tb.toNat)
    let n := tyLanes f.ty.toNat
    let w := tyW f.ty.toNat
    Completes (.vsplat f) s (s.lat 6) 4 6 (s.here.r.setTileRow f.td.toNat ((s.ctx (.vsplat f)).rowIndex f.row)
      (packLanes w (List.replicate n (v.toNat % 2 ^ w))) (enableRow w (enables (s.here.r.maskOf f.msk.toNat) n))) (s.ctx (.vsplat f)).stepped) ∧
  (∀ (f : FmtV) (s : State), Quiet s → On s f.pred → (tyFloat f.ty.toNat = false → RowResult (.viota f) f s 6
      ((List.range (tyLanes f.ty.toNat)).map fun j => ((s.here.r.getX (48 + f.tb.toNat)).toNat + j) % 2 ^ tyW f.ty.toNat)) ∧
    (tyFloat f.ty.toNat = true → Traps (.viota f) s { cause := 0x16, step := 6, slot := 4 })) ∧
  (∀ (f : FmtV) (s : State), Quiet s → On s f.pred →
    let n := tyLanes f.ty.toNat
    let k := (s.here.r.getX (48 + f.tb.toNat)).toNat
    RowResult (.vrotr f) f s 8 ((List.range n).map fun j => (vLanes s (.vrotr f) f f.ta).getD ((j + n - k % n) % n) 0) ∧
    RowResult (.vbcr f) f s 10 (List.replicate n ((vLanes s (.vbcr f) f f.ta).getD (k % n) 0)) ∧
    TileResult (.vrotc f) f s 9 (fun i => s.here.r.tileRow f.ta.toNat ((i + 16 - k % 16) % 16)) ∧
    TileResult (.vbcc f) f s 11 (fun _ => s.here.r.tileRow f.ta.toNat (vRow s (.vbcc f) f)))

/-- R311: reductions in the fixed pairwise tree; along a row the enabled lanes reduce to lane 0, the other lanes becoming zero; across rows each enabled
lane of td's row takes the reduction of its column. -/
def Sys2Proof.Machine.Claims.ReductionsComplete : Prop :=
  ∀ e ∈ reductions, ∀ (f : FmtV) (s : State), Quiet s → On s f.pred →
    let ty := f.ty.toNat
    let step := e.2.2.1 ty (rnd s)
    let lanes := (List.range (tyLanes ty)).map fun j =>
      if (s.here.r.maskOf f.msk.toNat).getLsbD j then (vLanes s (e.1 f) f f.ta).getD j 0 else e.2.2.2 ty
    FullRow (e.1 f) s f.td (vRow s (e.1 f) f) 12 (BitVec.ofNat 2048 (reduceTree step 8 lanes)) ∧
    RowResult (e.2.1 f) f s 13 ((List.range (tyLanes ty)).map fun j =>
      reduceTree step 4 ((List.range 16).map fun i => (lanesOf (tyW ty) (s.here.r.tileRow f.ta.toNat i)).getD j 0))

/-- R153, R154, R306 to R308: conversions between lane types, to and from narrow codes; under STOCH each lane that is written draws once, in order. A
pairing of types that VCVT does not have traps with cause 0x16. -/
def Sys2Proof.Machine.Claims.ConversionsComplete : Prop :=
  (∀ (f : FmtV) (s : State), Quiet s → On s f.pred →
    let dt := f.ty.toNat
    let fr := f.tb.toNat % 8
    let part := f.tb.toNat / 8
    let src := (lanesOf (tyW fr) (s.here.r.tileRow f.ta.toNat (vRow s (.vcvt f) f))).map (decTy fr)
    let first := if tyLanes dt = 2 * tyLanes fr then part * tyLanes fr else 0
    let taken := if 2 * tyLanes dt = tyLanes fr then (src.drop (part * tyLanes dt)).take (tyLanes dt) else src
    let lanes : List (Bool × Machine.Num) := (List.range taken.length).map fun j => ((s.here.r.maskOf f.msk.toNat).getLsbD (first + j), taken.getD j .nan)
    let res := convLanes s.here.r.frm (encTy dt) lanes s.here.r.stoch
    (((tyLanes fr = tyLanes dt ∧ part = 0) ∨ tyLanes dt = 2 * tyLanes fr ∨ 2 * tyLanes dt = tyLanes fr) →
      Completes (.vcvt f) s (s.lat 20) 4 20 ({ s.here.r with stoch := res.2 }.setTileRow f.td.toNat (vRow s (.vcvt f) f)
        (packLanes (tyW dt) (List.replicate first 0 ++ res.1)) (enableRow (tyW dt) (List.replicate first false ++ lanes.map Prod.fst))) (s.ctx (.vcvt f)).stepped) ∧
    (4 * tyLanes fr = tyLanes dt ∨ tyLanes fr = 4 * tyLanes dt → Traps (.vcvt f) s { cause := 0x16, step := 6, slot := 4 })) ∧
  (∀ (f : FmtV) (s : State), Quiet s → On s f.pred →
    let v := Store.get s.here.r.fmt (f.tb.toNat % 8) 0
    let wide := f.ty.toNat / 4
    let part := f.ty.toNat % 4
    fmtValid v = true → fmtKind v ∈ [0, 3, 4] → (wide = 1 → part < 2) →
    (let src := (lanesOf (tyW wide) (s.here.r.tileRow f.ta.toNat (vRow s (.vcvtn f) f))).map (decTy wide)
     let lanes : List (Bool × Machine.Num) := (List.range src.length).map fun j => ((s.here.r.maskOf f.msk.toNat).getLsbD j, src.getD j .nan)
     let res := convLanes s.here.r.frm (encNarrow v) lanes s.here.r.stoch
     let first := part * tyLanes wide
     Completes (.vcvtn f) s (s.lat 20) 4 20 ({ s.here.r with stoch := res.2 }.setTileRow f.td.toNat (vRow s (.vcvtn f) f)
        (packLanes 8 (List.replicate first 0 ++ res.1)) (enableRow 8 (List.replicate first false ++ lanes.map Prod.fst))) (s.ctx (.vcvtn f)).stepped) ∧
    (let codes := ((lanesOf 8 (s.here.r.tileRow f.ta.toNat (vRow s (.vcvtw f) f))).drop (part * tyLanes wide)).take (tyLanes wide)
     let lanes : List (Bool × Machine.Num) := (List.range codes.length).map fun j => ((s.here.r.maskOf f.msk.toNat).getLsbD j, decNarrow v (codes.getD j 0))
     let res := convLanes s.here.r.frm (encTy wide) lanes s.here.r.stoch
     Completes (.vcvtw f) s (s.lat 20) 4 20 ({ s.here.r with stoch := res.2 }.setTileRow f.td.toNat (vRow s (.vcvtw f) f)
        (packLanes (tyW wide) res.1) (enableRow (tyW wide) (lanes.map Prod.fst))) (s.ctx (.vcvtw f)).stepped))

/-- R312 to R314: VSHUF reads the active bank; VPATLD writes four entries of the inactive bank from a row, and VPATSW swaps the banks, both with their
bundle. R183: a world whose mask has SHUF traps them as undefined opcodes, counted for the world. -/
def Sys2Proof.Machine.Claims.ShufflesComplete : Prop :=
  (∀ (f : FmtVF) (s : State), Quiet s → On s f.pred →
    let x := s.ctx (.vshuf f)
    let i := x.rowIndex f.row
    let e := Store.get s.here.r.pat ((if s.here.r.patBank then 64 else 0) + f.idx.toNat) 0
    x.masked 7 = false → FullRow (.vshuf f) s f.td i 14 (packLanes 32 ((List.range 64).map
      (shufLane e (lanesOf 32 (s.here.r.tileRow f.ta.toNat i)) (lanesOf 32 (s.here.r.tileRow f.tb.toNat i)))))) ∧
  (∀ (f : FmtVF) (s : State), Quiet s → On s f.pred → (s.ctx (.vpatld f)).masked 7 = false →
    let row := s.here.r.tileRow f.ta.toNat ((s.ctx (.vpatld f)).rowIndex f.row)
    Did (.vpatld f) s 4 none s { s.here.r with pat := [0, 1, 2, 3].foldl (fun p m =>
      Store.set p ((if s.here.r.patBank then 0 else 64) + f.idx.toNat + m) (row.extractLsb' (512 * m) 512) 0) s.here.r.pat } (s.ctx (.vpatld f)).stepped) ∧
  (∀ (f : FmtV) (s : State), Quiet s → On s f.pred → (s.ctx (.vpatsw f)).masked 7 = false →
    Did (.vpatsw f) s 4 none s { s.here.r with patBank := !s.here.r.patBank } (s.ctx (.vpatsw f)).stepped) ∧
  (∀ (f : FmtV) (s : State), Quiet s → (s.ctx (.vpatsw f)).masked 7 = true → recSupv s.here.slot0.bind = false → ∃ t, exec (.vpatsw f) s = .next t ∧
    t.here.slot0.st = .frozen ∧ t.here.slot0.cause = 0x02 ∧ (t.world (s.ctx (.vpatsw f)).world).masked = (s.world (s.ctx (.vpatsw f)).world).masked + 1)

/-- R315, R316: VPART lists the lanes a mask enables and then the others, and counts the first; VGATH and VSCAT move lanes by the indices of tb's row. -/
def Sys2Proof.Machine.Claims.LanePartitionCompletes : Prop :=
  (∀ (f : FmtV) (s : State), Quiet s → On s f.pred → (s.ctx (.vpart f)).masked 8 = false →
    let m := s.here.r.maskOf f.msk.toNat
    let ls := List.range (tyLanes f.ty.toNat)
    let n := BitVec.ofNat 64 (ls.filter fun j => m.getLsbD j).length
    Completes (.vpart f) s (s.lat 15) 4 15 ((s.here.r.setTileRow f.td.toNat (vRow s (.vpart f) f)
      (packLanes 8 ((ls.filter fun j => m.getLsbD j) ++ ls.filter fun j => !m.getLsbD j)) rowOnes).withX false (BitVec.ofNat 6 (48 + f.tb.toNat)) n)
      ((s.ctx (.vpart f)).stepped.latched 4 n)) ∧
  (∀ (f : FmtV) (s : State), Quiet s → On s f.pred → (s.ctx (.vgath f)).masked 8 = false →
    let n := tyLanes f.ty.toNat
    let idx := fun i => ((lanesOf 8 (s.here.r.tileRow f.tb.toNat (vRow s i f))).take n).map (· % n)
    Arrives (.vgath f) s 4 (some 23) s (s.here.r.setTileRow f.td.toNat (vRow s (.vgath f) f)
      (packLanes (tyW f.ty.toNat) ((idx (.vgath f)).map fun i => (vLanes s (.vgath f) f f.ta).getD i 0)) (vEnable s f n)) (s.ctx (.vgath f)).stepped ∧
    (let out := scatter (List.zip (enables (s.here.r.maskOf f.msk.toNat) n) (List.zip (idx (.vscat f)) (vLanes s (.vscat f) f f.ta)))
     Arrives (.vscat f) s 4 (some 23) s (s.here.r.setTileRow f.td.toNat (vRow s (.vscat f) f)
      (packLanes (tyW f.ty.toNat) ((List.range n).map fun j => Store.get out j 0)) (enableRow (tyW f.ty.toNat) ((List.range n).map fun j => Store.has out j)))
      (s.ctx (.vscat f)).stepped))

/-- R317, R318: VACC converts a row of an accumulator bank and leaves its flags; a bank whose type does not fit traps with cause 0x16; VFREE's tile
reads zero and is neither in use nor dirty. -/
def Obligations.AccumulatorReadsAndRelease : Prop :=
  (∀ (f : FmtV) (s : State), Quiet s → On s f.pred → f.ta.toNat < 6 →
    let ty := f.ty.toNat
    let int := s.here.r.aUse.getLsbD f.ta.toNat && s.here.r.aInt.getLsbD f.ta.toNat
    let fits := s.here.r.aUse.getLsbD f.ta.toNat = false ∨ s.here.r.aInt.getLsbD f.ta.toNat = !tyFloat ty
    let out := (lanesOf 32 (s.here.r.bankRow f.ta.toNat f.tb.toNat)).map fun c =>
      encTy ty (rnd s) (if int then Num.ofInt (BitVec.ofNat 32 c).toInt else f32.decode c)
    (fits → Completes (.vacc f) s (s.lat 21) 4 21 (s.here.r.setTileRow f.td.toNat (vRow s (.vacc f) f) (packLanes (tyW ty) out)
      (enableRow (tyW ty) (enables (s.here.r.maskOf f.msk.toNat) 64 ++ List.replicate (tyLanes ty - 64) true))) (s.ctx (.vacc f)).stepped) ∧
    (¬ fits → Traps (.vacc f) s { cause := 0x16, step := 6, slot := 4 })) ∧
  (∀ (f : FmtV) (s : State), Quiet s → On s f.pred → ∃ r, Did (.vfree f) s 4 none s r (s.ctx (.vfree f)).stepped ∧
    (∀ i, r.tileRow f.td.toNat i = 0) ∧ (∀ t i, t ≠ f.td.toNat → i < 16 → r.tileRow t i = s.here.r.tileRow t i) ∧
    r.tUse = s.here.r.tUse &&& ~~~ (1#16 <<< f.td.toNat) ∧ r.tDirty = s.here.r.tDirty &&& ~~~ (1#16 <<< f.td.toNat) ∧
    { r with tile := s.here.r.tile, tUse := s.here.r.tUse, tDirty := s.here.r.tDirty } = s.here.r)

/-- R153, R154, R306 to R308, R311: reductions and conversions. -/
def Obligations.ReductionsAndConversionsComplete : Prop := Claims.ReductionsComplete ∧ Claims.ConversionsComplete

/-- R312 to R316: shuffles, partition, gather and scatter. -/
def Obligations.ShufflesAndPartitionsComplete : Prop := Claims.ShufflesComplete ∧ Claims.LanePartitionCompletes
/-! Slots X and F. -/

namespace Sys2Proof.Machine.Claims

/-- The strand has a run of the lease with commands left (R58). -/
def HasRun (s : State) : Prop := s.here.c.leaseHas = true ∧ (s.braid s.cur.1).holder = some s.cur.2 ∧ (s.braid s.cur.1).left ≠ 0

/-- The strand's request for a run of n commands, the lease and earlier requests given up (R58). -/
def asking (br : Braid) (k n seq : Nat) : Braid := { br.dropLease k with leaseReqs := (br.dropLease k).leaseReqs ++ [{ strand := k, n := n, seq := seq }] }

/-- The floors of a usage counter pair admit a command without a write to flash, and its counters do not overflow (R333, R378). -/
def CountersAdmit (s : State) (w region loads steps : Nat) : Prop := s.counterFull w region loads steps = false ∧ s.floorHit w region loads steps = false

/-- One MMA of the array (R326 to R328): the formats, the row scales, and the stationary buffer it reads. -/
structure MmaCase (s : State) (i : Instr) (f : FmtXM) (accum : Bool) : Prop where
  run : HasRun s
  kinds : (s.ctx i).fmtRuns (Store.get s.here.r.fmt f.fa.toNat 0)
  valid : fmtValid (Store.get s.here.r.fmt f.fa.toNat 0) = true ∧ fmtKind (Store.get s.here.r.fmt f.fa.toNat 0) ≠ 2
  loaded : ((s.braid s.cur.1).sbufOf f.sb.toNat).st = 2 ∧ ((s.braid s.cur.1).sbufOf f.sb.toNat).world = (s.ctx i).world
  pair : mmaPair (Store.get s.here.r.fmt f.fa.toNat 0) ((s.braid s.cur.1).sbufOf f.sb.toNat).fmt = true
  types : accum = true → ∀ c < 3, s.here.r.aUse.getLsbD (3 * f.g.toNat + c) = true →
    s.here.r.aInt.getLsbD (3 * f.g.toNat + c) = mmaInt (Store.get s.here.r.fmt f.fa.toNat 0)
  counted : CountersAdmit s (s.ctx i).world ((s.braid s.cur.1).sbufOf f.sb.toNat).region 0 16
  interval : (s.braid s.cur.1).mmaAt ≤ s.here.clk

/-- MLDS may issue (R324, R325): its control word, its format, its key slot and its buffer. -/
structure MldsCase (s : State) (f : FmtXD) : Prop where
  run : HasRun s
  word : mldsValid ((s.ctx (.mlds f)).opnd f.off) = true
  fmt : mldsFmt (Store.get s.here.r.fmt f.fb.toNat 0) = true ∧ (s.ctx (.mlds f)).fmtRuns (Store.get s.here.r.fmt f.fb.toNat 0)
  key : ((s.braid s.cur.1).keyOf f.key.toNat).valid = true ∧ ((s.braid s.cur.1).keyOf f.key.toNat).world = (s.ctx (.mlds f)).world
  counted : CountersAdmit s (s.ctx (.mlds f)).world ((s.braid s.cur.1).keyOf f.key.toNat).region 50688 0
  buffer : ((s.braid s.cur.1).sbufOf f.sb.toNat).st ≠ 1 ∧ s.stillRead s.cur.1 f.sb.toNat = false
  interval : (s.braid s.cur.1).mldsAt ≤ s.here.clk
  port : ∀ c ∈ (s.braid s.cur.1).cmds ++ s.here.heldOps, c.strand ≠ s.cur.2 ∨ c.op ≠ 7 ∨ c.cls ≠ 0

/-- The special functions on binary32 (R158, R159, R338). -/
def specials : List ((FmtFF → Instr) × (Nat → Nat)) := [
  (.fexp2, fexp2), (.flog2, flog2), (.frcp, frcp), (.frsq, frsq), (.fsqrt, fsqrt), (.ftanh, ftanh), (.fsig, fsig)]

end Sys2Proof.Machine.Claims

/-- R58, R323: MLEASE gives up what the strand had of the lease, asks for a run and stalls; once granted it completes with LEASE_RUN its N; MREL gives the
lease up. -/
def Sys2Proof.Machine.Claims.LeaseOperationsComplete : Prop :=
  (∀ (f : FmtXL) (s : State), Quiet s → On s f.pred → s.here.c.leaseAsked = false →
    Stalls (.mlease f) s { (s.setBraid s.cur.1 (asking (s.braid s.cur.1) s.cur.2 (if f.n = 0 then 64 else f.n.toNat) s.serial)).modStrand s.cur.1 s.cur.2
      (fun t => { t with c := { t.c with leaseHas := false, leaseAsked := true } }) with serial := s.serial + 1 }) ∧
  (∀ (f : FmtXL) (s : State), Quiet s → On s f.pred → s.here.c.leaseAsked = true →
    (HasRun s → Did (.mlease f) s 5 none s s.here.r
      { (s.ctx (.mlease f)).stepped with leaseAsked := false, leaseRun := if f.n = 0 then 64 else f.n.toNat }) ∧
    ((s.braid s.cur.1).holder ≠ some s.cur.2 → Stalls (.mlease f) s s)) ∧
  (∀ (f : FmtXZ) (s : State), Quiet s → On s f.pred →
    (s.here.c.leaseHas = true → Did (.mrel f) s 5 none (s.setBraid s.cur.1 ((s.braid s.cur.1).dropLease s.cur.2)) s.here.r
      { (s.ctx (.mrel f)).stepped with leaseHas := false }) ∧
    (s.here.c.leaseHas = false → Effects (.mrel f) s 5 none s))

/-- R320 to R325: MLDS uses a command of the run, sets the buffer loading with the key slot's region and its format, due after its latency, and the
set is good exactly where every sector of the B-store opens under the key; without a lease it traps with cause 0x0D, and with an empty key slot with 0x17. -/
def Sys2Proof.Machine.Claims.MldsLoadsOrTraps : Prop :=
  ∀ (f : FmtXD) (s : State), Quiet s → (s.ctx (.mlds f)).ready f.pred [f.off] →
    let br := s.braid s.cur.1
    let v := (s.ctx (.mlds f)).opnd f.off
    let key := br.keyOf f.key.toNat
    let fb := Store.get s.here.r.fmt f.fb.toNat 0
    let set := br.openSet key.key key.region (bits v 32 16) (bits v 0 14 / 2)
    (MldsCase s f → Effects (.mlds f) s 5 none (s.setBraid s.cur.1 { br with
      left := br.left - 1, mldsAt := s.here.clk + br.interval 18, sbuf := Store.put br.sbuf f.sb.toNat
        { st := 1, world := (s.ctx (.mlds f)).world, slot := f.key.toNat, region := key.region, fmt := fb, set := set.getD 0, good := set.isSome
          strand := s.cur.2, due := s.here.clk + br.latency 18 } })) ∧
    ((s.ctx (.mlds f)).fmtRuns fb → mldsValid v = true → mldsFmt fb = true → s.here.c.leaseHas = false → key.valid = false →
      Traps (.mlds f) s { cause := 0x0D, step := 6, sub := 1, slot := 5 }) ∧
    ((s.ctx (.mlds f)).fmtRuns fb → mldsValid v = true → mldsFmt fb = true → s.here.c.leaseHas = true → key.valid = false →
      Traps (.mlds f) s { cause := 0x17, step := 6, sub := 2, slot := 5 }) ∧
    ((s.ctx (.mlds f)).fmtRuns fb → mldsValid v = false → Traps (.mlds f) s { cause := 0x16, step := 6, slot := 5 })

/-- R326 to R329: MMA and MMA.ACC use a command of the run and count 16 steps; once its rows have passed the array, each of the 16 rows of the group's
three banks holds the products of its row of the moving tile with the buffer's columns, added to the row's old value by MMA.ACC, and nothing else of the
strand has changed; a buffer whose load failed traps with cause 0x18. -/
def Obligations.MatrixMultiplyCompletes : Prop :=
  ∀ e ∈ ([(.mma, false), (.mmaAcc, true)] : List ((FmtXM → Instr) × Bool)), ∀ (f : FmtXM) (s : State), Quiet s → On s f.pred →
    let i := e.1 f
    let br := s.braid s.cur.1
    let fa := Store.get s.here.r.fmt f.fa.toNat 0
    let buf := br.sbufOf f.sb.toNat
    let g := f.g.toNat
    let lat := br.latency 19
    let zs := if fmtScale fa = 0 then 0 else Store.get s.here.r.zbuf f.za.toNat 0
    let tabs := (s.ctx i).tableOf fa + 2 ^ 8192 * (s.ctx i).tableOf buf.fmt
    (MmaCase s i f e.2 → ∃ t, exec i s = .next t ∧ t.mem = s.mem ∧ t.pairs = (s.modPair (s.ctx i).world buf.region fun p => { p with steps := p.steps + 16 }).pairs ∧
      t.braid s.cur.1 = { br with left := br.left - 1, mmaAt := s.here.clk + br.interval 19,
                                  sbuf := Store.put br.sbuf f.sb.toNat { buf with busy := max buf.busy (s.here.clk + 15 + lat) } } ∧
      let d := t.here.landUpTo (s.here.clk + 15 + lat)
      (∀ c < 3, ∀ q < 16, d.r.bankRow (3 * g + c) q =
        (mmaBank q c e.2 (mmaInt fa) (s.here.r.tileRow f.ta.toNat q) fa buf.fmt tabs zs buf.set (s.here.r.bankRow (3 * g + c) q)).1) ∧
      (∀ a < 6, (a < 3 * g ∨ 3 * g + 3 ≤ a) → ∀ q < 16, d.r.bankRow a q = s.here.r.bankRow a q) ∧
      { d.r with acc := s.here.r.acc, aUse := s.here.r.aUse, aDirty := s.here.r.aDirty, aInt := s.here.r.aInt, aFlag := s.here.r.aFlag } = s.here.r ∧
      d.c = (s.ctx i).stepped ∧ d.pend = []) ∧
    (HasRun s → (s.ctx i).fmtRuns fa → fmtValid fa = true → fmtKind fa ≠ 2 → buf.st = 3 → buf.world = (s.ctx i).world → mmaPair fa buf.fmt = true →
      CountersAdmit s (s.ctx i).world buf.region 0 16 → (∀ c < 3, s.here.r.aUse.getLsbD (3 * g + c) = false) →
      Traps i s { cause := 0x18, step := 9, slot := 5 }) ∧
    ((s.ctx i).fmtRuns fa → fmtValid fa = true → fmtKind fa ≠ 2 → buf.st = 0 → Traps i s { cause := 0x16, step := 6, slot := 5 })

/-- R317, R329 to R331: MACR converts a bank's row into a tile row, drawing per lane under STOCH; MACW converts a tile row into a bank's row, whose type a
bank not in use takes; MACZ's bank reads zero with no type and no flags; MSTAT reads a bank's status and the buffers of the unit's world. -/
def Obligations.AccumulatorTransfersComplete : Prop :=
  (∀ (f : FmtXR) (s : State), Quiet s → On s f.pred → f.bank.toNat < 6 →
    let ty := f.ty.toNat
    let int := s.here.r.aUse.getLsbD f.bank.toNat && s.here.r.aInt.getLsbD f.bank.toNat
    let fits := s.here.r.aUse.getLsbD f.bank.toNat = false ∨ s.here.r.aInt.getLsbD f.bank.toNat = !tyFloat ty
    let vals : List (Bool × Machine.Num) := (lanesOf 32 (s.here.r.bankRow f.bank.toNat f.brow.toNat)).map fun c =>
      (true, if int then Num.ofInt (BitVec.ofNat 32 c).toInt else f32.decode c)
    let res := if tyFloat ty then convLanes s.here.r.frm (encTy ty) vals s.here.r.stoch else (vals.map fun v => encTy ty .rne v.2, s.here.r.stoch)
    (fits → Completes (.macr f) s (s.lat 21) 5 21 ({ s.here.r with stoch := res.2 }.setTileRow f.tile.toNat f.trow.toNat (packLanes (tyW ty) res.1) rowOnes)
      (s.ctx (.macr f)).stepped) ∧
    (¬ fits → Traps (.macr f) s { cause := 0x16, step := 6, slot := 5 })) ∧
  (∀ (f : FmtXR) (s : State), Quiet s → On s f.pred → f.bank.toNat < 6 →
    let ty := f.ty.toNat
    let fits := s.here.r.aUse.getLsbD f.bank.toNat = false ∨ s.here.r.aInt.getLsbD f.bank.toNat = !tyFloat ty
    let vals := ((lanesOf (tyW ty) (s.here.r.tileRow f.tile.toNat f.trow.toNat)).take 64).map (decTy ty)
    let out := vals.map fun v => if tyFloat ty then f32.encode .rne v else intLane 32 (toIntSat true 32 .rne v)
    (fits → Completes (.macw f) s (s.lat 21) 5 21 (s.here.r.setBankRow f.bank.toNat f.brow.toNat (packLanes 32 out) (!tyFloat ty) 0) (s.ctx (.macw f)).stepped) ∧
    (¬ fits → Traps (.macw f) s { cause := 0x16, step := 6, slot := 5 })) ∧
  (∀ (f : FmtXB) (s : State), Quiet s → On s f.pred → f.bank.toNat < 6 → ∃ r, Did (.macz f) s 5 none s r (s.ctx (.macz f)).stepped ∧
    (∀ q, r.bankRow f.bank.toNat q = 0) ∧ (∀ a q, a ≠ f.bank.toNat → q < 16 → r.bankRow a q = s.here.r.bankRow a q) ∧
    r.aUse.getLsbD f.bank.toNat = false ∧ r.aDirty.getLsbD f.bank.toNat = false ∧ bits r.aFlag (3 * f.bank.toNat) 3 = 0 ∧
    { r with acc := s.here.r.acc, aUse := s.here.r.aUse, aDirty := s.here.r.aDirty, aInt := s.here.r.aInt, aFlag := s.here.r.aFlag } = s.here.r) ∧
  (∀ (f : FmtXS) (s : State) (v : Word), Quiet s → On s f.pred → f.bank.toNat < 6 →
    let r := s.here.r
    let a := f.bank.toNat
    let seen := fun n => if ((s.braid s.cur.1).sbufOf n).world = (s.ctx (.mstat f)).world then ((s.braid s.cur.1).sbufOf n).st else 0
    v.toNat = seen 1 * 2 ^ 14 + seen 0 * 2 ^ 12 + (r.aUse.getLsbD a && r.aInt.getLsbD a).toNat * 2 ^ 5 + (r.aDirty.getLsbD a).toNat * 2 ^ 4 +
      (r.aUse.getLsbD a).toNat * 2 ^ 3 + bits r.aFlag (3 * a) 3 →
    Completes (.mstat f) s (s.lat 21) 5 21 (r.withX false f.dst v) ((s.ctx (.mstat f)).stepped.latched 5 v))

/-- R332, R333: MKZ returns one key slot to reset and empties the buffers loaded through it; MKZ.ALL does so for every slot of the partition whose world
has no record and no saved context there; MCNT reads a usage counter of a region bound in the unit's world, and else all ones; a user unit's MKZ traps
with cause 0x03. -/
def Obligations.KeyAndCounterOperations : Prop :=
  (∀ (f : FmtXK) (s : State), Quiet s → On s f.pred → recSupv s.here.slot0.bind = true → s.keyBusy s.cur.1 f.key.toNat = false →
    Effects (.mkz f) s 5 none (s.setBraid s.cur.1 { s.braid s.cur.1 with
      keys := Store.del (s.braid s.cur.1).keys f.key.toNat
      sbuf := (s.braid s.cur.1).sbuf.filter fun e => e.2.st == 0 || e.2.slot != f.key.toNat })) ∧
  (∀ (f : FmtXZ) (s : State), Quiet s → On s f.pred → recSupv s.here.slot0.bind = true → (∀ b, ((s.braid b).keys.map Prod.fst).Nodup) →
    (∀ b m, s.keyBusy b m = false) → ∃ u, Effects (.mkzAll f) s 5 none u ∧ u.mem = s.mem ∧ u.strands = s.strands ∧
      ∀ b m, (u.braid b).keyOf m = if b < 96 ∧ partOf b = partOf s.cur.1 ∧ s.worldInPart (partOf b) ((s.braid b).keyOf m).world = false then {}
        else (s.braid b).keyOf m) ∧
  (∀ e ∈ ([(.mcntLoads, fun p => p.loads), (.mcntSteps, fun p => p.steps)] : List ((FmtXC → Instr) × (Pair → Nat))), ∀ (f : FmtXC) (s : State),
    Quiet s → (s.ctx (e.1 f)).ready f.pred [f.reg] → (s.ctx (e.1 f)).masked 9 = false →
    let x := s.ctx (e.1 f)
    let reg := (x.opnd f.reg).toNat
    let v : Word := if (∃ k ∈ x.br.keys, k.2.valid = true ∧ k.2.world = x.world ∧ k.2.region = reg)
      then (match s.pair x.world reg with | some p => BitVec.ofNat 64 (e.2 p) | none => BitVec.allOnes 64) else BitVec.allOnes 64
    (reg < 4096 → Arrives (e.1 f) s 5 none s (s.here.r.withX false f.dst v) (x.stepped.latched 5 v)) ∧
    (4096 ≤ reg → Traps (e.1 f) s { cause := 0x16, step := 6, slot := 5 })) ∧
  (∀ (f : FmtXK) (s : State), Quiet s → recSupv s.here.slot0.bind = false → Traps (.mkz f) s { cause := 0x03, step := 4, slot := 5 })

/-- R335, R336, R339, R341: SCLD fills a scale buffer at its exposed latency, the caches alone changing beside it; FMTW and FMTR write and read a format
register, one that is not valid making FMTR trap with cause 0x16 (R142; that FMTR counts among its readers is this model's reading, log 59); TTRD reads an entry of the
timing table, and traps with cause 0x16 above 63; SEEDW seeds the generator, whose state is never zero. -/
def Obligations.AuxiliaryOperationsComplete : Prop :=
  (∀ (f : FmtFL) (s : State) (p : TlbEntry), Quiet s → (s.ctx (.scld f)).ready f.pred [f.base] →
    let x := s.ctx (.scld f)
    let va := (x.opnd f.base).toNat
    let m : MemOp := { slot := 7, va := va, size := 256, acc := .load, dbg := false, cls := f.cls.toNat }
    Reaches x m p → SameButCaches (x.accessed m (p.pa va) s) s ∧
    SettlesIn (x.accessed m (p.pa va) s) (.scld f) s (s.lat 17) 7 (some 17) { s.here.r with
      zbuf := Store.set s.here.r.zbuf f.z.toNat (BitVec.ofNat 2048 (leNat (readBuf s s.cur.1 x.arm (p.pa va) 256))) 0 } x.stepped) ∧
  (∀ (f : FmtFW) (s : State), Quiet s → (s.ctx (.fmtw f)).ready f.pred [f.a] →
    Did (.fmtw f) s 7 none s { s.here.r with fmt := Store.set s.here.r.fmt f.f.toNat (((s.ctx (.fmtw f)).opnd f.a).setWidth 32) 0 } (s.ctx (.fmtw f)).stepped) ∧
  (∀ (f : FmtFR) (s : State), Quiet s → On s f.pred →
    let v : Word := (Store.get s.here.r.fmt f.f.toNat 0).setWidth 64
    (s.ctx (.fmtr f)).fmtRuns (Store.get s.here.r.fmt f.f.toNat 0) →
    (fmtValid (Store.get s.here.r.fmt f.f.toNat 0) = true →
      Settles (.fmtr f) s 1 7 none (s.here.r.withX false f.dst v) ((s.ctx (.fmtr f)).stepped.latched 7 v)) ∧
    (fmtValid (Store.get s.here.r.fmt f.f.toNat 0) = false → Traps (.fmtr f) s { cause := 0x16, step := 6, slot := 7 })) ∧
  (∀ (f : FmtFT) (s : State), Quiet s → (s.ctx (.ttrd f)).ready f.pred [f.a] →
    let n := ((s.ctx (.ttrd f)).opnd f.a).toNat
    let v : Word := ((s.braid s.cur.1).timingOf n).setWidth 64
    (n < 64 → Settles (.ttrd f) s 1 7 none (s.here.r.withX false f.dst v) ((s.ctx (.ttrd f)).stepped.latched 7 v)) ∧
    (64 ≤ n → Traps (.ttrd f) s { cause := 0x16, step := 6, slot := 7 })) ∧
  (∀ (f : FmtFD) (s : State), Quiet s → (s.ctx (.seedw f)).ready f.pred [f.a] →
    let v : BitVec 32 := ((s.ctx (.seedw f)).opnd f.a).setWidth 32
    let seed := if v = 0 then 0x6D2B79F5#32 else v
    seed ≠ 0 ∧ Did (.seedw f) s 7 none s { s.here.r with stoch := seed } (s.ctx (.seedw f)).stepped)

/-- R158, R159, R337, R338: the special functions act on the 64 binary32 lanes of a row, written whole; FBX encodes or decodes a row by the installed
converter's image (what an encoder writes is a value this model leaves open, log 4); with no image installed it traps with cause 0x02. -/
def Obligations.FunctionUnitsComplete : Prop :=
  (∀ e ∈ specials, ∀ (f : FmtFF) (s : State), Quiet s → On s f.pred → (s.ctx (e.1 f)).masked 1 = false →
    let i := (s.ctx (e.1 f)).rowIndex f.row
    Completes (e.1 f) s (s.lat 16) 7 16 (s.here.r.setTileRow f.td.toNat i (packLanes 32 ((lanesOf 32 (s.here.r.tileRow f.ta.toNat i)).map e.2)) rowOnes)
      (s.ctx (e.1 f)).stepped) ∧
  (∀ (f : FmtFB) (s : State) (id : Nat) (img : SpliceImage), Quiet s → On s f.pred → (s.ctx (.fbx f)).masked 0 = false →
    (s.braid s.cur.1).converter f.id.toNat = some id → (s.flash.find? fun g => g.id == id) = some img →
    let i := (s.ctx (.fbx f)).rowIndex f.row
    let src := s.here.r.tileRow f.ta.toNat i
    let wide := if img.csrc = 0 then 32 else 16
    let table := fun c => (img.table.getD (c % 2 ^ img.cw) 0).toNat
    (f.id.toNat % 2 = 0 → Completes (.fbx f) s (s.lat 22) 7 22 (s.here.r.setTileRow f.td.toNat i
        (packLanes 8 ((lanesOf wide src).map fun c => Config.converterCode img.id c % 2 ^ img.cw))
        (enableRow 8 (List.replicate (2048 / wide) true))) (s.ctx (.fbx f)).stepped) ∧
    (f.id.toNat % 2 = 1 → Completes (.fbx f) s (s.lat 22) 7 22 (s.here.r.setTileRow f.td.toNat i
        (packLanes 32 (((lanesOf 8 src).take 64).map fun c => f32.encode .rne (tableNum (table c)))) rowOnes) (s.ctx (.fbx f)).stepped)) ∧
  (∀ (f : FmtFB) (s : State), Quiet s → (s.ctx (.fbx f)).masked 0 = false → (s.braid s.cur.1).converter f.id.toNat = none →
    Traps (.fbx f) s { cause := 0x02, step := 2, slot := 7 })

/-- R58, R320 to R325: the lease, and loads of the stationary buffers. -/
def Obligations.LeaseAndLoadsComplete : Prop := Claims.LeaseOperationsComplete ∧ Claims.MldsLoadsOrTraps

/-! Slot E. -/

namespace Sys2Proof.Machine.Claims

/-- A staging block in its layout: addresses, lengths and reserved bits as the command gives them (R271, R273 to R275, R289), k the block's words. -/
def cpyOk (f : FmtE) (k : Nat → Word) : Prop :=
  f.flags.toNat < 4 ∧ (k 2).toNat < 2 ^ 32 ∧ (f.flags.getLsbD 0 = true → isWindow (k 0).toNat = true) ∧
    (f.flags.getLsbD 1 = true → (k 0).toNat % 256 = 0 ∧ (k 1).toNat % 256 = 0 ∧ (k 2).toNat % 256 = 0)
def cpy2dOk (f : FmtE) (k : Nat → Word) : Prop := f.flags = 0 ∧ (k 2).toNat / 2 ^ 32 * ((k 2).toNat % 2 ^ 32) < 2 ^ 32
def slabWordOk (w : Word) : Prop := w.toNat / 2 ^ 32 ≤ 65536 ∧ w &&& 0xFF0000C0#64 = 0
def cpysOk (f : FmtE) (k : Nat → Word) : Prop :=
  f.flags &&& 0x7F9#11 = 0 ∧ slabWordOk (k 1) ∧
    (f.flags.getLsbD 1 = true → (k 0).toNat % 256 = 0 ∧ (k 1).toNat / 2 ^ 8 % 2 ^ 16 % 256 = 0 ∧ (k 1).toNat / 2 ^ 32 % 256 = 0)
def cpydOk (f : FmtE) (k : Nat → Word) : Prop := f.flags.toNat < 2 ∧ slabWordOk (k 1)
def listOk (f : FmtE) (k : Nat → Word) : Prop :=
  f.flags = 0 ∧ (k 3) &&& 0xFFFFFFE0FE000000#64 = 0 ∧ (k 3).toNat % 2 ^ 25 ≤ 2 ^ 24 ∧ (k 3).toNat / 2 ^ 32 % 16 ≤ 8 ∧
    (k 1).toNat % 2 ^ ((k 3).toNat / 2 ^ 32 % 16) = 0 ∧ (k 2).toNat % (if (k 3).getLsbD 36 then 8 else 4) = 0
def bsldOk (f : FmtE) (k : Nat → Word) : Prop :=
  f.flags = 0 ∧ (k 0).toNat % 512 = 0 ∧ (k 1) &&& 0xFFFFFFFFE000E000#64 = 0 ∧ (k 1).toNat % 2 ^ 13 + (k 1).toNat / 2 ^ 16 + 1 ≤ 8192
def scrubOk (f : FmtE) (k : Nat → Word) : Prop :=
  f.flags.toNat < 2 ∧ f.cls = 0 ∧ (k 0) &&& 0xFFF0000000000FFF#64 = 0 ∧ (k 1).toNat % 4096 = 0 ∧ (k 2).toNat < 256 ∧
    (f.flags.getLsbD 0 = true → k 1 = 0 ∧ (k 0).toNat / 2 ^ 12 < 96)

/-- Data commands: opcode, registers of the block, layout (R271 to R275, R289). -/
def dataCommands : List ((FmtE → Instr) × Nat × Nat × (FmtE → (Nat → Word) → Prop)) := [
  (.cpy, 1, 3, cpyOk), (.cpy2d, 2, 4, cpy2dOk), (.cpys, 3, 2, cpysOk), (.cpyd, 4, 2, cpydOk), (.gath, 5, 4, listOk), (.scat, 6, 4, listOk),
  (.bsld, 7, 2, bsldOk), (.scrub, 35, 3, scrubOk)]

/-- The layout of message blocks (R279): SEND and COLL, then RECV. -/
def msgWordOk (w : Word) : Prop := w &&& 0xFFF8E0000CC00000#64 = 0 ∧ (w.toNat / 2 ^ 32) % 2 ^ 13 ≤ 4096 ∧ w.toNat % 256 < 96
def sendOk (f : FmtE) (k : Nat → Word) : Prop :=
  f.flags.toNat < 16 ∧ msgWordOk (k 1) ∧ (f.flags.getLsbD 0 = true → (k 1).toNat / 2 ^ 32 % 2 ^ 13 = 0)
def collOk (f : FmtE) (k : Nat → Word) : Prop :=
  f.flags &&& 0x7F1#11 = 0 ∧ msgWordOk (k 1) ∧ (k 1).toNat / 2 ^ 48 % 8 ≤ 4 ∧
    (k 1).toNat / 2 ^ 32 % 2 ^ 13 % (if (k 1).toNat / 2 ^ 48 % 8 = 1 then 2 else 4) = 0
def recvOk (f : FmtE) (k : Nat → Word) : Prop :=
  f.flags.toNat < 32 ∧ (k 1) &&& 0xFFF8E000FFC00000#64 = 0 ∧ 1 ≤ (k 1).toNat / 2 ^ 32 % 2 ^ 13 ∧ (k 1).toNat / 2 ^ 32 % 2 ^ 13 ≤ 4096 ∧
    (k 1).toNat / 2 ^ 48 % 8 ≤ 4 ∧ (k 2) &&& 0xFFFFFFFFFF0C0000#64 = 0 ∧ (f.flags.getLsbD 0 = true → (k 2).toNat % 256 < 96)

/-- Message commands: opcode, registers before the user route's, layout, the feature bit that masks them, and the node they tell (R183, R279). -/
def messages : List ((FmtE → Instr) × Nat × Nat × (FmtE → (Nat → Word) → Prop) × Nat × (FmtE → (Nat → Word) → Option Nat)) := [
  (.send, 22, 2, sendOk, 4, fun _ k => some ((k 1).toNat % 2 ^ 16)), (.coll, 24, 2, collOk, 3, fun _ k => some ((k 1).toNat % 2 ^ 16)),
  (.recv, 23, 3, recvOk, 4, fun f k => if f.flags.getLsbD 0 then some ((k 2).toNat % 2 ^ 16) else none)]

/-- The route words a message's block holds (R279). -/
def userWordsOf (f : FmtE) : Nat := if f.flags.getLsbD 1 then f.flags.toNat / 4 % 4 + 1 else 0

/-- The node a message tells can be reached: by the route book, or by the user's own words to a device of the roster (R134, R137, R138). -/
def CanTell (s : State) (w : Nat) (f : FmtE) (dest : Nat) : Prop :=
  if f.flags.getLsbD 1 = true then s.onRoster w (dest / 256) = true else ∃ n h ws, s.wayTo s.cur.1 dest w = .entry n h ws

/-- What a command's acceptance does to its braid (R72, R87, R267, R272): it takes a place, accepted; an empty or ready slab it writes turns to filling, and
the ready slabs it drains turn to draining. -/
def accepted (s : State) (c : Cmd) : State :=
  let br := s.braid s.cur.1
  let own := fun id => decide (slabSize (br.slabOf id) ≠ 0 ∧ slabWorld (br.slabOf id) = c.world)
  let into := c.slabIn.toList.filter fun id => own id && (slabState (br.slabOf id) == 0 || slabState (br.slabOf id) == 2)
  let outs := if c.drains then c.slabsOut.filter fun id => own id && slabState (br.slabOf id) == 2 else []
  let turn := fun (t : Braid) (ids : List Nat) (st : Nat) => ids.foldl (fun t id => t.setSlabState id st) t
  { s with serial := s.serial + 1 }.setBraid s.cur.1
    (turn (turn { br with cmds := br.cmds ++ [{ c with acc := true, fills := !into.isEmpty, drained := !outs.isEmpty }] } into 1) outs 3)

/-- Nothing but its slabs can make a command wait at its engine: the braid's commands are older and all accepted, no transfer of the unit's own is in progress
(R99, R267), and BSLD finds the B-store powered (R275). -/
structure EngineIdle (s : State) (c : Cmd) : Prop where
  older : ∀ d ∈ (s.braid s.cur.1).cmds, d.seq < s.serial ∧ d.acc = true
  noXfer : ∀ t ∈ s.xfers, t.braid ≠ s.cur.1 ∨ t.strand ≠ s.cur.2 ∨ t.world ≠ c.world
  powered : c.op = 7 → (s.braid s.cur.1).bstOn = true

/-- A slab a command reads can be read now, or fails it at once (R272). -/
def SlabReadable (s : State) (c : Cmd) (id : Nat) : Prop :=
  let e := (s.braid s.cur.1).slabOf id
  slabSize e = 0 ∨ slabWorld e ≠ c.world ∨ slabState e = 2 ∨ slabState e = 4

/-- The slab a command writes is not being filled or drained, and those it reads can be read (R272). -/
def SlabFree (s : State) (c : Cmd) : Prop :=
  (∀ id ∈ c.slabIn, slabSize ((s.braid s.cur.1).slabOf id) ≠ 0 → slabWorld ((s.braid s.cur.1).slabOf id) = c.world →
    slabState ((s.braid s.cur.1).slabOf id) ≠ 1 ∧ slabState ((s.braid s.cur.1).slabOf id) ≠ 3) ∧ ∀ id ∈ c.slabsOut, SlabReadable s c id

/-- A command held until its arm's decision (R52). -/
def heldUntil (s : State) (c : Cmd) : State :=
  ({ s with serial := s.serial + 1 }).modStrand s.cur.1 s.cur.2 fun t => { t with heldOps := t.heldOps ++ [c] }

/-- Token operations and whether they name an agent (R276 to R278). -/
def tokenOps : List ((FmtE → Instr) × Nat × Bool) := [
  (.tnew, 8, true), (.tdel, 9, false), (.tlend, 10, true), (.tgive, 11, true), (.tret, 12, false), (.tsplit, 13, false), (.tmerge, 14, false),
  (.tshare, 15, false), (.tashr, 16, false), (.tunsh, 17, false), (.tacq, 18, false), (.trel, 19, false), (.trevive, 20, false), (.tqry, 21, true)]

/-- The block of a token operation in its layout (R266, R276). -/
def tokenOk (f : FmtE) (k : Nat → Word) (op : Nat) (agent : Bool) : Prop :=
  f.flags.toNat % 32 = 0 ∧ f.cls = 0 ∧ (op = 21 → f.evt = 0) ∧ f.kb.toNat + (if op = 8 then 3 else if op = 21 then 4 else 2) ≤ 16 ∧
    (k 1) &&& 0xFFFFFFFF000000C0#64 = 0 ∧ (agent = false → (k 1).toNat < 64) ∧ (op = 8 → (k 2).toNat < 256)

/-- A token operation in progress, as its issue enters it (R95, R276). -/
def tokenXfer (x : Ctx) (f : FmtE) (op : Nat) (pa : Nat) : Xfer :=
  let k := x.kw f
  { id := x.s.serial, op := op, braid := x.b, strand := x.k, world := x.world, base := pa, log2 := (k 1).toNat % 64
    agent := (k 1).extractLsb' 8 24, evt := f.evt.toNat, tworld := (k 2).toNat % 256, badAlign := pa % 2 ^ ((k 1).toNat % 64) != 0 && op != 21
    dst := x.r.cellX f.dst.toNat, latchGen := x.st.c.gen, kb := f.kb.toNat, started := false, arm := x.arm }

/-- What the strand awaits of it: its status, and TQRY's four words (R278). -/
def tokenAwaits (x : Ctx) (f : FmtE) (op : Nat) : Sbd :=
  { dests := [.x (x.r.cellX f.dst.toNat), .latch 6] ++ (if op = 21 then (List.range 4).map fun i => Res.k (f.kb.toNat + i) else [])
    effs := [], tok := some x.s.serial, req := none, due := none }

/-- The value operand of EWAIT and ESET (R285). -/
def EventOperand (f : FmtE) (o : Operand) : Prop := Operand.ofBits (f.flags.toNat / 8) = some o ∧ f.flags.toNat % 8 = 0 ∧ f.kb = 0 ∧ f.cls = 0

end Sys2Proof.Machine.Claims

/-- R266, R267, R272, R52, R289: a data command whose block keeps its layout takes a place of its engine with its block, class, scope, counter and the
tokens the strand then holds; accepted, it turns a slab it writes to filling and those it drains to draining; while a slab it reads is being filled it
keeps its place and is not accepted; in a buffered unit one that writes outside the unit's own slabs is held until the decision; a block past k15 or out
of its layout traps with cause 0x16; with 16 places taken the bundle stalls. SCRUB is privileged. -/
def Obligations.DataCommandsComplete : Prop :=
  ∀ e ∈ dataCommands, ∀ (f : FmtE) (s : State), Quiet s → On s f.pred → (e.2.1 = 35 → recSupv s.here.slot0.bind = true) →
    let i := e.1 f
    let x := s.ctx i
    let c := x.mkCmd e.2.1 f e.2.2.1 s.serial
    let fits := f.kb.toNat + e.2.2.1 ≤ 16 ∧ e.2.2.2 f (x.kw f)
    let now := x.arm = none ∨ ∃ id, c.slabIn = some id ∧ x.ownSlab id = true
    (fits → x.engineFull c.engine = false → EngineIdle s c → SlabFree s c → now → Effects i s 6 none (accepted s c)) ∧
    (fits → x.engineFull c.engine = false → EngineIdle s c → (∃ id ∈ c.slabsOut, ¬ SlabReadable s c id) → now →
      Effects i s 6 none (({ s with serial := s.serial + 1 }).addCmd s.cur.1 c)) ∧
    (fits → x.engineFull c.engine = false → x.arm.isSome = true → (∀ id, c.slabIn = some id → x.ownSlab id = false) → Effects i s 6 none (heldUntil s c)) ∧
    (fits → x.engineFull c.engine = true → Stalls i s s) ∧
    (¬ fits → Traps i s { cause := 0x16, step := 6, slot := 6 })

/-- R279, R281, R134, R138, R183: SEND, COLL and RECV take a place of the collective engine, or in a buffered unit are held until the decision; one to a
device off the roster traps with cause 0x0A in a protected world; a masked one traps with cause 0x02. -/
def Obligations.MessageCommandsComplete : Prop :=
  ∀ e ∈ messages, ∀ (f : FmtE) (s : State), Quiet s → On s f.pred →
    let i := e.1 f
    let x := s.ctx i
    let n := e.2.2.1 + userWordsOf f
    let c := x.mkCmd e.2.1 f n s.serial
    let fits := f.kb.toNat + n ≤ 16 ∧ e.2.2.2.1 f (x.kw f)
    (x.masked e.2.2.2.2.1 = false → fits → x.engineFull 2 = false → (∀ d ∈ e.2.2.2.2.2 f (x.kw f), CanTell s x.world f d) →
      (x.arm = none → EngineIdle s c → SlabFree s c → Effects i s 6 none (accepted s c)) ∧
      (x.arm.isSome = true → (∀ id, c.slabIn = some id → x.ownSlab id = false) → Effects i s 6 none (heldUntil s c))) ∧
    (x.masked e.2.2.2.2.1 = false → fits → s.isProtected x.world = true → (∃ d, e.2.2.2.2.2 f (x.kw f) = some d ∧
      s.onRoster x.world (d / 256) = false ∧ (f.flags.getLsbD 1 = false → s.wayTo s.cur.1 d x.world = .offRoster)) →
      Traps i s { cause := 0x0A, step := 7, sub := 2, slot := 6 }) ∧
    (x.masked e.2.2.2.2.1 = false → ¬ fits → Traps i s { cause := 0x16, step := 6, slot := 6 }) ∧
    (x.masked e.2.2.2.2.1 = true → Traps i s { cause := 0x02, step := 2, slot := 6, detail := maskedMark })

/-- R284, R23, R257: VFPUSH appends the row, tagged with the unit's world, and stalls at 16 entries; VFPOP takes the partner's oldest entry into a row,
in synchronised mode from the third cycle after its push on, stalls where there is none, and traps with cause 0x0A where the entry is another world's; VFCNT counts free slots outward or entries inward. -/
def Sys2Proof.Machine.Claims.VerticalFifosComplete : Prop :=
  (∀ (f : FmtE) (s : State), Quiet s → On s f.pred → (s.ctx (.vfpush f)).masked 2 = false → f.kb = 0 → f.evt = 0 → (s.braid (partner s.cur.1)).status = 0 →
    let v := f.flags.toNat % 4
    let q := Store.get (s.braid s.cur.1).vf v []
    let row := s.here.r.tileRow f.vtile.toNat ((s.ctx (.vfpush f)).rowIndex f.vrow)
    (q.length < 16 → Effects (.vfpush f) s 6 none (s.modBraid s.cur.1 fun t =>
      { t with vf := Store.put t.vf v (q ++ [((s.ctx (.vfpush f)).world, row, s.here.clk)]) })) ∧
    (16 ≤ q.length → Stalls (.vfpush f) s (s.modStrand s.cur.1 s.cur.2 (·.waitFifo (64 + v, false))))) ∧
  (∀ (f : FmtE) (s : State) (w : Nat) (row : Row) (at_ : Nat) (rest : List (Nat × Row × Nat)), Quiet s → On s f.pred → (s.ctx (.vfpop f)).masked 2 = false →
    f.kb = 0 → f.evt = 0 → Store.get (s.braid (partner s.cur.1)).vf (f.flags.toNat % 4) [] = (w, row, at_) :: rest →
    (∀ k < 4, (s.strand s.cur.1 k).fifoWait = none) →
    (w = (s.ctx (.vfpop f)).world → ((s.braid s.cur.1).sync = true →
        at_ + (s.braid s.cur.1).syncAt + 3 ≤ s.here.clk + (s.braid (partner s.cur.1)).syncAt) →
      Arrives (.vfpop f) s 6 none (s.modBraid (partner s.cur.1) fun t => { t with vf := Store.set t.vf (f.flags.toNat % 4) rest [] })
        (s.here.r.setTileRow f.vtile.toNat ((s.ctx (.vfpop f)).rowIndex f.vrow) row rowOnes) (s.ctx (.vfpop f)).stepped) ∧
    (w ≠ (s.ctx (.vfpop f)).world → Traps (.vfpop f) s { cause := 0x0A, step := 7, sub := 2, slot := 6 })) ∧
  (∀ (f : FmtE) (s : State), Quiet s → On s f.pred → (s.ctx (.vfpop f)).masked 2 = false → f.kb = 0 → f.evt = 0 →
    Store.get (s.braid (partner s.cur.1)).vf (f.flags.toNat % 4) [] = [] → (s.braid (partner s.cur.1)).status ≠ 2 →
    Stalls (.vfpop f) s (s.modStrand s.cur.1 s.cur.2 (·.waitFifo (96 + f.flags.toNat % 4, true)))) ∧
  (∀ (f : FmtE) (s : State), Quiet s → On s f.pred → (s.ctx (.vfcnt f)).masked 2 = false → f.kb = 0 → f.evt = 0 → f.cls = 0 → f.flags.toNat / 4 % 4 = 0 →
    let v := f.flags.toNat % 4
    let n := if f.flags.getLsbD 4 then (Store.get (s.braid (partner s.cur.1)).vf v []).length else 16 - (Store.get (s.braid s.cur.1).vf v []).length
    Settles (.vfcnt f) s 1 6 none (s.here.r.withX false f.dst (BitVec.ofNat 64 n)) ((s.ctx (.vfcnt f)).stepped.latched 6 (BitVec.ofNat 64 n)))

/-- R285, R62: EWAIT goes on once its counter has reached the value, counted modulo 2^32, and else stalls; EVR reads status and count; ESET sets the
count and clears the status. -/
def Sys2Proof.Machine.Claims.EventOperationsComplete : Prop :=
  (∀ (f : FmtE) (s : State) (o : Operand), Quiet s → (s.ctx (.ewait f)).ready f.pred [o] → EventOperand f o →
    let d := Store.get s.here.r.ecnt f.evt.toNat 0 - ((s.ctx (.ewait f)).opnd o).setWidth 32
    (d.toNat < 2 ^ 31 → Effects (.ewait f) s 6 none s) ∧ (2 ^ 31 ≤ d.toNat → Stalls (.ewait f) s s)) ∧
  (∀ (f : FmtE) (s : State), Quiet s → On s f.pred → f.kb = 0 → f.cls = 0 → f.flags.toNat % 32 = 0 →
    let v : Word := Store.get s.here.r.estat f.evt.toNat 0 ++ Store.get s.here.r.ecnt f.evt.toNat 0
    Settles (.evr f) s 1 6 none (s.here.r.withX false f.dst v) ((s.ctx (.evr f)).stepped.latched 6 v)) ∧
  (∀ (f : FmtE) (s : State) (o : Operand), Quiet s → (s.ctx (.eset f)).ready f.pred [o] → EventOperand f o →
    Did (.eset f) s 6 none s { s.here.r with
      ecnt := Store.set s.here.r.ecnt f.evt.toNat (((s.ctx (.eset f)).opnd o).setWidth 32) 0
      estat := Store.set s.here.r.estat f.evt.toNat 0 0 } (s.ctx (.eset f)).stepped)

/-- R286: NOTIFY to an agent no route leads to ends its counter with ROUTE or ROSTER at issue; to a reachable one its packet goes out and its command
waits for the answer, or waits on a suspended route; an agent that is no strand traps with cause 0x16. -/
def Sys2Proof.Machine.Claims.NotifyCompletes : Prop :=
  ∀ (f : FmtE) (s : State), Quiet s → On s f.pred →
    let x := s.ctx (.notify f)
    let w := x.kw f 0
    let c := x.mkCmd 31 f 1 s.serial
    let node := w.toNat / 2 ^ 16 % 2 ^ 8 * 256 + w.toNat / 2 ^ 9 % 2 ^ 7
    let fits := f.flags = 0 ∧ w.toNat < 2 ^ 28 ∧ w.toNat / 2 ^ 9 % 2 ^ 7 < 96 ∧ w.toNat / 2 ^ 5 % 16 < 4 ∧ w.toNat % 32 = 0
    let u := { s with serial := s.serial + 1 }
    (fits → x.arm = none → s.wayTo s.cur.1 node x.world = .noEntry → Effects (.notify f) s 6 none (u.bumpUnit s.cur.1 s.cur.2 x.world f.evt.toNat 8 (9 * 128))) ∧
    (fits → x.arm = none → s.isProtected x.world = false → s.wayTo s.cur.1 node x.world = .offRoster →
      Effects (.notify f) s 6 none (u.bumpUnit s.cur.1 s.cur.2 x.world f.evt.toNat 11 0)) ∧
    (∀ n ws, fits → x.arm = none → s.wayTo s.cur.1 node x.world = .entry n false ws → (∀ d ∈ (s.braid s.cur.1).cmds, d.seq ≠ s.serial) →
      Effects (.notify f) s 6 none ((u.addCmd s.cur.1 { c with sent := true, begun := true, entry := some n }).inject
        (bumpPacket (u.addCmd s.cur.1 c) s.cur.1 c ws))) ∧
    (∀ n ws, fits → x.arm = none → s.wayTo s.cur.1 node x.world = .entry n true ws → (∀ d ∈ (s.braid s.cur.1).cmds, d.seq ≠ s.serial) →
      Effects (.notify f) s 6 none (u.addCmd s.cur.1 { c with begun := true, entry := some n })) ∧
    (fits → x.arm.isSome = true → s.isProtected x.world = false → Effects (.notify f) s 6 none (heldUntil s c)) ∧
    (¬ fits → Traps (.notify f) s { cause := 0x16, step := 6, slot := 6 })

/-- R287, R288, R52: LAUNCH enters its launch at the halyard and its counter tells the outcome; DECIDE and CANCEL act on the partition's level table once
the bundle has issued and tell theirs, but where a cancel ends the issuer's own unit; in a buffered unit all three are held until the decision. -/
def Sys2Proof.Machine.Claims.LevelCommandsComplete : Prop :=
  (∀ (f : FmtE) (s : State), Quiet s → On s f.pred → f.flags = 0 → ((s.ctx (.launch f)).kw f 0).toNat % 64 = 0 →
    let x := s.ctx (.launch f)
    let out := launchCmd { s with serial := s.serial + 1 } s.cur.1 x.world (x.kw f 0).toNat
    (x.arm = none → Effects (.launch f) s 6 none (out.2.2.bumpUnit s.cur.1 s.cur.2 x.world f.evt.toNat out.1 out.2.1)) ∧
    (x.arm.isSome = true → Effects (.launch f) s 6 none (heldUntil s (x.mkCmd 32 f 1 s.serial)))) ∧
  (∀ (f : FmtE) (s : State), Quiet s → On s f.pred → (s.ctx (.decide f)).masked 5 = false → f.flags = 0 → f.cls = 0 →
    let x := s.ctx (.decide f)
    let w := x.kw f 0
    w.toNat < 2 ^ 13 →
    let out := decideStatus s (partOf s.cur.1) (recLaunch s.here.slot0.bind) (w.toNat % 2 ^ 12)
    (x.arm = none → out.1 ≠ 0 → Effects (.decide f) s 6 none (s.bumpUnit s.cur.1 s.cur.2 x.world f.evt.toNat out.1 out.2)) ∧
    (x.arm = none → out.1 = 0 → ∃ t, exec (.decide f) s = .next (t.bumpUnit s.cur.1 s.cur.2 x.world f.evt.toNat 0 out.2) ∧
      ∃ u, exec .nopE s = .next u ∧ t = u.level (partOf s.cur.1) [.decide (w.toNat % 2 ^ 12) (if w.getLsbD 12 then 2 else 1)]) ∧
    (x.arm.isSome = true → Effects (.decide f) s 6 none (heldUntil s (x.mkCmd 33 f 1 s.serial)))) ∧
  (∀ (f : FmtE) (s : State), Quiet s → On s f.pred → f.flags = 0 → f.cls = 0 →
    let x := s.ctx (.cancel f)
    let obj := (x.kw f 0).toNat
    obj < 2 ^ 12 →
    let out := cancelStatus s (partOf s.cur.1) x.world obj x.supv
    (x.arm = none → out.1 ≠ 0 → Effects (.cancel f) s 6 none (s.bumpUnit s.cur.1 s.cur.2 x.world f.evt.toNat out.1 out.2)) ∧
    (x.arm = none → out.1 = 0 → ∃ u, exec .nopE s = .next u ∧ exec (.cancel f) s = .next
      (if x.under u obj then u.level (partOf s.cur.1) [.cancel obj]
       else (u.level (partOf s.cur.1) [.cancel obj]).bumpUnit s.cur.1 s.cur.2 x.world f.evt.toNat 0 0)) ∧
    (x.arm.isSome = true → Effects (.cancel f) s 6 none (heldUntil s (x.mkCmd 34 f 1 s.serial))))

/-- R290, R291, R133, R136, R182: SPLREQ passes its request to the fid core; RTSET writes its route-book entry with SUSP 0 and bumps its counter, refuses
a malformed one, and holds back an entry whose requests are not all acknowledged; all slot E privileged forms trap with cause 0x03 in a user unit. -/
def Obligations.SupervisorCommandsComplete : Prop :=
  (∀ (f : FmtE) (s : State), Quiet s → On s f.pred → recSupv s.here.slot0.bind = true → f.flags = 0 → f.cls = 0 → f.kb.toNat + 2 ≤ 16 →
    let x := s.ctx (.splreq f)
    let v := x.kw f 1
    (x.kw f 0).toNat < 2 ^ 16 → v &&& 0xFFFFFFFF3F80FF00#64 = 0 → v.toNat / 2 ^ 30 % 4 ≤ 1 → v.toNat / 2 ^ 16 % 2 ^ 7 < 96 →
    Effects (.splreq f) s 6 none { s with spliceReqs := s.spliceReqs ++ [{
      braid := s.cur.1, strand := s.cur.2, evt := f.evt.toNat, world := x.world, image := (x.kw f 0).toNat
      action := v.toNat / 2 ^ 30 % 4, target := v.toNat / 2 ^ 16 % 2 ^ 7, unit := v.toNat % 2 ^ 8 }] }) ∧
  (∀ (f : FmtE) (s : State), Quiet s → On s f.pred → recSupv s.here.slot0.bind = true → f.flags.toNat % 8 = 0 → f.cls = 0 → f.kb.toNat + 3 ≤ 16 →
    let x := s.ctx (.rtset f)
    let n := f.flags.toNat / 8
    let u := { s with serial := s.serial + 1 }
    let e := (s.braid s.cur.1).rbOf n
    (x.kw f 0).toNat % 2 ^ 37 = 0 →
    (rwExt (x.kw f 1) = true → rwExt (x.kw f 2) = true → Effects (.rtset f) s 6 none (u.bumpUnit s.cur.1 s.cur.2 x.world f.evt.toNat 15 1)) ∧
    ((rwExt (x.kw f 1) = false ∨ rwExt (x.kw f 2) = false) → s.outstanding s.cur.1 n = false →
      (∀ c ∈ (s.braid s.cur.1).cmds, c.op ≠ 37 ∨ c.rtEntry ≠ n) → Effects (.rtset f) s 6 none ((releaseEntry (u.modBraid s.cur.1 fun t => { t with
        rb := Store.put t.rb n { ctl := x.kw f 0 &&& ~~~ (1#64 <<< 38), route := x.kw f 1, ext := x.kw f 2 } }) s.cur.1 n).bumpUnit
        s.cur.1 s.cur.2 x.world f.evt.toNat 0 0)) ∧
    ((rwExt (x.kw f 1) = false ∨ rwExt (x.kw f 2) = false) → e.valid = true → e.susp = false → (∃ c ∈ (s.braid s.cur.1).cmds, c.op ≠ 37 ∧ c.sent = true ∧ c.entry = some n) →
      Effects (.rtset f) s 6 none ((u.modBraid s.cur.1 fun t => { t with rb := Store.put t.rb n { e with ctl := e.ctl ||| (1#64 <<< 38) } }).addCmd s.cur.1
        { x.mkCmd 37 f 3 s.serial with sent := true, entry := none }))) ∧
  (∀ mk ∈ ([.scrub, .splreq, .rtset] : List (FmtE → Instr)), ∀ (f : FmtE) (s : State), Quiet s → recSupv s.here.slot0.bind = false →
    Traps (mk f) s { cause := 0x03, step := 4, slot := 6 }) ∧
  (∀ mk ∈ ([.tnew, .tdel] : List (FmtE → Instr)), ∀ (f : FmtE) (s : State), Quiet s → recSupv s.here.slot0.bind = false →
    (On s f.pred → needsWalk (s.ctx (mk f)) ((s.ctx (mk f)).kw f 0).toNat = false) → Traps (mk f) s { cause := 0x03, step := 4, slot := 6 })

/-- R276 to R278, R95, R83, R85: a token operation enters its transfer over the translated base and its status is awaited; a block out of its layout traps
with cause 0x16, a base that does not translate with 0x06, and a home no entry of the route book leads to with 0x0E. -/
def Obligations.TokenOperationsComplete : Prop :=
  ∀ e ∈ tokenOps, ∀ (f : FmtE) (s : State), Quiet s → On s f.pred → (e.2.1 = 8 ∨ e.2.1 = 9 → recSupv s.here.slot0.bind = true) →
    let i := e.1 f
    let x := s.ctx i
    let va := (x.kw f 0).toNat
    (∀ p, tokenOk f (x.kw f) e.2.1 e.2.2 → va < 2 ^ 48 → (tlbFind x.st.mtlb x.world va).or (x.br.tlbHit x.world va) = some p →
      fareHome s s.cur.1 x.world (p.pa va) ≠ .noEntry →
      Effects i s 6 none ((x.useTlb va { s with xfers := s.xfers ++ [tokenXfer x f e.2.1 (p.pa va)], serial := s.serial + 1 }).modStrand s.cur.1 s.cur.2 fun t =>
        { t with sbd := [tokenAwaits x f e.2.1] })) ∧
    (∀ p, tokenOk f (x.kw f) e.2.1 e.2.2 → va < 2 ^ 48 → (tlbFind x.st.mtlb x.world va).or (x.br.tlbHit x.world va) = some p →
      fareHome s s.cur.1 x.world (p.pa va) = .noEntry → Traps i s { cause := 0x0E, step := 8, slot := 6, detail := 9 * 128 }) ∧
    (tokenOk f (x.kw f) e.2.1 e.2.2 → 2 ^ 48 ≤ va → Traps i s { cause := 0x06, step := 7, sub := 1, slot := 6, addr := va, detail := 2 }) ∧
    (¬ tokenOk f (x.kw f) e.2.1 e.2.2 → needsWalk x va = false → va < 2 ^ 48 → Traps i s { cause := 0x16, step := 6, slot := 6 })

/-- R62, R284, R285: vertical FIFOs and event counters. -/
def Obligations.FifosAndEventsComplete : Prop := Claims.VerticalFifosComplete ∧ Claims.EventOperationsComplete

/-- R286 to R288: NOTIFY, LAUNCH, DECIDE and CANCEL. -/
def Obligations.NotifyAndLevelsComplete : Prop := Claims.NotifyCompletes ∧ Claims.LevelCommandsComplete

/-! Steps of the device. -/

namespace Sys2Proof.Machine.Claims

/-- A strand of the machine. -/
def OnDie (b k : Nat) : Prop := b < 96 ∧ k < 4

/-- The world is one of the 192 virtual functions. -/
def Vf (w : Nat) : Prop := 1 ≤ w ∧ w ≤ 192

/-- The slot behind slot n moves in, the bits that tell of the slot's own past staying (R40, R41); a record that reaches slot 0 waits. -/
def movedIn (t : Strand) (n : Nat) : Slot :=
  let old := Store.get t.slot n {}
  let new := if n < 3 then Store.get t.slot (n + 1) {} else {}
  { new with refused := old.refused, invalid := old.invalid, reason := old.reason, cause := old.cause
             st := if n = 0 ∧ new.st ≠ .empty then .waiting else new.st }

/-- The world is noted on the braid (R385). -/
def noteBound (b : Nat) (w : World) : World := { w with boundOn := if w.boundOn.contains b then w.boundOn else w.boundOn ++ [b] }

/-- Every start condition of R42 holds for the record in slot 0. -/
structure MayStart (s : State) (b k : Nat) : Prop where
  waits : (s.slotOf b k 0).st = .waiting
  described : (s.slotOf b k 0).desc.isSome = true
  transfers : (s.slotOf b k 0).xfers = recTokCount (s.slotOf b k 0).bind
  slabs : (s.slotOf b k 0).slabs = recSlabCount (s.slotOf b k 0).bind
  counts : barMismatch s b k (s.slotOf b k 0) = false
  barriers : barTaken s b (s.slotOf b k 0) = false
  powered : (s.braid b).logicOn = true ∧ (s.braid b).status = 0
  whole : ∀ u ∈ (s.braid b).underRepair, repairHolds k u = false

/-- A move of a whole token by the holder meets R85, R89 to R91, R96 and R98: the entry it finds, and nothing in its way. -/
structure MayMove (s : State) (q : TokArgs) (u : Token) : Prop where
  aligned : q.badAlign = false
  found : s.tokenExact q.base q.log2 = some u
  idle : s.tokenBusy q = false
  own : s.otherArm q u = false
  met : tokenRequires s q u = 0
  may : s.recipientStatus u.world q.agent = 0
  room : s.roomFor [q.agent] u.world = true

/-- A packet stands n-th, and none before it on its route, in its network and lane (R127). -/
def At (s : State) (n : Nat) (p : Packet) : Prop := s.packets[n]? = some p ∧ p.delivered = false ∧ s.behindPacket n p = false

/-- A delivered packet stands n-th. -/
def Stands (s : State) (n : Nat) (p : Packet) : Prop := s.packets[n]? = some p ∧ p.delivered = true

/-- The packet goes on, or is one that waits for its step where it is delivered. -/
def GoesOn (q : Packet) : Prop := q.delivered = false ∨ (5 ≤ q.kind ∧ (q.kind = 8 → q.owner.isSome = true))

end Sys2Proof.Machine.Claims

/-- R40, R41, R55: a commit of a valid record to the lowest empty slot makes it wait there, or, its world being switched out, in the world's saved context;
one to another slot, or a withdraw of slot 0 or of an empty slot, shows REFUSED; an invalid record shows INVALID with its reason; a withdraw moves the records
above down and clears REFUSED; a resume runs a frozen unit on at its position; a rerun and a cancel take only a unit that is there, and a cancel of a unit
that a trap froze cancels its launch. -/
def Sys2Proof.Machine.Claims.SlotCommandsComplete : Prop :=
  (∀ b k n r d s, OnDie b k → n < 4 → (s.braid b).status = 0 → s.switchedOut (partOf b) (recWorld r) = false → (s.slotOf b k n).st = .empty →
    (∀ i < n, (s.slotOf b k i).st ≠ .empty) → commitReason s b r = .ok d → (s.world (recWorld r)).tearing = false →
    exec (.slotCommit b k n r) s = .next ((s.modSlot b k n fun z => { st := .waiting, bind := setBit r 122 (bufBit s (partOf b) r), desc := some d, cause := z.cause }).modWorld
      (recWorld r) (noteBound b))) ∧
  (∀ b k n r d s, OnDie b k → n < 4 → (s.braid b).status = 0 → s.switchedOut (partOf b) (recWorld r) = true → s.outTaken b k (recWorld r) n = false →
    (∀ i < n, s.outTaken b k (recWorld r) i = true) → commitReason s b r = .ok d → (s.world (recWorld r)).tearing = false → ∃ i : Image,
    exec (.slotCommit b k n r) s = .next ({ s with images := s.images ++ [i] }.modWorld (recWorld r) (noteBound b)) ∧ i.evicted = true ∧ i.slotNo = n ∧ i.braid = b ∧
      i.strand = k ∧ i.world = recWorld r ∧ i.slot = { st := .waiting, bind := setBit r 122 (bufBit s (partOf b) r), desc := some d }) ∧
  (∀ b k n r s, OnDie b k → n < 4 → (s.braid b).status = 0 → s.switchedOut (partOf b) (recWorld r) = false →
    ((s.slotOf b k n).st ≠ .empty ∨ ∃ i < n, (s.slotOf b k i).st = .empty) →
    exec (.slotCommit b k n r) s = .next (s.modSlot b k n fun z => { z with refused := true })) ∧
  (∀ b k n r e s, OnDie b k → n < 4 → (s.braid b).status = 0 → s.switchedOut (partOf b) (recWorld r) = false → (s.slotOf b k n).st = .empty →
    (∀ i < n, (s.slotOf b k i).st ≠ .empty) → commitReason s b r = .error e →
    exec (.slotCommit b k n r) s = .next (s.modSlot b k n fun z => { z with refused := false, invalid := true, reason := e })) ∧
  (∀ b k n s, OnDie b k → 1 ≤ n → n < 4 → (s.slotOf b k n).st ≠ .empty → ∃ t, exec (.slotWithdraw b k n) s = .next t ∧
    t.slotOf b k n = { movedIn ((discardPreload s b k n).strand b k) n with refused := false } ∧
    (∀ m, n < m → m < 4 → t.slotOf b k m = movedIn ((discardPreload s b k n).strand b k) m) ∧ (∀ m < n, t.slotOf b k m = s.slotOf b k m) ∧ t.mem = s.mem) ∧
  (∀ b k n s, OnDie b k → n < 4 → (n = 0 ∨ (s.slotOf b k n).st = .empty) →
    exec (.slotWithdraw b k n) s = .next (s.modSlot b k n fun z => { z with refused := true })) ∧
  (∀ b k pc s, OnDie b k → (s.slotOf b k 0).st = .frozen → (s.slotOf b k 0).saved = false → resumeAt s b (s.strand b k) = some pc →
    (s.strand b k).pendBrk = none → (s.strand b k).savedCmds = [] → (s.strand b k).c.leaseHas = false → (s.braid b).cmds = [] → ∃ t, exec (.slotResume b k 0) s = .next t ∧
      (t.slotOf b k 0).st = .running ∧ (t.slotOf b k 0).refused = false ∧ (t.strand b k).c = { (s.strand b k).c with pc := pc } ∧ (t.strand b k).r = (s.strand b k).r ∧
      t.mem = s.mem) ∧
  (∀ b k n s, OnDie b k → n < 4 → (n ≠ 0 ∨ (s.slotOf b k 0).st ≠ .frozen) →
    exec (.slotResume b k n) s = .next (s.modSlot b k n fun z => { z with refused := true }) ∧
    exec (.slotRerun b k n) s = .next (s.modSlot b k n fun z => { z with refused := true })) ∧
  (∀ b k s, OnDie b k → (s.slotOf b k 0).st = .frozen → ∃ t, exec (.slotRerun b k 0) s = .next t ∧
    (t.slotOf b k 0).st = .waiting ∧ (t.slotOf b k 0).bind = (s.slotOf b k 0).bind ∧ (t.slotOf b k 0).desc = (s.slotOf b k 0).desc ∧ (t.slotOf b k 0).xfers = 0 ∧
    (t.slotOf b k 0).slabs = 0 ∧ (t.slotOf b k 0).refused = false) ∧
  (∀ b k s, OnDie b k → ((s.slotOf b k 0).st = .running ∨ (s.slotOf b k 0).st = .frozen ∧ (s.slotOf b k 0).cause = 0) →
    exec (.slotCancel b k 0) s = .next (finishUnit (dropDep (s.modSlot b k 0 fun z => { z with refused := false }) b k) b k true)) ∧
  (∀ b k s, OnDie b k → (s.slotOf b k 0).st = .frozen → (s.slotOf b k 0).cause ≠ 0 → lvLive (s.lv (partOf b) (recLaunch (s.slotOf b k 0).bind)) = true →
    exec (.slotCancel b k 0) s = .next (((s.modSlot b k 0 fun z => { z with refused := false }).level (partOf b) [.cancel (recLaunch (s.slotOf b k 0).bind)]).modWorld
      (recWorld (s.slotOf b k 0).bind) fun w => { w with vectors := w.vectors ++ [1] })) ∧
  (∀ b k n s, OnDie b k → n < 4 → (n ≠ 0 ∨ ((s.slotOf b k 0).st ≠ .running ∧ (s.slotOf b k 0).st ≠ .frozen)) →
    exec (.slotCancel b k n) s = .next (s.modSlot b k n fun z => { z with refused := true }))

/-- R36, R42, R43, R61, R194: a record whose conditions hold starts with its unit's registers at zero, its pc at its start address and its event counter at
the transfers made; one with transfers left shows HOLD 2 or 3, one whose braid is not powered HOLD 1, and neither starts; one whose barrier counts differ
from those of another unit of its launch is refused with reason 6; a start-time lend that is taken gives the unit's agent the token and counts one transfer
more; a preload locks lines, reserves its bank with the image's bytes and makes the record ready. -/
def Sys2Proof.Machine.Claims.RecordsStart : Prop :=
  (∀ b k s, OnDie b k → MayStart s b k → (s.strand b k).lastWorld = some (recWorld (s.slotOf b k 0).bind) → ∃ t, exec (.recordStart b k) s = .next t ∧
    (t.slotOf b k 0).st = .running ∧ (t.slotOf b k 0).bind = (s.slotOf b k 0).bind ∧ (t.strand b k).c = { pc := startPc s b (s.slotOf b k 0) } ∧
    (t.strand b k).r = { ecnt := Store.set [] (recTokEvt (s.slotOf b k 0).bind) (BitVec.ofNat 32 (s.slotOf b k 0).xfers) 0 } ∧ t.mem = s.mem ∧
    t.tokens = s.tokens ∧ (t.braid b).sbuf = (s.braid b).sbuf) ∧
  (∀ b k s, OnDie b k → (s.slotOf b k 0).st = .waiting → (s.slotOf b k 0).desc.isSome = true → (s.slotOf b k 0).xfers = recTokCount (s.slotOf b k 0).bind →
    (s.slotOf b k 0).slabs = recSlabCount (s.slotOf b k 0).bind → barMismatch s b k (s.slotOf b k 0) = false → barTaken s b (s.slotOf b k 0) = false →
    (s.braid b).logicOn = false → s.holdOf b k 0 = 1 ∧ exec (.recordStart b k) s = .next s) ∧
  (∀ b k s, OnDie b k → (s.slotOf b k 0).st = .waiting → (s.slotOf b k 0).desc.isSome = true → (s.slotOf b k 0).xfers ≠ recTokCount (s.slotOf b k 0).bind →
    s.holdOf b k 0 = (if armBlocked s b k (s.slotOf b k 0) then 3 else 2) ∧ exec (.recordStart b k) s = .next s) ∧
  (∀ b k s, OnDie b k → (s.slotOf b k 0).st = .waiting → (s.slotOf b k 0).xfers = recTokCount (s.slotOf b k 0).bind →
    (s.slotOf b k 0).slabs = recSlabCount (s.slotOf b k 0).bind → barMismatch s b k (s.slotOf b k 0) = true → ∃ t, exec (.recordStart b k) s = .next t ∧
    (t.slotOf b k 0).invalid = true ∧ (t.slotOf b k 0).reason = 6) ∧
  (∀ b k s e u p (ts : List (Nat × BitVec 24 × Nat × Nat)) ds, OnDie b k → (s.slotOf b k 0).st = .waiting → (s.braid b).logicOn = true →
    tokenList s b (s.slotOf b k 0).bind = some ts → slabList s b (s.slotOf b k 0).bind = some ds → ts[(s.slotOf b k 0).xfers]? = some e → e.1 = 0 →
    translate s b (recWorld (s.slotOf b k 0).bind) e.2.2.1 = .ok p → fareHome s b (recWorld (s.slotOf b k 0).bind) (p.pa e.2.2.1) = .sent → s.isLocal e.2.1 = false →
    MayMove s (startArgs s b k (s.slotOf b k 0).bind e (p.pa e.2.2.1)) u → ∃ t v, exec (.startTransferDone b k) s = .next t ∧
      (t.slotOf b k 0).xfers = (s.slotOf b k 0).xfers + 1 ∧ t.tokenExact (p.pa e.2.2.1) e.2.2.2 = some v ∧ v.holder = agentId s.device b k ∧ v.lend = e.2.1 :: u.lend ∧
      t.mem = s.mem) ∧
  (∀ b k s t got, OnDie b k → (s.slotOf b k 1).st = .waiting → (s.slotOf b k 1).blocked = false → (s.slotOf b k 1).predone = false →
    (s.slotOf b k 0).st = .running →
    lockLines s b (preloadKey k) (recWorld (s.slotOf b k 1).bind) (linesOf ((startPc s b (s.slotOf b k 1)).toNat / 2 * 2) (1024 * dPrecode (s.slotOf b k 1).descr))
      (s.braid b) [] = (t, got) →
    ∃ u, exec (.preloadBegin b k) s = .next u ∧ u.braid b = t ∧ u.slotOf b k 1 = { s.slotOf b k 1 with st := .preloading, lines := got } ∧ u.mem = s.mem) ∧
  (∀ b k s bs, OnDie b k → let z := s.slotOf b k 1
    let n := recPbank z.bind
    z.st = .preloading → z.pad = false → dPlen z.descr ≠ 0 → n ≠ 31 → (s.braid b).bankModeOf n = 1 → (s.braid b).slabsIn n = [] →
    (s.braid b).switching n = false → s.bankReserved b n = false → s.poison = [] → s.deadChannels = [] →
    readVA s b (recWorld z.bind) (dPimage z.descr) (256 * dPlen z.descr) = .ok bs →
    ∃ t, exec (.padPreloadBegin b k) s = .next t ∧ (t.slotOf b k 1) = { z with pad := true } ∧ t.mem = s.mem ∧
      t.braid b = { (s.braid b) with pad := ({ s.braid b with pad := (s.braid b).pad.filter fun e => e.1 / 65536 != n }.padSet (65536 * n) bs).pad
                                     bankLast := Store.del (s.braid b).bankLast n }) ∧
  (∀ b k s, OnDie b k → (s.slotOf b k 1).st = .preloading → ((s.slotOf b k 1).wantsPad = false ∨ (s.slotOf b k 1).pad = true) →
    exec (.preloadDone b k) s = .next (s.modSlot b k 1 fun z => { z with st := .ready, predone := true }))

/-- R34, R46, R348: a HALT whose fence ends clean ends its unit, and one with an error pending traps with cause 0x10; a request freezes a strand at once
where it waits on a fence, a fetch, a walk or another wait of R63, and is else kept for the next place it may stop; a spent budget asks with stop code 0x80;
4,096 bundles after the request the strand freezes. -/
def Sys2Proof.Machine.Claims.UnitsEndAndStop : Prop :=
  (∀ b k s, OnDie b k → (s.strand b k).slot0.st = .running → (s.strand b k).haltWait = true → (s.strand b k).frz = none → s.quiet b k = true → (s.strand b k).pendErr = [] →
    let u := (endUnit s b k false).level (partOf b) [.child (recLaunch (s.strand b k).slot0.bind) false]
    exec (.haltComplete b k) s = .next (if (u.slotOf b k 0).blocked then preloadNow u b k else u)) ∧
  (∀ b k e es s, OnDie b k → (s.strand b k).slot0.st = .running → (s.strand b k).haltWait = true → (s.strand b k).frz = none → s.quiet b k = true →
    (s.strand b k).pendErr = e :: es → exec (.haltComplete b k) s = .next (takeTrap s b k { cause := 0x10, step := 10, detail := e })) ∧
  (∀ b k s, OnDie b k → (s.strand b k).slot0.st = .running → (s.strand b k).haltWait = false → (s.strand b k).hold = none → (s.strand b k).stalled = false →
    (s.strand b k).frz = none → (s.strand b k).preempt = none → exec (.preemptRequest b k) s = .next (s.modStrand b k fun t => { t with preempt := some (0, 0) })) ∧
  (∀ b k c n s, OnDie b k → (s.strand b k).slot0.st = .running → (s.strand b k).haltWait = false → (s.strand b k).hold = none → (s.strand b k).stalled = false →
    (s.strand b k).frz = none → (s.strand b k).preempt = some (c, n) →
    exec (.preemptRequest b k) s = .next (s.modStrand b k fun t => { t with preempt := some (c, n) })) ∧
  (∀ b k s, OnDie b k → (s.strand b k).slot0.st = .running → (s.strand b k).haltWait = true ∨ (s.strand b k).hold.isSome = true ∨ (s.strand b k).stalled = true →
    (s.strand b k).preempt = none → (s.strand b k).frz = none → (s.strand b k).awaitsLoad = false →
    ∃ t, exec (.preemptRequest b k) s = .next t ∧ (t.slotOf b k 0).st = .frozen ∧ (t.slotOf b k 0).cause = 0 ∧ (t.strand b k).c.pc = (s.strand b k).c.pc) ∧
  (∀ b k s, OnDie b k → (s.strand b k).slot0.st = .running → (s.strand b k).haltWait = false → (s.strand b k).hold = none → (s.strand b k).stalled = false →
    (s.strand b k).frz = none → (s.strand b k).preempt = none → (Store.get (s.part (partOf b)).budget (recQclass (s.strand b k).slot0.bind) 0).toNat ≠ 0 →
    (Store.get (s.part (partOf b)).budget (recQclass (s.strand b k).slot0.bind) 0).toNat * 65536 ≤ (s.strand b k).runCyc →
    exec (.budgetSpent b k) s = .next (s.modStrand b k fun t => { t with preempt := some (0x80, 0) })) ∧
  (∀ b k code n s, OnDie b k → (s.strand b k).slot0.st = .running → (s.strand b k).preempt = some (code, n) → 4096 ≤ n → code ≠ 0x80 → (s.strand b k).frz = none →
    (s.strand b k).awaitsLoad = false →
    ∃ t, exec (.preemptBundleLimit b k) s = .next t ∧ (t.slotOf b k 0).st = .frozen ∧ (t.slotOf b k 0).cause = 0 ∧ (t.strand b k).c.pc = (s.strand b k).c.pc) ∧
  (∀ b k s, OnDie b k → (s.strand b k).slot0.st ≠ .running → exec (.preemptRequest b k) s = .next s ∧ exec (.haltComplete b k) s = .next s)

namespace Sys2Proof.Machine.Claims

/-- Something on every strand of a partition. -/
def everyStrand (p : Nat) (f : State → Nat → Nat → State) (s : State) : State :=
  (braidsOf p).foldl (fun s b => (List.range 4).foldl (fun s k => f s b k) s) s

/-- The world whose turn quantum entry i is. -/
def turnWorld (s : State) (p i : Nat) : Nat := (Store.get (s.part p).quantum i 0).toNat / 2 ^ 24

/-- A braid changes world: loads of its stationary buffers end, then its banks, its slab table and its buffers are empty (R55, R70). -/
def changeBraid (s : State) (b : Nat) : State := ((List.range 2).foldl (fun s n => finishMlds s b n) s).modBraid b (·.changeWorld)

end Sys2Proof.Machine.Claims

/-- R54, R55, R57 to R60, R70, R72, R75, R228, R267, R268, R316, R325: PART_MODE takes only on an empty partition; at the end of a slice the partition's running
units are asked to stop, and once none runs every record goes out, braids with anything of another world change world, and the records of the next world in
turn come in; a free lease goes to the request arbitration picks, with its run, and clears the stationary buffers where the world changes, and a strand that
has yielded forgoes it; a command's service begins, and it ends with its bytes moved; a scoreboarded value that is there is written; a load of a stationary
buffer ends valid and counted, or failed, no earlier than its cycle; in share mode no slice ends. -/
def Obligations.SharedResourcesComplete : Prop :=
  (∀ p v s, p < 12 → (v.getLsbD 0 = (s.part p).share ∨ ∀ b ∈ braidsOf p, ∀ k < 4, ∀ e ∈ (s.strand b k).slot, e.2.st = .empty) →
    exec (.partModeWrite p v) s = .next (s.modPart p fun t => { t with share := v.getLsbD 0, modeRefused := false })) ∧
  (∀ p v s b k e, p < 12 → v.getLsbD 0 ≠ (s.part p).share → b ∈ braidsOf p → k < 4 → e ∈ (s.strand b k).slot → e.2.st ≠ .empty →
    exec (.partModeWrite p v) s = .next (s.modPart p fun t => { t with modeRefused := true })) ∧
  (∀ p s, p < 12 → (s.part p).share = true → exec (.sliceEnd p) s = .next s) ∧
  (∀ p s, p < 12 → (s.part p).share = false → let u := everyStrand p (fun s b k => preempt s b k 0) s
    (∃ b ∈ braidsOf p, ∃ k < 4, (u.slotOf b k 0).st = .running) → exec (.sliceEnd p) s = .next u) ∧
  (∀ p i s, p < 12 → (s.part p).share = false → (∀ b ∈ braidsOf p, ∀ k < 4, (s.slotOf b k 0).st ≠ .running) → Part.nextTurn s p = some i →
    let w := turnWorld s p i
    let changed := (braidsOf p).filter fun b => turnWorld s p (s.part p).turn != w || s.foreign b w
    let u := changed.foldl changeBraid (everyStrand p evictStrand s)
    exec (.sliceEnd p) s = .next (returnWorld (u.modPart p fun t => { t with turn := i }) p w (fun _ => true) fun _ _ z => !u.isQuiesced p z)) ∧
  (∀ p s, p < 12 → (s.part p).share = false → (∀ b ∈ braidsOf p, ∀ k < 4, (s.strand b k).slot = []) → (∀ i ∈ s.images, i.part ≠ p) →
    exec (.sliceEnd p) s = .next s) ∧
  (∀ b k n s, OnDie b k → 1 ≤ n → n < 4 → (s.slotOf b k 0).st = .empty → (s.slotOf b k n).st ≠ .empty → ∃ i ∈ (evictStrand s b k).images,
    i.evicted = true ∧ i.braid = b ∧ i.strand = k ∧ i.slotNo = n ∧ i.slot.bind = (s.slotOf b k n).bind) ∧
  (∀ b s q, b < 96 → (s.braid b).holder = none → (∀ n < 2, ((s.braid b).sbufOf n).st ≠ 1) → (s.braid b).leaseReqs = [q] → (s.part (partOf b)).share = false → q.strand < 4 →
    0 ∉ (s.strand b q.strand).yielded →
    ∃ t, exec (.leaseGrant b) s = .next t ∧ (t.braid b).holder = some q.strand ∧ (t.braid b).left = q.n ∧ (t.braid b).leaseReqs = [] ∧
      (t.strand b q.strand).c = { (s.strand b q.strand).c with leaseHas := true } ∧ t.mem = s.mem ∧
      (t.braid b).sbuf = if (s.braid b).leaseWorld = some (recWorld (s.strand b q.strand).slot0.bind) then (s.braid b).sbuf else []) ∧
  (∀ b s q, b < 96 → (s.braid b).holder = none → (∀ n < 2, ((s.braid b).sbufOf n).st ≠ 1) → (s.braid b).leaseReqs = [q] → (s.part (partOf b)).share = false → q.strand < 4 →
    0 ∈ (s.strand b q.strand).yielded → exec (.leaseGrant b) s = .next (s.modStrand b q.strand fun t => { t with yielded := t.yielded.filter (· != 0) })) ∧
  (∀ b s, b < 96 → (s.braid b).leaseFree = false → exec (.leaseGrant b) s = .next s) ∧
  (∀ b s c, b < 96 → (s.braid b).cmds = [c] → c.op = 7 → c.acc = true → c.begun = false → c.sent = false → c.entry = none →
    exec (.engineServiceGrant b 4) s = .next (s.putCmd b { c with begun := true })) ∧
  (∀ b s c, b < 96 → (s.braid b).cmds = [c] → c.op = 1 → c.acc = true → c.begun = false → c.sent = false → c.entry = none → (s.part (partOf b)).share = false →
    c.strand < 4 → 1 ∉ (s.strand b c.strand).yielded →
    ∃ t, exec (.engineServiceGrant b 0) s = .next t ∧ (t.braid b).cmds = [{ c with begun := true }] ∧ t.mem = s.mem ∧ t.strands = s.strands) ∧
  (∀ b g s c t, b < 96 → g < 10 → g ≠ 2 → ((s.braid b).cmds.find? fun c => c.engine == g && g != 2 && c.begun && c.entry.isNone && !c.sent) = some c →
    runCmd false c.fuel s b c = (t, none) → exec (.engineCommandEnd b g) s = .next t) ∧
  (∀ b g s c u m, b < 96 → g < 10 → g ≠ 2 → ((s.braid b).cmds.find? fun c => c.engine == g && g != 2 && c.begun && c.entry.isNone && !c.sent) = some c → c.op ≠ 3 → c.op ≠ 35 →
    c.done < c.total → portionOf s b c = .ok (u, m) → c.total ≤ c.done + m → exec (.engineCommandEnd b g) s = .next (endCmd u b { c with done := c.done + m } 0 0)) ∧
  (∀ b g s c, b < 96 → g < 10 → g ≠ 2 → ((s.braid b).cmds.find? fun c => c.engine == g && g != 2 && c.begun && c.entry.isNone && !c.sent) = some c → c.op ≠ 3 → c.op ≠ 35 →
    c.total ≤ c.done → exec (.engineCommandEnd b g) s = .next (endCmd s b c 0 0)) ∧
  (∀ b k n s v, OnDie b k → (s.strand b k).sbd[n]? = some v → v.tok = none → v.req = none → v.early ≤ (s.strand b k).clk → (s.strand b k).frz = none →
    exec (.scoreboardArrival b k n) s = .next (s.modStrand b k fun t => v.effs.foldl Strand.landEff { t with sbd := t.sbd.eraseIdx n })) ∧
  (∀ b k n s v, OnDie b k → (s.strand b k).sbd[n]? = some v → (v.tok.isSome = true ∨ v.req.isSome = true ∨ (s.strand b k).clk < v.early) →
    exec (.scoreboardArrival b k n) s = .next s) ∧
  (∀ b n s, b < 96 → ((s.braid b).sbufOf n).st = 1 → ((s.braid b).sbufOf n).due ≤ braidClk s b →
    let f := (s.braid b).sbufOf n
    let u := s.setBraid b { s.braid b with sbuf := Store.put (s.braid b).sbuf n { f with st := if f.good then 2 else 3 } }
    exec (.mldsLoadDone b n) s = .next (if f.good then u.modPair f.world f.region fun p => { p with loads := p.loads + 50688 } else u)) ∧
  (∀ b n s, b < 96 → braidClk s b < ((s.braid b).sbufOf n).due → exec (.mldsLoadDone b n) s = .next s)

/-- R23 to R28, R47, R68, R69, R81 to R83, R246, R357, R363, R405, R407, R417, R418: the registers of a braid, of a partition and of a world, as the window, the
management cores and a debugger write them; PAIR_SYNC switches an idle pair; PWR_GATE wakes and gates domains, a request for a braid in use or outside the
partition refused; a domain that has woken is usable; BANK_MODE switches an empty PAD or FIFO bank at once and a CACHE bank when its lines are gone; an
invalidation ends with no held translation of its range; a page walk and an instruction fetch end with the translation or its fault, and the line, held. -/
def Obligations.RegistersOfTheDevice : Prop :=
  (∀ b v s, b < 96 → v.getLsbD 0 = (s.braid b).sync → exec (.pairSyncWrite b v) s = .next (s.modBraid b fun t => { t with syncRefused := false })) ∧
  (∀ b v s, b < 96 → v.getLsbD 0 ≠ (s.braid b).sync → (∃ k < 4, ∃ e ∈ (s.strand b k).slot, e.2.st ≠ .empty) →
    exec (.pairSyncWrite b v) s = .next (s.modBraid b fun t => { t with syncRefused := true })) ∧
  (∀ b v s, b < 96 → v.getLsbD 0 ≠ (s.braid b).sync → s.anyRecord b = false → s.anyRecord (partner b) = false →
    (∀ f < 4, (s.braid b).vfOf f = [] ∧ (s.braid (partner b)).vfOf f = []) → ∃ t, exec (.pairSyncWrite b v) s = .next t ∧
      (t.braid b).sync = v.getLsbD 0 ∧ (t.braid (partner b)).sync = v.getLsbD 0 ∧ (t.braid b).syncRefused = false ∧
      (v.getLsbD 0 = true → (t.braid b).mhz = min (s.braid b).mhz (s.braid (partner b)).mhz ∧ (t.braid (partner b)).mhz = (t.braid b).mhz) ∧
      t.mem = s.mem ∧ t.strands = s.strands) ∧
  (∀ b v s, b < 96 → exec (.pwrGateSelect b v) s = .next (s.modBraid b fun t =>
    { t with pwrTarget := some ((v.toNat / 2 ^ 32) % 2 ^ 7), pwrReq := v.extractLsb' 4 8 })) ∧
  (∀ b v s, b < 96 → let target := (v.toNat / 2 ^ 32) % 2 ^ 7
    (96 ≤ target → exec (.pwrGateApply b v) s = .next (s.modBraid b fun t => { t with pwrTarget := some target, pwrReq := v.extractLsb' 4 8, pwrResult := 3 })) ∧
    (target < 96 → partOf target ≠ partOf b →
      exec (.pwrGateApply b v) s = .next (s.modBraid b fun t => { t with pwrTarget := some target, pwrReq := v.extractLsb' 4 8, pwrResult := 2 })) ∧
    (target < 96 → partOf target = partOf b → s.logicInUse target = true → (s.braid target).logicOn = true → v.getLsbD 4 = false →
      exec (.pwrGateApply b v) s = .next (s.modBraid b fun t => { t with pwrTarget := some target, pwrReq := v.extractLsb' 4 8, pwrResult := 1 })) ∧
    (target < 96 → partOf target = partOf b → v.extractLsb' 4 8 = 0xFF#8 → ∃ t, exec (.pwrGateApply b v) s = .next t ∧
      (t.braid target).logicOn = (s.braid target).logicOn ∧ (t.braid target).logicWaking = !(s.braid target).logicOn ∧
      (t.braid target).bstOn = (s.braid target).bstOn ∧ (t.braid target).bstWaking = !(s.braid target).bstOn ∧
      (t.braid target).fabOn = (s.braid target).fabOn ∧ (t.braid target).fabWaking = ~~~(s.braid target).fabOn ∧
      (t.braid target).bst = (s.braid target).bst ∧ (t.braid target).held = (s.braid target).held ∧ (t.braid b).pwrResult = 0 ∧ t.strands = s.strands ∧ t.mem = s.mem) ∧
    (target < 96 → partOf target = partOf b → v.extractLsb' 4 8 = 0#8 → s.logicInUse target = false → (∀ g < 6, (s.braid target).groupUsed g = false) →
      ∃ t, exec (.pwrGateApply b v) s = .next t ∧ (t.braid target).logicOn = false ∧ (t.braid target).logicWaking = false ∧ (t.braid target).bstOn = false ∧
        (t.braid target).bstWaking = false ∧ (t.braid target).fabOn = 0 ∧ (t.braid target).fabWaking = 0 ∧ (t.braid b).pwrResult = 0 ∧ t.mem = s.mem ∧
        ((s.braid target).logicOn = true → (∀ k < 4, t.strand target k = {}) ∧ (t.braid target).bankMode = [] ∧ (t.braid target).keys = []))) ∧
  (∀ b s, b < 96 → (s.braid b).logicWaking = true →
    exec (.domainWakeDone b 0) s = .next (s.modBraid b fun t => { t.loseLogic with logicOn := true, logicWaking := false })) ∧
  (∀ b s, b < 96 → (s.braid b).bstWaking = true →
    exec (.domainWakeDone b 1) s = .next (s.modBraid b fun t => { t with bst := [], bstTag := [], bstOn := true, bstWaking := false })) ∧
  (∀ b g s, b < 96 → g < 6 → (s.braid b).fabWaking.getLsbD g = true → ∃ t, exec (.domainWakeDone b (g + 2)) s = .next t ∧ (t.braid b).fabOn.getLsbD g = true ∧
    (t.braid b).fabWaking.getLsbD g = false ∧ (∀ h < 6, h ≠ g → (t.braid b).fabOn.getLsbD h = (s.braid b).fabOn.getLsbD h) ∧ t.mem = s.mem) ∧
  (∀ b v s, b < 96 → (s.braid b).logicOn = true → let n := (v.toNat / 2 ^ 59) % 2 ^ 5
    let req := (v.toNat / 2 ^ 57) % 2 ^ 2
    (24 ≤ n → exec (.bankModeWrite b v) s = .next (s.modBraid b fun t =>
      { t with bmReq := Store.put t.bmReq 4 (v &&& 0xFFE0000000000000#64 ||| 0x000C000000000000#64) })) ∧
    (n < 24 → req = 1 ∨ req = 2 → (s.braid b).bankModeOf n = 0 → 2 < (s.braid b).cacheBanks → (s.braid b).switching n = false → s.bankReserved b n = false →
      exec (.bankModeWrite b v) s = .next (s.modBraid b fun t =>
        { t with bmReq := Store.put t.bmReq 4 (v &&& 0xFFE0000000000000#64 ||| 0x0004000000000000#64)
                 bankSw := t.bankSw ++ [{ bank := n, mode := req, evt := none }] })) ∧
    (n < 24 → req = 0 ∨ req = 2 → (s.braid b).bankModeOf n = 1 → (s.braid b).slabsIn n = [] → (s.braid b).switching n = false → s.bankReserved b n = false →
      ∃ t, exec (.bankModeWrite b v) s = .next t ∧ (t.braid b).bankModeOf n = req ∧ Store.get (t.braid b).bmReq 4 0 = v &&& 0xFFE0000000000000#64 ∧
        (∀ e ∈ (t.braid b).pad, e.1 / 65536 ≠ n) ∧ (∀ m, m ≠ n → (t.braid b).bankModeOf m = (s.braid b).bankModeOf m) ∧ t.mem = s.mem ∧ t.strands = s.strands) ∧
    (n < 24 → req = 0 ∨ req = 1 → (s.braid b).bankModeOf n = 2 → (s.braid b).fifoOf n = [] → s.fifoBusy b n = false → (s.braid b).switching n = false →
      s.bankReserved b n = false → ∃ t, exec (.bankModeWrite b v) s = .next t ∧ (t.braid b).bankModeOf n = req ∧
        Store.get (t.braid b).bmReq 4 0 = v &&& 0xFFE0000000000000#64 ∧ (∀ m, m ≠ n → (t.braid b).bankModeOf m = (s.braid b).bankModeOf m) ∧ t.mem = s.mem)) ∧
  (∀ b n w s, b < 96 → ((s.braid b).bankSw.find? (·.bank == n)) = some w → w.evt = none →
    (∀ c ∈ (s.braid b).cache, c.bank = n → c.arm = none ∧ (c.dirty = true → fare s b (s.lineWorld c.line) c.line 1 = .sent)) → ∃ t, exec (.bankSwitchDone b n) s = .next t ∧
    (t.braid b).bankModeOf n = w.mode ∧ (∀ x ∈ (t.braid b).bankSw, x.bank ≠ n) ∧ (∀ e ∈ (t.braid b).pad, e.1 / 65536 ≠ n) ∧ (∀ c ∈ (t.braid b).cache, c.bank ≠ n) ∧
    (∀ m, m ≠ n → (t.braid b).bankModeOf m = (s.braid b).bankModeOf m) ∧ t.mem = s.mem) ∧
  (∀ p v s, p < 12 → (s.part p).tlbInv.getLsbD 63 = true → v.getLsbD 0 = true → exec (.tlbInvGo p v) s = .next (s.modPart p fun t =>
    { t with tlbInv := v &&& 0x7FFFFFFFFFFF0000#64, tlbRun := v &&& 0x7FFFFFFFFFFF0000#64 })) ∧
  (∀ p v s, p < 12 → (s.part p).tlbInv.getLsbD 63 = true → v.getLsbD 0 = false → exec (.tlbInvGo p v) s = .next (s.modPart p fun t =>
    { t with tlbInv := (v &&& 0x7FFFFFFFFFFF0000#64) ||| 0x8000000000000000#64 })) ∧
  (∀ p v s, p < 12 → (s.part p).tlbInv.getLsbD 63 = false → exec (.tlbInvGo p v) s = .next (s.modPart p fun t => { t with tlbInv := v &&& 0x7FFFFFFFFFFF0000#64 })) ∧
  (∀ p s, p < 12 → (s.part p).tlbInv.getLsbD 63 = false → ∃ t, exec (.tlbInvDone p) s = .next t ∧ (t.part p).tlbInv = (s.part p).tlbInv ||| 0x8000000000000000#64 ∧
    (∀ b ∈ braidsOf p, ∀ e, e ∈ (t.braid b).tlb ↔ e ∈ (s.braid b).tlb ∧ invHits (s.part p).tlbRun e.world (e.vpage * 65536) 16 = false) ∧ t.mem = s.mem ∧
    (∀ b ∈ braidsOf p, ∀ k < 4, (t.strand b k).r = (s.strand b k).r ∧
      ∀ e ∈ (t.strand b k).mtlb, invHits (s.part p).tlbRun e.world (e.vpage * 65536) 16 = false)) ∧
  (∀ b k va e s, OnDie b k → (s.strand b k).hold = some (.walk va) → walk s b (recWorld (s.strand b k).slot0.bind) va = .ok e →
    ∃ t, exec (.pageWalkDone b k) s = .next t ∧ t.braid b = (s.braid b).tlbAdd e ∧ t.strand b k = { (s.strand b k).tlbAdd e with hold := none } ∧ t.mem = s.mem) ∧
  (∀ b k va f s, OnDie b k → (s.strand b k).hold = some (.walk va) → walk s b (recWorld (s.strand b k).slot0.bind) va = .error f →
    ∃ t, exec (.pageWalkDone b k) s = .next t ∧ t.braids = s.braids ∧ t.mem = s.mem ∧
      t.strand b k = { s.strand b k with hold := none, walked := (s.strand b k).walked ++ [va / 65536] }) ∧
  (∀ b k line s, OnDie b k → (s.strand b k).hold = some (.fetch line) →
    exec (.instructionFetchMissDone b k) s = .next ((s.modBraid b (·.icAdd (line, recWorld (s.strand b k).slot0.bind))).modStrand b k fun t => { t with hold := none })) ∧
  (∀ b s, b < 96 → exec (.shadowCntClr b) s = .next (s.modBraid b fun t => { t with shTotal := 0 })) ∧
  (∀ s, exec .errLogCellClr s = .next { s with errCell := 0 } ∧ exec .errLogXferClr s = .next { s with errXfer := 0 }) ∧
  (∀ b s, b < 96 → (s.braid b).sync = false → exec (.supplySag b) s = .next (s.modBraid b fun t => { t with sag := true }) ∧
    exec (.supplyRecovery b) s = .next (s.modBraid b fun t => { t with sag := false })) ∧
  (∀ b s, b < 96 → (s.braid b).sync = true → (∃ t, exec (.supplySag b) s = .next t ∧ (t.braid b).sag = true ∧ (t.braid (partner b)).sag = true) ∧
    ∃ t, exec (.supplyRecovery b) s = .next t ∧ (t.braid b).sag = false ∧ (t.braid (partner b)).sag = false) ∧
  (∀ u n v s, u < 384 → n < 4 → exec (.registerWrite u n v) s = .next (s.modStrand (u / 4) (u % 4) fun t =>
    { t with dbgAddr := Store.set t.dbgAddr n (v &&& 0xFFFFFFFFFFFF#64) 0 })) ∧
  (∀ w u n v s, Vf w → u < 384 → n < 8 → (s.slotOf (u / 4) (u % 4) 0).st = .empty → exec (.registerWrite (384 * w + u) n v) s = .next s) ∧
  (∀ w v s, w ≤ 192 → s.locked w = false → exec (.registerWrite w 0x41 v) s = .next (s.modWorld w fun t => { t with featMask := v.setWidth 10 })) ∧
  (∀ w n v s, Vf w → s.locked w = true → 0x40 ≤ n → n ≤ 0x45 → exec (.registerWrite w n v) s = .next s) ∧
  (∀ p i v s, p < 12 → i < 0xFFF → lvKind (s.lv p i) ≠ 0 → exec (.registerWrite p (0x1000 + i) v) s = .next (s.modLv p i fun e => setBits e 128 29 v.toNat)) ∧
  (∀ p n v s, p < 12 → n < 32 → exec (.registerWrite p (0x80 + n) v) s = .next (s.modPart p fun t => { t with quantum := Store.set t.quantum n (v.setWidth 32) 0 }))

/-- R95 to R98, R134: a token operation that reaches its home takes effect there once its unit's earlier accesses are done, and its status reaches the unit; one
that must wait is begun; a lend or gift that meets its requirements makes the recipient the holder. R76, R104, R105, R410, R411, R414 to R418, R420: an error
in a dirty line of a cache or of a slice damages its token and loses its 128 bytes, a clean one is fetched again; cell and transfer errors are logged, and a
lane that fails is spared; a register word that is lost reads zero; a key slot with a parity error is zeroised; a slab is damaged; a lost token entry is gone
and the module reports a fatal error. -/
def Sys2Proof.Machine.Claims.TransfersAndErrorsComplete : Prop :=
  (∀ n x s, s.xfers[n]? = some x → x.arm = none → x.entry = none → s.xferBehind x = false → s.xferReady x = true →
    (x.started = true ∨ fareHome s x.braid x.world x.base = .sent) → exec (.tokenTransferComplete n) s = .next (xferComplete s x)) ∧
  (∀ n x s, s.xfers[n]? = some x → x.arm = none → x.entry = none → s.xferBehind x = false → s.xferReady x = false → x.started = false →
    fareHome s x.braid x.world x.base = .sent → s.tokenBusy (x.args s.device) = false → exec (.tokenTransferComplete n) s = .next (s.putXfer { x with started := true })) ∧
  (∀ n x u s, s.xfers[n]? = some x → x.arm = none → x.entry = none → s.xferBehind x = false → s.xferReady x = true → x.op = 10 ∨ x.op = 11 →
    (x.started = true ∨ fareHome s x.braid x.world x.base = .sent) → MayMove s (x.args s.device) u → ∃ t v, exec (.tokenTransferComplete n) s = .next t ∧
      t.tokenExact x.base x.log2 = some v ∧ v.holder = x.agent ∧ v.lend = (if x.op = 10 then agentId s.device x.braid x.strand :: u.lend else u.lend) ∧
      (∀ y ∈ t.xfers, y.id ≠ x.id) ∧ t.mem = s.mem) ∧
  (∀ n x s, s.xfers[n]? = some x → (x.arm.isSome = true ∨ x.entry.isSome = true) → exec (.tokenTransferComplete n) s = .next s) ∧
  (∀ pa b s, (∀ c ∈ Store.get s.slices (homeSlice pa) [], c.line = lineOf pa → c.dirty = false ∧ c.arm = none) → exec (.uncorrectableError pa false b) s = .next s) ∧
  (∀ pa b s, b < 96 → (∀ c ∈ (s.braid b).cache, c.line = lineOf pa → c.dirty = false ∧ c.arm = none) → exec (.uncorrectableError pa true b) s = .next s) ∧
  (∀ pa b s, (∃ c ∈ Store.get s.slices (homeSlice pa) [], c.line = lineOf pa ∧ c.dirty = true) → ∃ t, exec (.uncorrectableError pa false b) s = .next t ∧
    (∀ a, t.byte a = if a / 128 = pa / 128 then 0 else s.byte a) ∧ (∀ k, s.tokenAt pa = some k → ∃ k', t.tokenAt pa = some k' ∧ k'.dmg = true) ∧ lineOf pa ∈ t.poison) ∧
  (∀ pa b s, b < 96 → (∃ c ∈ (s.braid b).cache, c.line = lineOf pa ∧ c.dirty = true) → ∃ t, exec (.uncorrectableError pa true b) s = .next t ∧
    (∀ a, t.byte a = if a / 128 = pa / 128 then 0 else s.byte a) ∧ (∀ k, s.tokenAt pa = some k → ∃ k', t.tokenAt pa = some k' ∧ k'.dmg = true) ∧ lineOf pa ∈ t.poison) ∧
  (∀ pa beat bit agents s, isDevMem pa = true → exec (.hbmEccError pa beat bit false agents) s =
    let v := hbmEvent s.errCell 1 pa 1 beat + bit % 512 * 2 ^ 7
    .next ({ s with errCell := BitVec.ofNat 64 v }.log 6 0xFF 0 0 v)) ∧
  (∀ pa beat bit agents s, isDevMem pa = true → ∃ t, exec (.hbmEccError pa beat bit true agents) s = .next t ∧
    (∀ a, t.byte a = if a / 128 = pa / 128 then 0 else s.byte a) ∧ (∀ k, s.tokenAt pa = some k → ∃ k', t.tokenAt pa = some k' ∧ k'.dmg = true)) ∧
  (∀ pa beat lane single agents s, isDevMem pa = true → lane < 528 → 32 * hbmStack pa + hbmChannel pa ∉ s.deadChannels →
    exec (.hbmParityFail pa beat lane 1 single agents) s =
    let v := hbmEvent s.errXfer 1 pa 1 beat + 2 ^ 4
    .next ({ s with errXfer := BitVec.ofNat 64 v }.log 7 0xFF 0 0 v)) ∧
  (∀ pa beat lane agents m s, isDevMem pa = true → lane < 528 → 32 * hbmStack pa + hbmChannel pa ∉ s.deadChannels →
    swapLane (Store.get s.lanes (32 * hbmStack pa + hbmChannel pa) 0) lane = some m → exec (.hbmParityFail pa beat lane 4 true agents) s =
    let v := hbmEvent s.errXfer 4 pa 2 beat + lane * 2 ^ 6 + 3 * 2 ^ 4
    .next { ({ s with errXfer := BitVec.ofNat 64 v }.log 7 0xFF 0 0 v) with lanes := Store.set s.lanes (32 * hbmStack pa + hbmChannel pa) m 0 }) ∧
  (∀ b k idx s, OnDie b k → (s.slotOf b k 0).live = true → s.isLocal (agentId s.device b k) = true → ∃ t, exec (.registerEccError b k 0 idx) s = .next t ∧
    (t.strand b k).r = { (s.strand b k).r with x := Store.del (s.strand b k).r.x idx } ∧ (t.strand b k).pendErr = (s.strand b k).pendErr ++ [s.errSeq % 65536] ∧
    t.errSeq = s.errSeq + 1 ∧ t.mem = s.mem) ∧
  (∀ b n s, b < 96 → n < 32 → exec (.keySlotParityError b n) s = .next ((s.modBraid b (·.zeroise n)).log 12 b 0 n ((s.braid b).keyOf n).world)) ∧
  (∀ b id s, b < 96 → slabSize ((s.braid b).slabOf id) ≠ 0 → exec (.slabUncorrectableError b false id) s = .next (s.modBraid b fun t => t.setSlabState id 4)) ∧
  (∀ b id s, b < 96 → (s.braid b).fifoOf id ≠ [] → exec (.slabUncorrectableError b true id) s =
    .next ((s.modBraid b fun t => { t with fifoBad := Store.put t.fifoBad id (s.errSeq % 65536) }).log 8 b 0 0xFFFFFFFF 0)) ∧
  (∀ b idx k s, b < 96 → (s.tokens.filter fun t => homeSlice t.base == b)[idx]? = some k →
    exec (.tableUncorrectableError b 0 idx) s = .next ({ s with tokens := s.tokens.erase k, fatal := true }.log 8 0xFF 0 0xFFFFFFFF k.base)) ∧
  (∀ b idx s, b < 96 → (s.braid b).status ≠ 0 →
    exec (.tableUncorrectableError b 1 idx) s = .next ((s.modBraid b fun t => { t with rb := Store.del t.rb idx }).log 8 b 0 0xFFFFFFFF 0))

/-- R119 to R129, R132, R135, R137, R281 to R283, R286, R366, R412: a packet that may go on does so by its route, a fault turns it back, a read is served at its slice;
router injection picks what waits; a packet from a peer stands at its lanyard port; a fault returned to a user route ends its command and else suspends its
entry; a message is taken by its receive, or refused NORECV; a bump reaches its unit; a lost response suspends its entry or ends a user route's command; a
suspension that lasts ends what waits on it; a flit that fails is resent, the eighth time in a row its link goes down, and a down link comes up. -/
def Obligations.NetworkStepsComplete : Prop :=
  (∀ n p q b s, At s n p → p.at_ = .router b → p.waits b = false → hopOf s p = .ok q → GoesOn q →
    exec (.packetRouterHop n) s = .next { clearCrc s p.at_ q.at_ with packets := s.packets.set n q }) ∧
  (∀ n p b s, At s n p → p.waits b = true → (∀ m r, s.packets[m]? = some r → r.waits b = true → m = n) → (s.part (partOf b)).share = false →
    (∀ c k, s.ownerCmd p = some (c, k) → 4 ∉ (s.strand b k.strand).yielded) → (s.ownerCmd p = none → 4 ∉ (s.strand b 0).yielded) → (injectNext s b).1 = some n) ∧
  (∀ n p q b s, At s n p → p.waits b = true → (injectNext s b).1 = some n → hopOf (injectNext s b).2 p = .ok q → GoesOn q →
    exec (.packetRouterHop n) s = .next { clearCrc (injectNext s b).2 p.at_ q.at_ with packets := s.packets.set n q }) ∧
  (∀ n p f h b s, At s n p → p.at_ = .router b → p.waits b = false → p.kind ≠ 8 → hopOf s p = .error (f, h) →
    exec (.packetRouterHop n) s = .next { s with packets := s.packets.set n (faultReturn p f h) }) ∧
  (∀ n p f h b s, At s n p → p.at_ = .router b → p.waits b = false → p.kind = 8 → hopOf s p = .error (f, h) →
    exec (.packetRouterHop n) s = .next ({ s with packets := s.packets.eraseIdx n }.log 10 0xFF 0 0 (p.header / 2 ^ 128))) ∧
  (∀ n p q s, At s n p → p.at_ = .hub → hopOf s p = .ok q → GoesOn q →
    exec (.packetHubHop n) s = .next { clearCrc s p.at_ q.at_ with packets := s.packets.set n q }) ∧
  (∀ n p q s, At s n p → (∀ b, p.at_ ≠ .router b) → p.at_ ≠ .hub → (∀ l, p.at_ ≠ .peer l) → hopOf s p = .ok q → GoesOn q →
    exec (.packetNodeArrive (.held n)) s = .next { clearCrc s p.at_ q.at_ with packets := s.packets.set n q }) ∧
  (∀ n p q m s, At s n p → p.at_ = .slice m → hopOf s p = .ok q → q.delivered = true → q.kind = 0 → s.deadLines false q.addr q.len = [] →
    exec (.packetNodeArrive (.held n)) s = .next { clearCrc s p.at_ q.at_ with
      packets := s.packets.eraseIdx n ++ [{ q.response with data := s.readN q.addr q.len, bad := s.poisoned q.addr q.len }] }) ∧
  (∀ n q s, n < 16 → (s.link (303 + n)).down = false → 5 ≤ q.kind → q.kind ≤ 7 → q.len ≤ 4096 → q.data.length ≤ 4096 → ∃ t p, exec (.packetNodeArrive (.inbound n q)) s = .next t ∧
    t.packets = s.packets ++ [p] ∧ p.kind = q.kind ∧ p.route = q.route ∧ p.ret = q.ret ∧ p.data = q.data ∧ p.at_ = .lanyard n ∧ p.net = false ∧ p.delivered = false ∧ t.mem = s.mem) ∧
  (∀ n p b c s, Stands s n p → p.kind = 8 → { s with packets := s.packets.eraseIdx n }.ownerCmd p = some (b, c) → c.entry = none →
    exec (.faultReturnArrive n) s = .next (endSent { s with packets := s.packets.eraseIdx n } b c 8 (p.fault * 128 + p.faultHop))) ∧
  (∀ n p b c i s, Stands s n p → p.kind = 8 → { s with packets := s.packets.eraseIdx n }.ownerCmd p = some (b, c) → c.entry = some i →
    (∀ d ∈ (s.braid b).cmds, d.op ≠ 37) → c.op ≠ 37 →
    exec (.faultReturnArrive n) s = .next ((suspendEntry { s with packets := s.packets.eraseIdx n } b i p.fault p.faultHop).putCmd b { c with sent := false })) ∧
  (∀ n p b c s u, Stands s n p → p.at_ = .router b → p.kind = 5 → s.behindMessage n p = false → (s.braid b).recvs.find? (recvMatches p) = some c → c.slabIn = none →
    c.drained = false → deliverData s b c p = (u, 0, 0, none) →
    exec (.messageArrive n) s = .next (respond ((acceptPass ((u.modBraid b fun t => { t with recvs := t.recvs.filter fun r => r.seq != c.seq }).bumpUnit b c.strand
      c.world c.evt 0 p.data.length) b).dropPacket n) p 0 0)) ∧
  (∀ n p b s, Stands s n p → p.at_ = .router b → (p.kind = 5 ∨ p.kind = 6) → s.behindMessage n p = false → (∀ c ∈ (s.braid b).recvs, recvMatches p c = false) →
    exec (.messageArrive n) s = .next (respond { s with packets := s.packets.eraseIdx n } p 12 0)) ∧
  (∀ n p b s, Stands s n p → p.at_ = .router b → p.kind = 7 →
    exec (.remoteEventBump n) s = .next (if s.hasUnit b p.strand p.world
      then respond ((s.modUnit b p.strand p.world fun t => { t with r := t.r.bumpOnly p.counter }).dropPacket n) p 0 0
      else respond { s with packets := s.packets.eraseIdx n } p 12 0)) ∧
  (∀ b n c s, b < 96 → (s.braid b).cmds = [c] → c.sent = true → c.op ≠ 37 → c.entry = some n → (∀ p ∈ s.packets, p.owner ≠ some (b, c.seq)) →
    (∀ k < 4, (s.strand b k).lostOn n = false) → s.images = [] → s.xfers = [] →
    exec (.responseTimeout b n) s = .next ((suspendEntry s b n 10 0).putCmd b { c with sent := false })) ∧
  (∀ b n k s, OnDie b k → (s.strand b k).lostOn n = true → (s.braid b).cmds = [] → ∃ t, exec (.responseTimeout b n) s = .next t ∧
    ((t.braid b).rbOf n).susp = true ∧ (t.strand b k).lostOn n = false ∧ (t.strand b k).r = (s.strand b k).r ∧ t.mem = s.mem) ∧
  (∀ b n s, b < 96 → ((s.braid b).rbOf n).susp = true → (s.braid b).cmds = [] → (∀ k < 4, (s.strand b k).frz = none) → ∃ t, exec (.suspendTimeout b n) s = .next t ∧
    (∀ k < 4, (s.strand b k).slot0.live = true → ((s.strand b k).sbd.any fun v => v.req.any fun r => r.1 == n) = true → (t.strand b k).rtTimeout = some n) ∧ t.mem = s.mem) ∧
  (∀ b n c s, b < 96 → ((s.braid b).rbOf n).susp = true → (s.braid b).cmds = [c] → c.entry = some n → c.sent = false → c.op ≠ 37 → c.op ≠ 64 →
    (∀ k < 4, (s.strand b k).sbd = [] ∧ (s.strand b k).frz = none) → s.xfers = [] → ∃ t, exec (.suspendTimeout b n) s = .next t ∧
    t.braid b = (s.braid b).dropCmd c false ∧ t.mem = s.mem) ∧
  (∀ b c s, b < 96 → (s.braid b).cmds = [c] → c.sent = true → c.op ≠ 37 → c.op ≠ 64 → c.entry = none → (∀ p ∈ s.packets, p.owner ≠ some (b, c.seq)) →
    exec (.userRouteLost b 0) s = .next (endCmd s b c 10 0)) ∧
  (∀ l s, l < 319 → (s.link l).down = false → (s.link l).crcAB < 7 →
    exec (.flitCrcFail l true) s = .next { s with links := Store.put s.links l { s.link l with crcAB := (s.link l).crcAB + 1 } }) ∧
  (∀ l s, l < 319 → (s.link l).down = false → (s.link l).crcAB = 7 → ∃ t, exec (.flitCrcFail l true) s = .next t ∧ (t.link l).down = true ∧ t.mapSeq = s.mapSeq + 2 ∧
    t.errSeq = s.errSeq + 1) ∧
  (∀ l ra rb na nb s, l < 319 → (s.link l).down = true → ra + rb = 255 → 1 ≤ na → na ≤ 4 → 1 ≤ nb → nb ≤ 4 →
    ∃ t, exec (.linkMarkUp l ra rb na nb) s = .next t ∧ t.link l = { rankAB := ra, rankBA := rb, lanesAB := na, lanesBA := nb, down := false } ∧ t.mapSeq = s.mapSeq + 2)

/-- R344, R346, R351 to R355, R358: TRAPQ_HEAD moves up to TAIL and no further; a handler's launch waits with the trap record at its sealed page; a frozen
strand's context is saved, its record staying, and a protected world's image verifies; a saved one is restored where it stood with its registers and runs on, or
is refused where its seal fails; the debugger halts, steps and resumes a unit. -/
def Sys2Proof.Machine.Claims.SavesAndDebugComplete : Prop :=
  (∀ p v s, p < 12 → (s.part p).heldRecs = [] → (v.setWidth 9 - (s.part p).head).toNat ≤ ((s.part p).tail - (s.part p).head).toNat →
    exec (.trapqHeadWrite p v) s = .next (s.modPart p fun t => { t with head := v.setWidth 9 })) ∧
  (∀ p v s, p < 12 → ((s.part p).tail - (s.part p).head).toNat < (v.setWidth 9 - (s.part p).head).toNat → exec (.trapqHeadWrite p v) s = .next (s.modPart p id)) ∧
  (∀ b k b2 k2 page s, OnDie b k → OnDie b2 k2 → ((s.slotOf b k 0).st ≠ .frozen ∨ dHandler (s.slotOf b k 0).descr = 0) → exec (.handlerLaunch b k b2 k2 page) s = .next s) ∧
  (∀ b k b2 k2 page s d r i is e, OnDie b k → OnDie b2 k2 → partOf b2 = partOf b → (s.slotOf b k 0).st = .frozen → (s.slotOf b k 0).cause ≠ 0 →
    dHandler (s.slotOf b k 0).descr ≠ 0 → (s.slotOf b2 k2 0).st = .empty → readVALE s b (recWorld (s.slotOf b k 0).bind) (dHandler (s.slotOf b k 0).descr) 64 = .ok d →
    (s.part (partOf b)).recordOf (agentId s.device b k) = some r → (s.part (partOf b)).freeLevels 1 = i :: is → launchBad d = false →
    translate s b (recWorld (s.slotOf b k 0).bind) page.toNat = .ok e → e.isSealed = true → ∃ t u, exec (.handlerLaunch b k b2 k2 page) s = .next t ∧
      u = (addLaunch s (partOf b) i (s.jobOf (partOf b) (recLaunch (s.slotOf b k 0).bind)) (recWorld (s.slotOf b k 0).bind) 1).writeN (e.pa page.toNat) (leBytes 64 r.toNat) ∧
      ∃ v bind, v = (commitSlot u b2 k2 0 bind).modSlot b2 k2 0 (fun z => { z with params := some page }) ∧ recLaunch bind = i ∧ recWorld bind = recWorld (s.slotOf b k 0).bind ∧
        ((v.slotOf b2 k2 0).st = .empty → t = v.level (partOf b) [.child i true]) ∧
        ((v.slotOf b2 k2 0).st ≠ .empty → t = v.modPart (partOf b) fun p => { p with handlers := p.handlers ++ [(i, b, k)] })) ∧
  (∀ e ∈ ([(.contextSave, false), (.streamingSave, true)] : List ((Nat → Nat → Instr) × Bool)), ∀ b k s, OnDie b k → (s.slotOf b k 0).st = .frozen → (s.slotOf b k 0).saved = false →
    ∃ t, exec (e.1 b k) s = .next t ∧ t.images = s.images ++ [mkImage s b k e.2] ∧ t.slotOf b k 0 = { s.slotOf b k 0 with saved := true } ∧ t.mem = s.mem ∧
      (t.strand b k).r = {} ∧ t.tokens = s.tokens ∧ (e.2 = true → ∀ n < 64, (mkImage s b k e.2).body.r.getX n = (s.strand b k).r.getX n) ∧
      ((s.world (recWorld (s.slotOf b k 0).bind)).ctxKey.isSome = true → (mkImage s b k e.2).verifies t = true)) ∧
  (∀ e ∈ ([.contextSave, .streamingSave] : List (Nat → Nat → Instr)), ∀ b k s, OnDie b k → (s.slotOf b k 0).st ≠ .frozen → exec (e b k) s = .next s) ∧
  (∀ n b k i pc s, OnDie b k → s.images[n]? = some i → i.evicted = false → i.slotNo = 0 → i.braid = b → i.strand = k → i.part = partOf b → (s.braid b).status = 0 →
    i.verifies s = true → imageResume s b k i = some pc → i.locks = [] → i.body.savedCmds = [] → i.body.c.leaseHas = false → i.body.pendBrk = none → (s.braid b).cmds = [] →
    ∃ t, exec (.contextRestore n b k) s = .next t ∧ (t.slotOf b k 0).st = .running ∧ (t.slotOf b k 0).saved = false ∧ (t.strand b k).r = i.body.r ∧
      (t.strand b k).c = { i.body.c with pc := pc } ∧ i ∉ t.images ∧ t.mem = s.mem) ∧
  (∀ n b k i s, OnDie b k → s.images[n]? = some i → i.evicted = false → i.slotNo = 0 → i.braid = b → i.strand = k → i.part = partOf b → (s.braid b).status = 0 →
    i.verifies s = false → exec (.contextRestore n b k) s = .next (s.modSlot b k 0 fun z => { z with refused := true })) ∧
  (∀ b k s, OnDie b k → (s.slotOf b k 0).st = .running → (s.strand b k).frz = none →
    exec (.dbgHalt b k) s = .next (freezeRec (s.modStrand b k (·.keepPosBrk)) b k { cause := 0x12, step := 0, code := 0x7FFF } none)) ∧
  (∀ b k pc s, OnDie b k → (s.slotOf b k 0).st = .frozen → (s.slotOf b k 0).saved = false → resumeAt s b (s.strand b k) = some pc →
    (s.strand b k).pendBrk = none → (s.strand b k).savedCmds = [] → (s.strand b k).c.leaseHas = false → (s.braid b).cmds = [] →
    (∃ t, exec (.dbgResume b k) s = .next t ∧ (t.slotOf b k 0).st = .running ∧ (t.strand b k).c = { (s.strand b k).c with pc := pc } ∧
      (t.strand b k).r = (s.strand b k).r ∧ t.mem = s.mem) ∧
    ∃ t, exec (.dbgStep b k) s = .next t ∧ (t.slotOf b k 0).st = .running ∧ (t.strand b k).stepOnce = true ∧ (t.strand b k).c = { (s.strand b k).c with pc := pc } ∧
      (t.strand b k).r = (s.strand b k).r ∧ t.mem = s.mem) ∧
  (∀ b k s, OnDie b k → (s.slotOf b k 0).st ≠ .running → exec (.dbgHalt b k) s = .next s) ∧
  (∀ b k s, OnDie b k → (s.slotOf b k 0).st ≠ .frozen → exec (.dbgStep b k) s = .next s ∧ exec (.dbgResume b k) s = .next (s.modSlot b k 0 fun z => { z with refused := true }))

/-- R361 to R363, R366, R367, R375, R376, R378: a function locks, runs with a context key of its own, errs and unlocks by the states of TDISP; PART_ASSIGN is refused while
the world is locked; an integrity failure of a protected world is an error; a key is installed in the lowest free slot of every named braid, or nowhere; the
declassify list takes aligned ranges once; a raised floor rises by 2^24. -/
def Sys2Proof.Machine.Claims.WorldStepsComplete : Prop :=
  (∀ w s, Vf w → (s.world w).tdisp = .unlocked → (s.world w).tearing = false → (∀ r ∈ s.finalReports, r.1 ≠ w) →
    exec (.tdispLock w true) s = .next (s.setWorld w { s.world w with tdisp := .locked, phase := 0, boundOn := [], meas := [], mchain := 0 }) ∧
    exec (.tdispLock w false) s = .next s) ∧
  (∀ w s, Vf w → (s.world w).tdisp = .locked → exec (.tdispRun w) s = .next
    { s.modWorld w fun t => { t with tdisp := .run, ctxKey := some (Config.contextKey s.freeCtr) } with freeCtr := s.freeCtr + 1 }) ∧
  (∀ w s, Vf w → (s.world w).tdisp ≠ .locked → exec (.tdispRun w) s = .next s) ∧
  (∀ w s, Vf w → (s.world w).tdisp = .locked ∨ (s.world w).tdisp = .run →
    exec (.tdispError w) s = .next (startTeardown (s.modWorld w fun t => { t with tdisp := .error }) w)) ∧
  (∀ w s, Vf w → (s.world w).tdisp = .run → exec (.ideIntegrityFail w) s = .next (startTeardown (s.modWorld w fun t => { t with tdisp := .error }) w)) ∧
  (∀ w s, Vf w → (s.world w).tdisp = .unlocked → exec (.tdispError w) s = .next s ∧ exec (.ideIntegrityFail w) s = .next s ∧ exec (.tdispUnlock w) s = .next s) ∧
  (∀ w s, Vf w → (s.world w).tdisp ≠ .unlocked → (s.world w).tearing = false → exec (.tdispUnlock w) s = .next (s.setWorld w { s.world w with tdisp := .unlocked })) ∧
  (∀ w s, Vf w → (s.world w).tdisp = .error → (s.world w).tearing = true → exec (.tdispUnlock w) s = .next s) ∧
  (∀ w v s, Vf w → s.locked w = true → exec (.partAssignWrite w v) s = .next { s with partRefused := s.partRefused + 1 }) ∧
  (∀ w v s, Vf w → assignRefused s w v = false →
    exec (.partAssignWrite w v) s = .next (s.modWorld w fun t => { t with partAssign := v &&& 0x8F#8, phase := 0 })) ∧
  (∀ w r m key s, (w = 0 ∨ (s.world w).tdisp ≠ .run) → w ≤ 192 → exec (.keyInstall w r m key) s = .next s) ∧
  (∀ w r b key j s, Vf w → r < 4096 → b < 96 → (s.world w).tdisp = .run → s.partitionOf w = some (partOf b) → (s.braid b).logicOn = true → (s.braid b).freeKey = some j →
    (∀ i < 32, ¬ (((s.braid b).keyOf i).valid = true ∧ ((s.braid b).keyOf i).world = w ∧ ((s.braid b).keyOf i).region = r)) → s.pair w r = none → s.pairs.length < 16384 →
    ∃ t, exec (.keyInstall w r (1 <<< b) key) s = .next t ∧ (t.braid b).keyOf j = { valid := true, key := key, region := r, world := w } ∧
      t.pairs = s.pairs ++ [{ world := w, region := r, id := s.counterId, loads := 0, steps := 0, floorLoads := firstFloor, floorSteps := firstFloor, floorFlag := false }] ∧
      t.counterId = s.counterId + 1 ∧ t.mem = s.mem) ∧
  (∀ w base l s, w ≤ 192 → 16 ≤ l → l ≤ 30 → base % 2 ^ l = 0 → s.declass.length < 4096 → (w, base, l) ∉ s.declass →
    exec (.declassifyAdd w base l) s = .next { s with declass := s.declass ++ [(w, base, l)] }) ∧
  (∀ w base l s, w ≤ 192 → exec (.declassifyRemove w base l) s = .next { s with declass := s.declass.filter (· != (w, base, l)) }) ∧
  (∀ w r s, w ≤ 192 → exec (.floorRaiseDone w r) s = .next (s.modPair w r fun p =>
    { p with floorLoads := if p.floorLoads < p.loads + 50688 then p.floorLoads + 2 ^ 24 else p.floorLoads
             floorSteps := if p.floorSteps < p.steps + 16 then p.floorSteps + 2 ^ 24 else p.floorSteps }))

/-- R365 to R372, R377 to R382: a host write that every check allows changes its bytes, a read leaves the machine as it is, and a refused one is counted; QCFG and
JCFG take only while the queue is empty and unlocked; a notify takes entries into the journal, or stops with QERR where a ring is not held; each accepted
command begins in queue order with its outcome, DENIED for a world it may not name; a launch is a job of one phase of one graph; a command whose outcome
stands completes with its journal entry and vector 0. -/
def Sys2Proof.Machine.Claims.HostStepsComplete : Prop :=
  (∀ w va d ps s, Vf w → hostRange s w va d.length true = .ok ps → (∀ p ∈ ps, hostReaches s w p.1 = true) →
    exec (.hostMemoryRequest w false va d.length (some d)) s = .next (writePieces s ps d)) ∧
  (∀ w va n ps s, Vf w → hostRange s w va n false = .ok ps → exec (.hostMemoryRequest w false va n none) s = .next s) ∧
  (∀ w va n e s, Vf w → hostRange s w va n false = .error e → exec (.hostMemoryRequest w false va n none) s = .next (s.modWorld w fun t => { t with deny := t.deny + 1 })) ∧
  (∀ w v s, w ≤ 192 → (s.world w).qhead = (s.world w).qtail → s.locked w = false → v.toNat % 16 ≤ 8 →
    exec (.qcfgWrite w true v) s = .next (s.setWorld w { s.world w with jcfg := v &&& 0x000FFFFFFFFF000F#64 }) ∧
    exec (.qcfgWrite w false v) s = .next (s.setWorld w { s.world w with qerr := false, qcfg := v &&& 0x000FFFFFFFFF000F#64 })) ∧
  (∀ w v s, w ≤ 192 → (s.world w).qhead ≠ (s.world w).qtail → exec (.qcfgWrite w true v) s = .next s) ∧
  (∀ w v s, w ≤ 192 → v.toNat % 2 ^ 12 < qSize (s.world w).qcfg → (s.world w).qerr = true →
    exec (.qtailWrite w v) s = .next (s.setWorld w { s.world w with qtail := v.toNat % 2 ^ 12 })) ∧
  (∀ w v s, w ≤ 192 → v.toNat % 2 ^ 12 < qSize (s.world w).qcfg → (s.world w).qerr = false →
    let u := s.setWorld w { s.world w with qtail := v.toNat % 2 ^ 12 }
    (ringHeld u w (s.world w).qcfg && ringHeld u w (s.world w).jcfg) = false → exec (.qtailWrite w v) s = .next (u.modWorld w fun t => { t with qerr := true })) ∧
  (∀ w v s, w ≤ 192 → v.toNat % 2 ^ 12 < qSize (s.world w).qcfg → (s.world w).qerr = false →
    let u := s.setWorld w { s.world w with qtail := v.toNat % 2 ^ 12 }
    ringHeld u w (s.world w).qcfg = true → ringHeld u w (s.world w).jcfg = true → exec (.qtailWrite w v) s = .next (takeEntries w (qSize (s.world w).qcfg) u)) ∧
  (∀ e ∈ ([(.hostLaunch, 1), (.hostGive, 2), (.hostQuiesce, 3), (.hostResume, 4), (.hostReport, 5), (.hostTeardown, 6)] : List ((Nat → Nat → Instr) × Nat)), ∀ w seq c s,
    w ≤ 192 → mayBegin s w e.2 seq = some c → cmdDenied s w c.entry = true →
    exec (e.1 w seq) s = .next (s.modCmd w seq fun c => { c with begun := true, result := some (2, 0) })) ∧
  (∀ e ∈ ([(.hostLaunch, 1, runLaunch), (.hostGive, 2, runGive), (.hostQuiesce, 3, runQuiesce), (.hostResume, 4, runResume), (.hostTeardown, 6, runTeardown)] :
      List ((Nat → Nat → Instr) × Nat × (State → Rec → State × Option (Nat × Nat)))), ∀ w seq c s, w ≤ 192 → mayBegin s w e.2.1 seq = some c → cmdDenied s w c.entry = false →
    exec (e.1 w seq) s = .next ((e.2.2 s c.entry).1.modCmd w seq fun d => { d with begun := true, result := (e.2.2 s c.entry).2 })) ∧
  (∀ w seq c s, w ≤ 192 → mayBegin s w 5 seq = some c → cmdDenied s w c.entry = false →
    exec (.hostReport w seq) s = .next ((runReport w s c.entry).1.modCmd w seq fun d => { d with begun := true, result := (runReport w s c.entry).2 })) ∧
  (∀ w seq c p ps j ph g l s, w ≤ 192 → mayBegin s w 1 seq = some c → cmdDenied s w c.entry = false → s.partitionOf (cmdWorld c.entry) = some p →
    hostRange s (cmdWorld c.entry) (cmdArg c.entry 0) 64 false = .ok ps → let d := s.readLE (ps.headD (0, 0)).1 64
    launchBad d = false → d / 2 ^ 64 % 2 ^ 24 = 1 → (s.part p).freeLevels 4 = [j, ph, g, l] → ∃ t, exec (.hostLaunch w seq) s = .next t ∧
      lvKind (t.lv p j) = 4 ∧ lvKind (t.lv p ph) = 3 ∧ lvParent (t.lv p ph) = j ∧ lvKind (t.lv p g) = 2 ∧ lvParent (t.lv p g) = ph ∧ lvTarget (t.lv p g) = 1 ∧
      lvKind (t.lv p l) = 1 ∧ lvParent (t.lv p l) = g ∧ lvTarget (t.lv p l) = 1 ∧ (∀ i ∈ [j, ph, g, l], lvState (t.lv p i) = 1 ∧ lvWorld (t.lv p i) = cmdWorld c.entry) ∧ t.mem = s.mem) ∧
  (∀ w seq c st d s, w ≤ 192 → ((s.world w).cmds.find? (·.seq == seq)) = some c → c.result = some (st, d) →
    exec (.commandComplete w seq) s = .next ((writeJournal s w c 2 st d).modWorld w fun t => { t with cmds := t.cmds.filter (·.seq != seq), vectors := t.vectors ++ [0] })) ∧
  (∀ w seq c s, w ≤ 192 → ((s.world w).cmds.find? (·.seq == seq)) = some c → c.result = none → c.begun = true → cmdOp c.entry = 3 → quiesceDone s c.entry = true →
    exec (.commandComplete w seq) s = .next ((writeJournal s w c 2 0 0).modWorld w fun t => { t with cmds := t.cmds.filter (·.seq != seq), vectors := t.vectors ++ [0] }))

/-- R51, R200, R213, R384 to R388, R403, R421: SCRUB_PROG selects a world and starts its teardown, whose context key goes; a teardown enters PHASE 2 once the world has no
record and no key slot, and PHASE 3 once all is scrubbed, with vector 2; a partition reset leaves its strands at reset; power-on keeps what flash holds and starts
held in reset on a blob it cannot use; a newer blob that verifies waits for the next boot; an object that loads is measured; a translated region enters the
cache; a graph is one more child of its phase. -/
def Obligations.TeardownsAndResetsComplete : Prop :=
  (∀ p v s, p < 12 → exec (.scrubProgSelect p v) s = .next (s.modPart p fun t => { t with scrubSel := v.toNat / 2 ^ 56 })) ∧
  (∀ p v s, p < 12 → s.assigned (v.toNat / 2 ^ 56) p = true → (s.world (v.toNat / 2 ^ 56)).tearing = false →
    exec (.scrubProgStart p v) s = .next ((s.modPart p fun t => { t with scrubSel := v.toNat / 2 ^ 56 }).modWorld (v.toNat / 2 ^ 56) fun t =>
      { t with phase := 1, ctxKey := none, listBraids := [], doneBraids := [], listRanges := [], doneGranules := [], byUnit := true })) ∧
  (∀ w s, w ≤ 192 → (s.world w).phase = 1 → (∀ p < 12, s.worldInPart p w = false) → (∀ b < 96, ∀ m < 32, ¬ (((s.braid b).keyOf m).valid = true ∧ ((s.braid b).keyOf m).world = w)) →
    (∀ q ∈ s.pairs, q.world ≠ w) → exec (.teardownPhase2 w) s = .next (s.setWorld w { s.world w with
      phase := 2, listBraids := (s.world w).boundOn, doneBraids := [],
      listRanges := (s.tokens.filter (·.world == w)).flatMap fun k => cutRange (s.world w).rings k.log2 k.base, doneGranules := [] })) ∧
  (∀ w s, w ≤ 192 → (s.world w).phase ≠ 1 → exec (.teardownPhase2 w) s = .next s) ∧
  (∀ w s, w ≤ 192 → (s.world w).phase = 2 → (s.world w).byUnit = true → (s.world w).scrubbed = true → ∃ t, exec (.teardownPhase3 w) s = .next t ∧
    (t.world w).phase = 3 ∧ (t.world w).vectors = (s.world w).vectors ++ [2] ∧ t.tokens = s.tokens.filter (fun k => !tornToken (s.world w) w k) ∧ t.mem = s.mem) ∧
  (∀ w s, w ≤ 192 → (s.world w).phase = 2 → (s.world w).byUnit = false → ∃ t, exec (.teardownPhase3 w) s = .next t ∧
    (t.world w).phase = 3 ∧ (t.world w).vectors = (s.world w).vectors ++ [2] ∧ t.tokens = s.tokens.filter (fun k => !tornToken (s.world w) w k) ∧
    (∀ r ∈ (s.world w).listRanges, ∀ a, r.1 ≤ a → a < r.1 + 2 ^ r.2 → t.byte a = 0)) ∧
  (∀ p s, p < 12 → ∃ t, exec (.partitionReset p) s = .next t ∧ (∀ b ∈ braidsOf p, ∀ k < 4, t.strand b k = {}) ∧ t.part p = { scrubSel := (s.part p).scrubSel } ∧
    (∀ i, i ∈ t.images ↔ i ∈ s.images ∧ i.part ≠ p) ∧ t.mem = s.mem ∧ t.tokens = s.tokens ∧ t.worlds = s.worlds) ∧
  (∀ s, ∃ t, exec .powerOn s = .next t ∧ t.strands = [] ∧ t.tokens = [] ∧
    t.bootstat = min s.bootBlob 3 ∧ t.heldInReset = decide (s.bootBlob ≠ 0) ∧
    t.cfgVersion = s.cfgNext.getD s.cfgVersion ∧ t.cfgNext = none ∧ t.flash = s.flash ∧ t.finalReports = s.finalReports ∧
    t.pairs = s.pairs.map (fun p => { p with loads := p.floorLoads, steps := p.floorSteps, floorFlag := true })) ∧
  (∀ m n s, exec (.configUpdate true m n) s = .next (if s.cfgVersion < n then { s with cfgNext := some n, bootBlob := m } else { s with bootstat := 4, bootBlob := m }) ∧
    exec (.configUpdate false m n) s = .next { s with bootstat := 4, bootBlob := m }) ∧
  (∀ p w base o s, p < 12 → w ≤ 192 → s.assigned w p = true → let out := loadObject s p w base o
    let u := out.2.2.modPart p fun t => { t with loaded := some (out.1, out.2.1) }
    exec (.aidinLoad p w base o) s = .next (if out.1 ≠ 0 then u else u.modWorld w fun t => { t with
      meas := t.meas ++ [sha384 o], mchain := sha384 (beBytes 48 t.mchain.toNat ++ beBytes 48 (sha384 o).toNat) })) ∧
  (∀ p w code region e h s, p < 12 → w ≤ 192 → walkPlain s w (region.toNat / 65536 * 65536) = .ok e →
    readVALE s ((braidsOf p).headD 0) w (region.toNat / 65536 * 65536) 64 = .ok h → e.isSealed = true → e.x = true → h / 2 ^ 192 % 2 ^ 48 = code.toNat →
    1 ≤ h / 2 ^ 128 % 65536 → h / 2 ^ 128 % 65536 ≤ 2046 → (∃ c ∈ s.compute p, (s.braid c).sig = BitVec.ofNat 64 h) →
    exec (.nativeTranslate p w code region []) s = .next (s.modPart p fun t =>
      { t with tcache := t.tcache.filter (fun c => !(c.1 == code.toNat && c.2.1 == w && c.2.2.1 == BitVec.ofNat 64 h)) ++
        [(code.toNat, w, BitVec.ofNat 64 h, region.toNat / 65536 * 65536)] })) ∧
  (∀ p parent nodes s, p < 12 → (lvKind (s.lv p parent) ≠ 3 ∨ lvState (s.lv p parent) ≠ 1 ∨ graphOk nodes = false) → exec (.graphSubmit p parent nodes) s = .next s) ∧
  (∀ p parent n g l s, p < 12 → 1 ≤ n → n < 2 ^ 24 → lvKind (s.lv p parent) = 3 → lvState (s.lv p parent) = 1 → (s.part p).freeLevels 2 = [g, l] → g ≠ parent → l ≠ parent → g ≠ l →
    let node : GraphNode := { decision := false, count := n, preds := [], link := 0, arm0 := 0, arm1 := 0 }
    ∃ t, exec (.graphSubmit p parent [node]) s = .next t ∧ lvKind (t.lv p g) = 2 ∧ lvState (t.lv p g) = 1 ∧ lvTarget (t.lv p g) = 1 ∧ lvParent (t.lv p g) = parent % 4096 ∧
      lvKind (t.lv p l) = 1 ∧ lvState (t.lv p l) = 1 ∧ lvTarget (t.lv p l) = n ∧ lvParent (t.lv p l) = g % 4096 ∧
      t.lv p parent = setBits (s.lv p parent) 104 24 (lvTarget (s.lv p parent) + 1))

/-- R397, R399, R404 to R409: a splice request is answered with its outcome in the log and in its counter; a test slice that passes moves INDEX on; a
detection is counted, and the 64th within 2^32 cycles nominates its unit; a replica that warns takes 25 MHz off its braid, down to 1.2 GHz. -/
def Sys2Proof.Machine.Claims.ReliabilityStepsComplete : Prop :=
  (∀ n q s, s.spliceReqs[n]? = some q →
    let out := if q.action = 0 then spliceInstall { s with spliceReqs := s.spliceReqs.eraseIdx n } q else spliceRemove { s with spliceReqs := s.spliceReqs.eraseIdx n } q
    exec (.spliceAnswer n) s = .next ((out.2.log 3 q.target q.unit out.1 q.image).bumpUnit q.braid q.strand q.world q.evt (if out.1 = 0 then 0 else 15) out.1)) ∧
  (∀ b u l s, b < 96 → unitOk u = true → inGap s b u = true → u ∉ (s.braid b).condemned → u ∉ (s.braid b).noms → (s.braid b).iftNextUnit.toNat = u → (s.braid b).iftIndex < 47999 →
    exec (.iftSlice b u true l) s = .next (s.modBraid b fun t => { t with iftIndex := t.iftIndex + 1, iftNextUnit := Config.sliceUnit (t.iftIndex + 1) })) ∧
  (∀ b i l s, b < 96 → i < 96 → (256 + i) ∉ (s.braid b).condemned → (256 + i) ∉ (s.braid b).noms →
    exec (.iftSlice b (256 + i) true l) s = .next (s.modBraid b (·.nextSlice))) ∧
  (∀ b u l s, b < 96 → unitOk u = true → inGap s b u = true → u ∉ (s.braid b).condemned → u ∈ (s.braid b).noms →
    exec (.iftSlice b u true l) s = .next (s.modBraid b fun t => { t with noms := t.noms.filter (· != u), shCount := Store.del t.shCount u })) ∧
  (∀ b u l s, b < 96 → unitOk u = true → inGap s b u = true → u ∉ (s.braid b).condemned → u ∉ (s.braid b).noms → (s.braid b).iftNextUnit.toNat = u →
    exec (.iftSlice b u false l) s = .next (condemn (s.modBraid b (·.nextSlice)) b u (s.braid b).iftIndex l)) ∧
  (∀ b s, b < 96 → (∀ k < 4, (s.slotOf b k 0).st ≠ .running) → exec (.iftGapTimeout b) s = .next (s.modBraid b (·.nextSlice))) ∧
  (∀ b k s, OnDie b k → (s.slotOf b k 0).st = .running → repairHolds k (s.braid b).iftNextUnit.toNat = true → (s.braid b).iftNextUnit.toNat < 0x40 →
    (s.strand b k).awaitsLoad = true → exec (.iftGapTimeout b) s = .next s) ∧
  (∀ b u s, b < 96 → unitOk u = true → (Store.get (s.braid b).shCount u []).length < 63 → (s.braid b).shTotal ≠ BitVec.allOnes 32 →
    exec (.shadowDetect b u) s = .next (s.modBraid b fun t => { t with
      shTotal := t.shTotal + 1, shLast := BitVec.ofNat 8 u,
      shCount := Store.put t.shCount u (braidClk s b :: Store.get t.shCount u []) })) ∧
  (∀ b s, b < 96 → 1225 ≤ (s.braid b).mhz → (s.braid b).sync = false →
    exec (.replicaWarn b) s = .next ((s.modBraid b fun t => { t with mhz := t.mhz - 25 }).log 5 b 0 0 ((s.braid b).mhz - 25)))

/-- R36 to R43: slot commands, and the start of a unit. -/
def Obligations.SlotsAndStartsComplete : Prop := Claims.SlotCommandsComplete ∧ Claims.RecordsStart

/-- R34, R46, R344 to R358: units end, freeze, are saved, restored and debugged. -/
def Obligations.StopsSavesAndDebugComplete : Prop := Claims.UnitsEndAndStop ∧ Claims.SavesAndDebugComplete

/-- R95, R96, R397 to R418: token transfers, errors, self test and repair. -/
def Obligations.TransfersAndErrorsComplete : Prop := Claims.TransfersAndErrorsComplete ∧ Claims.ReliabilityStepsComplete

/-- R361 to R382: worlds, the host port and its queue. -/
def Obligations.WorldAndHostStepsComplete : Prop := Claims.WorldStepsComplete ∧ Claims.HostStepsComplete

/-! The machine as a whole. -/

namespace Sys2Proof.Machine.Claims

/-- The predicate field of an operation at its place in the slot's word (R163, R174 to R181). -/
def predField (i : Instr) : Nat :=
  match i.slot with
  | some 0 => encodeNat i / 2 ^ 15 % 8
  | some 3 | some 5 | some 7 => encodeNat i / 2 ^ 24 % 8
  | _ => encodeNat i / 2 ^ 23 % 8

/-- BRN branches where its predicate is false, and SEL selects by it (R215, R238). -/
def readsPredicate : Instr → Bool
  | .brn _ | .sel _ => true
  | _ => false

/-- A dense block's tag for one operation in slot k, with or without a long immediate (R197). -/
def tagOf (k : Nat) (long : Bool) : BitVec 32 := BitVec.ofNat 32 (k + if long then 8 * (k + 1) + 2 ^ 25 else 0)

/-- Words, slots, long immediates and what they mean, each written out from the encodings of R163 to R181. -/
def sampleWords : List (Nat × BitVec 32 × Option (BitVec 32) × Instr) := [
  (0, 0x003C0000#32, none, .halt { pred := 0 }),
  (0, 0x0028190C#32, none, .loopr { pred := 0, cnt := .reg 50, len := 12 }),
  (1, 0x08050501#32, none, .addi { sl := .A, pred := 0, ws := false, dst := 5, a := .reg 5, imm := 1, lng := none }),
  (2, 0x10050102#32, none, .mul { sl := .B, pred := 0, ws := false, dst := 5, a := .reg 1, b := .reg 2, lng := none }),
  (1, 0x04030100#32, some 0x000186A0#32, .add { sl := .A, pred := 0, ws := false, dst := 3, a := .reg 1, b := .reg 0, lng := some 0x000186A0 }),
  (3, 0x38010082#32, none, .ld64 { pred := 0, cls := 0, dst := 4, base := .reg 2, off := 2, lng := none }),
  (4, 0x1040C482#32, none, .vfma { pred := 0, row := 16, td := 3, ta := 1, tb := 2, ty := 0, msk := 1 }),
  (5, 0x08400000#32, none, .mlease { pred := 0, n := 16 }),
  (6, 0x58032003#32, none, .send { pred := 0, cls := 0, evt := 6, kb := 4, flags := 3 }),
  (7, 0x08000003#32, none, .scope { scope := 3 })]

end Sys2Proof.Machine.Claims

/-- R167: an operation whose predicate is false does nothing. Once no decode-time cause of it is left, its bundle passes in its cycles, and no
register, latch, interval, memory or other part of the machine changes. BRN and SEL read the predicate themselves. -/
def Obligations.FalsePredicateDoesNothing : Prop :=
  ∀ (i : Instr) (k : Nat) (op : Ctx → SlotOp) (s : State), i.slot = some k → slotOp i = some op → readsPredicate i = false → Quiet s →
    s.here.r.pred (predField i) = false → (op (s.ctx i)).early = [] → Effects i s k none s

/-- What the tables of R54, R67, R141, R152, R155, R220, R231, R344, R357 and R363 give for reset: every bank in CACHE mode, no unit bound, FRM,
format registers, link and trap registers and breakpoints zero, STOCH_STATE at its constant, partitions in slice mode with an empty trap queue,
TLB_INV done, rosters zero. -/
def Obligations.ResetLeavesTheStatedValues : Prop :=
  ∀ b k p w n, let s := State.reset; let t := s.strand b k
    t.r.frm = 0 ∧ t.r.stoch = 0x6D2B79F5 ∧ Store.get t.r.fmt n 0 = 0 ∧ t.c.linkBase = 0 ∧ t.c.linkLimit = 0 ∧ t.c.linkTop = 0 ∧
    t.c.trapCtl = 0 ∧ t.c.trapVec = 0 ∧ t.c.trapEpc = 0 ∧ t.c.trapCause = 0 ∧ Store.get t.dbgAddr n 0 = 0 ∧ Store.get t.dbgCtl n 0 = 0 ∧
    Store.get (s.braid b).bankMode n 0 = 0 ∧ (s.part p).share = false ∧ (s.part p).head = 0 ∧ (s.part p).tail = 0 ∧
    (s.part p).tlbInv = 0x8000000000000000 ∧ (s.world w).roster = 0

/-- The memory of the machine at reset is in canonical form (log 3). -/
def Obligations.InvariantHoldsAtReset : Prop := State.reset.Inv

/-- EVERY STEP KEEPS THE INVARIANT, from every state that has it: memory stays in its canonical form, so that equal memories are equal data. -/
def Obligations.EveryStepKeepsTheInvariant : Prop := ∀ s t : State, s.Inv → step s = .next t → t.Inv

/-- NOTHING IS REFUSED: every instruction, in every state, answers a next state; so does every step of a module that is not held in reset, and of
one that is held while its next move is named. A module held in reset with no move named stops (R421). -/
def Obligations.EveryInstructionGoesOn : Prop :=
  (∀ (i : Instr) (s : State), ∃ t, exec i s = .next t) ∧ (∀ s : State, s.heldInReset = false ∨ s.agenda ≠ [] → ∃ t, step s = .next t) ∧
  ∀ s : State, s.heldInReset = true → s.agenda = [] → step s = .fault .heldInReset

/-- A STEP RUNS THE DECODED INSTRUCTION. The schedule names a strand that is ready; its code address names the native form; no instruction
breakpoint matches; its 32 bytes are held and decode to a bundle with one operation beside no-ops: the step is that operation's meaning, in the
state whose current strand is the one named. The same in dense form, where the block is the tag and the operation's own words. -/
def Obligations.StepRunsTheDecodedInstruction : Prop :=
  ∀ (s : State) (b k : Nat) (rest : List Move) (i : Instr), s.heldInReset = false → s.agenda = .strand b k :: rest → b < 96 → k < 4 →
    let t := s.strand b k
    let w := recWorld t.slot0.bind
    t.ready = true → t.rtTimeout = none → t.instrBps t.c.pc = 0 →
    (∀ v bd, t.c.pc.getLsbD 0 = true → fetchN s b w (t.c.pc.toNat - 1) 32 = .bytes v → decodeNative (BitVec.ofNat 256 v) = .ok bd →
      bd.ops.filter (!isNop ·) = [i] → step s = exec i { s with agenda := rest, cur := (b, k) }) ∧
    ∀ tag v, t.c.pc.getLsbD 0 = false → fetchN s b w t.c.pc.toNat 4 = .bytes tag →
      fetchN s b w (t.c.pc.toNat + 4) (4 * tagCount (BitVec.ofNat 32 tag)) = .bytes v →
      decodeDense (BitVec.ofNat 32 tag) (wordsOf v (tagCount (BitVec.ofNat 32 tag))) = .ok (Bundle.single i) → isNop i = false →
      step s = exec i { s with agenda := rest, cur := (b, k) }

/-- Words of every slot, written out from the spec's encodings, decode to the instructions they stand for. -/
def Obligations.SampleWordsDecode : Prop := ∀ e ∈ sampleWords, decodeSlot e.1 e.2.1 e.2.2.1 = .ok e.2.2.2

/-- DECODING GIVES BACK WHAT WAS ENCODED: of every well-formed operation, with every operand at every value its encoding admits, in its slot; alone
in a native bundle, where the other slots decode as no-ops; and, where it reads no latch, as a dense block of its own words. A step of the device
has no encoding. -/
def Obligations.DecodeOfEncode : Prop :=
  ∀ (i : Instr) (k : Nat), i.slot = some k → i.wf = true →
    let w := BitVec.ofNat 32 (encodeNat i)
    encode i = w :: i.long.toList ∧ decodeSlot k w i.long = .ok i ∧
    (∃ bd, decodeNative (bundleOf i w) = .ok bd ∧ bd.words = 8 ∧ i ∈ bd.ops ∧ ∀ j ∈ bd.ops, j ≠ i → isNop j = true) ∧
    (i.usesLatch = false → decodeDense (tagOf k i.long.isSome) (encode i) = .ok (Bundle.single i))

/-- R170, R184: an operand that names a latch that holds no value makes the bundle of an operation that runs illegal, found at issue, in that
operation's slot; R167: of one that does not run, nothing happens. -/
def Obligations.InvalidLatchesTrap : Prop :=
  let bad := fun (i : Instr) (s : State) (os : List Operand) => ∃ o ∈ os, (s.ctx i).badLatch o = true
  let trap := fun (sl : ScalarSlot) => ({ cause := 0x01, step := 3, slot := sl.num } : Trap)
  (∀ e ∈ intR, ∀ (f : FmtAR) (s : State), Quiet s → s.here.r.pred f.pred.toNat = true → bad (e.1 f) s (f.a :: if f.lng.isSome then [] else [f.b]) →
    Traps (e.1 f) s (trap f.sl)) ∧
  (∀ e ∈ floatR, ∀ (f : FmtAR) (s : State), Quiet s → s.here.r.pred f.pred.toNat = true → bad (e.1 f) s (f.a :: if f.lng.isSome then [] else [f.b]) →
    Traps (e.1 f) s (trap f.sl)) ∧
  (∀ e ∈ intI, ∀ (f : FmtAI) (s : State), Quiet s → s.here.r.pred f.pred.toNat = true → bad (e.1 f) s [f.a] → Traps (e.1 f) s (trap f.sl)) ∧
  (∀ e ∈ intS, ∀ (f : FmtAS) (s : State), Quiet s → s.here.r.pred f.pred.toNat = true → bad (e.1 f) s [f.a] → Traps (e.1 f) s (trap f.sl)) ∧
  (∀ e ∈ intX, ∀ (f : FmtAX) (s : State), Quiet s → s.here.r.pred f.pred.toNat = true → bad (e.1 f) s [f.a, f.b] → Traps (e.1 f) s (trap f.sl)) ∧
  (∀ e ∈ fieldX, ∀ (f : FmtAX) (s : State), Quiet s → s.here.r.pred f.pred.toNat = true → bad (e.1 f) s [f.a, f.b] → Traps (e.1 f) s (trap f.sl)) ∧
  ∀ e ∈ countU, ∀ (f : FmtAU) (s : State), Quiet s → s.here.r.pred f.pred.toNat = true → bad (e.1 f) s [f.a] → Traps (e.1 f) s (trap f.sl)
end

