-- ==== Sys2Proof/Laws/Store.lean ====
section
/-!
SUPPORT. Sparse files: what a key reads after a write, and strands, braids, partitions and worlds after an update.
-/

namespace Sys2Proof.Machine

variable {V : Type}

theorem Store.get_put_self (m : Store V) (k : Nat) (v d : V) : Store.get (Store.put m k v) k d = v := by
  induction m with
  | nil => simp [Store.put, Store.get]
  | cons e t ih =>
    obtain ⟨j, w⟩ := e
    simp only [Store.put]
    split
    · simp [Store.get]
    · split
      · simp [Store.get]
      · simp [Store.get, *]

theorem Store.get_put_ne (m : Store V) {k j : Nat} (h : j ≠ k) (v d : V) : Store.get (Store.put m k v) j d = Store.get m j d := by
  induction m with
  | nil => simp [Store.put, Store.get, Ne.symm h]
  | cons e t ih =>
    obtain ⟨i, w⟩ := e
    simp only [Store.put]
    split
    · next hi => subst hi; simp [Store.get, Ne.symm h]
    · split
      · simp [Store.get, Ne.symm h]
      · simp only [Store.get]; split <;> simp_all

theorem Store.get_del_self (m : Store V) (k : Nat) (d : V) : Store.get (Store.del m k) k d = d := by
  induction m with
  | nil => rfl
  | cons e t ih =>
    obtain ⟨i, w⟩ := e
    by_cases hi : i = k <;> simp_all [Store.del, Store.get]

theorem Store.get_del_ne (m : Store V) {k j : Nat} (h : j ≠ k) (d : V) : Store.get (Store.del m k) j d = Store.get m j d := by
  induction m with
  | nil => rfl
  | cons e t ih =>
    obtain ⟨i, w⟩ := e
    by_cases hi : i = k
    · subst hi; simpa [Store.del, Store.get, Ne.symm h] using ih
    · simp only [Store.del] at ih ⊢
      simp only [List.filter_cons, bne_iff_ne, ne_eq, hi, not_false_eq_true, ↓reduceIte, Store.get, ih]

theorem Store.get_set_self [DecidableEq V] (m : Store V) (k : Nat) (v d : V) : Store.get (Store.set m k v d) k d = v := by
  unfold Store.set
  split
  · next h => rw [Store.get_del_self, h]
  · exact Store.get_put_self m k v d

theorem Store.get_set_ne [DecidableEq V] (m : Store V) {k j : Nat} (h : j ≠ k) (v d e : V) : Store.get (Store.set m k v d) j e = Store.get m j e := by
  unfold Store.set
  split
  · exact Store.get_del_ne m h e
  · exact Store.get_put_ne m h v e

/-! Strands by braid and number: strand numbers are below 4. -/

@[simp] theorem State.strand_setStrand (s : State) (b k : Nat) (t : Strand) : (s.setStrand b k t).strand b k = t :=
  Store.get_put_self _ _ _ _

theorem State.strand_setStrand_ne (s : State) {b k c j : Nat} (hk : k < 4) (hj : j < 4) (h : (c, j) ≠ (b, k)) (t : Strand) :
    (s.setStrand b k t).strand c j = s.strand c j := by
  refine Store.get_put_ne _ (fun e => h ?_) _ _
  simp only [Prod.mk.injEq]
  omega

@[simp] theorem State.braid_setBraid (s : State) (b : Nat) (t : Braid) : (s.setBraid b t).braid b = t := Store.get_put_self _ _ _ _
theorem State.braid_setBraid_ne (s : State) {b c : Nat} (h : c ≠ b) (t : Braid) : (s.setBraid b t).braid c = s.braid c := Store.get_put_ne _ h _ _
@[simp] theorem State.part_setPart (s : State) (p : Nat) (t : Part) : (s.setPart p t).part p = t := Store.get_put_self _ _ _ _
theorem State.part_setPart_ne (s : State) {p q : Nat} (h : q ≠ p) (t : Part) : (s.setPart p t).part q = s.part q := Store.get_put_ne _ h _ _
@[simp] theorem State.world_setWorld (s : State) (w : Nat) (t : World) : (s.setWorld w t).world w = t := Store.get_put_self _ _ _ _
theorem State.world_setWorld_ne (s : State) {w v : Nat} (h : v ≠ w) (t : World) : (s.setWorld w t).world v = s.world v := Store.get_put_ne _ h _ _

@[simp] theorem State.strand_setBraid (s : State) (b : Nat) (t : Braid) (c j : Nat) : (s.setBraid b t).strand c j = s.strand c j := rfl
@[simp] theorem State.strand_setPart (s : State) (p : Nat) (t : Part) (c j : Nat) : (s.setPart p t).strand c j = s.strand c j := rfl
@[simp] theorem State.strand_setWorld (s : State) (w : Nat) (t : World) (c j : Nat) : (s.setWorld w t).strand c j = s.strand c j := rfl
@[simp] theorem State.braid_setStrand (s : State) (b k : Nat) (t : Strand) (c : Nat) : (s.setStrand b k t).braid c = s.braid c := rfl
@[simp] theorem State.braid_setPart (s : State) (p : Nat) (t : Part) (c : Nat) : (s.setPart p t).braid c = s.braid c := rfl
@[simp] theorem State.braid_setWorld (s : State) (w : Nat) (t : World) (c : Nat) : (s.setWorld w t).braid c = s.braid c := rfl
@[simp] theorem State.part_setStrand (s : State) (b k : Nat) (t : Strand) (p : Nat) : (s.setStrand b k t).part p = s.part p := rfl
@[simp] theorem State.part_setBraid (s : State) (b : Nat) (t : Braid) (p : Nat) : (s.setBraid b t).part p = s.part p := rfl
@[simp] theorem State.part_setWorld (s : State) (w : Nat) (t : World) (p : Nat) : (s.setWorld w t).part p = s.part p := rfl
@[simp] theorem State.world_setStrand (s : State) (b k : Nat) (t : Strand) (w : Nat) : (s.setStrand b k t).world w = s.world w := rfl
@[simp] theorem State.world_setBraid (s : State) (b : Nat) (t : Braid) (w : Nat) : (s.setBraid b t).world w = s.world w := rfl
@[simp] theorem State.world_setPart (s : State) (p : Nat) (t : Part) (w : Nat) : (s.setPart p t).world w = s.world w := rfl

end Sys2Proof.Machine
end

