-- ==== Sys2Proof/Laws/State.lean ====
section
/-!
SUPPORT. What each update of the state leaves alone, one lemma for each field, and what the changed strand, braid, partition or world reads.
-/

namespace Sys2Proof.Machine

@[simp] theorem State.setStrand_mem (s : State) (b k : Nat) (t : Strand) : (s.setStrand b k t).mem = s.mem := rfl
@[simp] theorem State.setStrand_braids (s : State) (b k : Nat) (t : Strand) : (s.setStrand b k t).braids = s.braids := rfl
@[simp] theorem State.setStrand_parts (s : State) (b k : Nat) (t : Strand) : (s.setStrand b k t).parts = s.parts := rfl
@[simp] theorem State.setStrand_worlds (s : State) (b k : Nat) (t : Strand) : (s.setStrand b k t).worlds = s.worlds := rfl
@[simp] theorem State.setStrand_tokens (s : State) (b k : Nat) (t : Strand) : (s.setStrand b k t).tokens = s.tokens := rfl
@[simp] theorem State.setStrand_xfers (s : State) (b k : Nat) (t : Strand) : (s.setStrand b k t).xfers = s.xfers := rfl
@[simp] theorem State.setStrand_packets (s : State) (b k : Nat) (t : Strand) : (s.setStrand b k t).packets = s.packets := rfl
@[simp] theorem State.setStrand_links (s : State) (b k : Nat) (t : Strand) : (s.setStrand b k t).links = s.links := rfl
@[simp] theorem State.setStrand_mapSeq (s : State) (b k : Nat) (t : Strand) : (s.setStrand b k t).mapSeq = s.mapSeq := rfl
@[simp] theorem State.setStrand_mapVa (s : State) (b k : Nat) (t : Strand) : (s.setStrand b k t).mapVa = s.mapVa := rfl
@[simp] theorem State.setStrand_device (s : State) (b k : Nat) (t : Strand) : (s.setStrand b k t).device = s.device := rfl
@[simp] theorem State.setStrand_partRefused (s : State) (b k : Nat) (t : Strand) : (s.setStrand b k t).partRefused = s.partRefused := rfl
@[simp] theorem State.setStrand_pairs (s : State) (b k : Nat) (t : Strand) : (s.setStrand b k t).pairs = s.pairs := rfl
@[simp] theorem State.setStrand_counterId (s : State) (b k : Nat) (t : Strand) : (s.setStrand b k t).counterId = s.counterId := rfl
@[simp] theorem State.setStrand_reportSeq (s : State) (b k : Nat) (t : Strand) : (s.setStrand b k t).reportSeq = s.reportSeq := rfl
@[simp] theorem State.setStrand_finalReports (s : State) (b k : Nat) (t : Strand) : (s.setStrand b k t).finalReports = s.finalReports := rfl
@[simp] theorem State.setStrand_declass (s : State) (b k : Nat) (t : Strand) : (s.setStrand b k t).declass = s.declass := rfl
@[simp] theorem State.setStrand_images (s : State) (b k : Nat) (t : Strand) : (s.setStrand b k t).images = s.images := rfl
@[simp] theorem State.setStrand_sealSeq (s : State) (b k : Nat) (t : Strand) : (s.setStrand b k t).sealSeq = s.sealSeq := rfl
@[simp] theorem State.setStrand_flash (s : State) (b k : Nat) (t : Strand) : (s.setStrand b k t).flash = s.flash := rfl
@[simp] theorem State.setStrand_spliceReqs (s : State) (b k : Nat) (t : Strand) : (s.setStrand b k t).spliceReqs = s.spliceReqs := rfl
@[simp] theorem State.setStrand_cfgVersion (s : State) (b k : Nat) (t : Strand) : (s.setStrand b k t).cfgVersion = s.cfgVersion := rfl
@[simp] theorem State.setStrand_cfgNext (s : State) (b k : Nat) (t : Strand) : (s.setStrand b k t).cfgNext = s.cfgNext := rfl
@[simp] theorem State.setStrand_bootBlob (s : State) (b k : Nat) (t : Strand) : (s.setStrand b k t).bootBlob = s.bootBlob := rfl
@[simp] theorem State.setStrand_slices (s : State) (b k : Nat) (t : Strand) : (s.setStrand b k t).slices = s.slices := rfl
@[simp] theorem State.setStrand_poison (s : State) (b k : Nat) (t : Strand) : (s.setStrand b k t).poison = s.poison := rfl
@[simp] theorem State.setStrand_walkCache (s : State) (b k : Nat) (t : Strand) : (s.setStrand b k t).walkCache = s.walkCache := rfl
@[simp] theorem State.setStrand_bootstat (s : State) (b k : Nat) (t : Strand) : (s.setStrand b k t).bootstat = s.bootstat := rfl
@[simp] theorem State.setStrand_errLog (s : State) (b k : Nat) (t : Strand) : (s.setStrand b k t).errLog = s.errLog := rfl
@[simp] theorem State.setStrand_errSeq (s : State) (b k : Nat) (t : Strand) : (s.setStrand b k t).errSeq = s.errSeq := rfl
@[simp] theorem State.setStrand_errCell (s : State) (b k : Nat) (t : Strand) : (s.setStrand b k t).errCell = s.errCell := rfl
@[simp] theorem State.setStrand_errXfer (s : State) (b k : Nat) (t : Strand) : (s.setStrand b k t).errXfer = s.errXfer := rfl
@[simp] theorem State.setStrand_lanes (s : State) (b k : Nat) (t : Strand) : (s.setStrand b k t).lanes = s.lanes := rfl
@[simp] theorem State.setStrand_deadChannels (s : State) (b k : Nat) (t : Strand) : (s.setStrand b k t).deadChannels = s.deadChannels := rfl
@[simp] theorem State.setStrand_heldInReset (s : State) (b k : Nat) (t : Strand) : (s.setStrand b k t).heldInReset = s.heldInReset := rfl
@[simp] theorem State.setStrand_fatal (s : State) (b k : Nat) (t : Strand) : (s.setStrand b k t).fatal = s.fatal := rfl
@[simp] theorem State.setStrand_serial (s : State) (b k : Nat) (t : Strand) : (s.setStrand b k t).serial = s.serial := rfl
@[simp] theorem State.setStrand_agenda (s : State) (b k : Nat) (t : Strand) : (s.setStrand b k t).agenda = s.agenda := rfl
@[simp] theorem State.setStrand_cur (s : State) (b k : Nat) (t : Strand) : (s.setStrand b k t).cur = s.cur := rfl
@[simp] theorem State.setStrand_freeCtr (s : State) (b k : Nat) (t : Strand) : (s.setStrand b k t).freeCtr = s.freeCtr := rfl

@[simp] theorem State.setBraid_mem (s : State) (b : Nat) (t : Braid) : (s.setBraid b t).mem = s.mem := rfl
@[simp] theorem State.setBraid_strands (s : State) (b : Nat) (t : Braid) : (s.setBraid b t).strands = s.strands := rfl
@[simp] theorem State.setBraid_parts (s : State) (b : Nat) (t : Braid) : (s.setBraid b t).parts = s.parts := rfl
@[simp] theorem State.setBraid_worlds (s : State) (b : Nat) (t : Braid) : (s.setBraid b t).worlds = s.worlds := rfl
@[simp] theorem State.setBraid_tokens (s : State) (b : Nat) (t : Braid) : (s.setBraid b t).tokens = s.tokens := rfl
@[simp] theorem State.setBraid_xfers (s : State) (b : Nat) (t : Braid) : (s.setBraid b t).xfers = s.xfers := rfl
@[simp] theorem State.setBraid_packets (s : State) (b : Nat) (t : Braid) : (s.setBraid b t).packets = s.packets := rfl
@[simp] theorem State.setBraid_links (s : State) (b : Nat) (t : Braid) : (s.setBraid b t).links = s.links := rfl
@[simp] theorem State.setBraid_mapSeq (s : State) (b : Nat) (t : Braid) : (s.setBraid b t).mapSeq = s.mapSeq := rfl
@[simp] theorem State.setBraid_mapVa (s : State) (b : Nat) (t : Braid) : (s.setBraid b t).mapVa = s.mapVa := rfl
@[simp] theorem State.setBraid_device (s : State) (b : Nat) (t : Braid) : (s.setBraid b t).device = s.device := rfl
@[simp] theorem State.setBraid_partRefused (s : State) (b : Nat) (t : Braid) : (s.setBraid b t).partRefused = s.partRefused := rfl
@[simp] theorem State.setBraid_pairs (s : State) (b : Nat) (t : Braid) : (s.setBraid b t).pairs = s.pairs := rfl
@[simp] theorem State.setBraid_counterId (s : State) (b : Nat) (t : Braid) : (s.setBraid b t).counterId = s.counterId := rfl
@[simp] theorem State.setBraid_reportSeq (s : State) (b : Nat) (t : Braid) : (s.setBraid b t).reportSeq = s.reportSeq := rfl
@[simp] theorem State.setBraid_finalReports (s : State) (b : Nat) (t : Braid) : (s.setBraid b t).finalReports = s.finalReports := rfl
@[simp] theorem State.setBraid_declass (s : State) (b : Nat) (t : Braid) : (s.setBraid b t).declass = s.declass := rfl
@[simp] theorem State.setBraid_images (s : State) (b : Nat) (t : Braid) : (s.setBraid b t).images = s.images := rfl
@[simp] theorem State.setBraid_sealSeq (s : State) (b : Nat) (t : Braid) : (s.setBraid b t).sealSeq = s.sealSeq := rfl
@[simp] theorem State.setBraid_flash (s : State) (b : Nat) (t : Braid) : (s.setBraid b t).flash = s.flash := rfl
@[simp] theorem State.setBraid_spliceReqs (s : State) (b : Nat) (t : Braid) : (s.setBraid b t).spliceReqs = s.spliceReqs := rfl
@[simp] theorem State.setBraid_cfgVersion (s : State) (b : Nat) (t : Braid) : (s.setBraid b t).cfgVersion = s.cfgVersion := rfl
@[simp] theorem State.setBraid_cfgNext (s : State) (b : Nat) (t : Braid) : (s.setBraid b t).cfgNext = s.cfgNext := rfl
@[simp] theorem State.setBraid_bootBlob (s : State) (b : Nat) (t : Braid) : (s.setBraid b t).bootBlob = s.bootBlob := rfl
@[simp] theorem State.setBraid_slices (s : State) (b : Nat) (t : Braid) : (s.setBraid b t).slices = s.slices := rfl
@[simp] theorem State.setBraid_poison (s : State) (b : Nat) (t : Braid) : (s.setBraid b t).poison = s.poison := rfl
@[simp] theorem State.setBraid_walkCache (s : State) (b : Nat) (t : Braid) : (s.setBraid b t).walkCache = s.walkCache := rfl
@[simp] theorem State.setBraid_bootstat (s : State) (b : Nat) (t : Braid) : (s.setBraid b t).bootstat = s.bootstat := rfl
@[simp] theorem State.setBraid_errLog (s : State) (b : Nat) (t : Braid) : (s.setBraid b t).errLog = s.errLog := rfl
@[simp] theorem State.setBraid_errSeq (s : State) (b : Nat) (t : Braid) : (s.setBraid b t).errSeq = s.errSeq := rfl
@[simp] theorem State.setBraid_errCell (s : State) (b : Nat) (t : Braid) : (s.setBraid b t).errCell = s.errCell := rfl
@[simp] theorem State.setBraid_errXfer (s : State) (b : Nat) (t : Braid) : (s.setBraid b t).errXfer = s.errXfer := rfl
@[simp] theorem State.setBraid_lanes (s : State) (b : Nat) (t : Braid) : (s.setBraid b t).lanes = s.lanes := rfl
@[simp] theorem State.setBraid_deadChannels (s : State) (b : Nat) (t : Braid) : (s.setBraid b t).deadChannels = s.deadChannels := rfl
@[simp] theorem State.setBraid_heldInReset (s : State) (b : Nat) (t : Braid) : (s.setBraid b t).heldInReset = s.heldInReset := rfl
@[simp] theorem State.setBraid_fatal (s : State) (b : Nat) (t : Braid) : (s.setBraid b t).fatal = s.fatal := rfl
@[simp] theorem State.setBraid_serial (s : State) (b : Nat) (t : Braid) : (s.setBraid b t).serial = s.serial := rfl
@[simp] theorem State.setBraid_agenda (s : State) (b : Nat) (t : Braid) : (s.setBraid b t).agenda = s.agenda := rfl
@[simp] theorem State.setBraid_cur (s : State) (b : Nat) (t : Braid) : (s.setBraid b t).cur = s.cur := rfl
@[simp] theorem State.setBraid_freeCtr (s : State) (b : Nat) (t : Braid) : (s.setBraid b t).freeCtr = s.freeCtr := rfl

@[simp] theorem State.setPart_mem (s : State) (p : Nat) (t : Part) : (s.setPart p t).mem = s.mem := rfl
@[simp] theorem State.setPart_strands (s : State) (p : Nat) (t : Part) : (s.setPart p t).strands = s.strands := rfl
@[simp] theorem State.setPart_braids (s : State) (p : Nat) (t : Part) : (s.setPart p t).braids = s.braids := rfl
@[simp] theorem State.setPart_worlds (s : State) (p : Nat) (t : Part) : (s.setPart p t).worlds = s.worlds := rfl
@[simp] theorem State.setPart_tokens (s : State) (p : Nat) (t : Part) : (s.setPart p t).tokens = s.tokens := rfl
@[simp] theorem State.setPart_xfers (s : State) (p : Nat) (t : Part) : (s.setPart p t).xfers = s.xfers := rfl
@[simp] theorem State.setPart_packets (s : State) (p : Nat) (t : Part) : (s.setPart p t).packets = s.packets := rfl
@[simp] theorem State.setPart_links (s : State) (p : Nat) (t : Part) : (s.setPart p t).links = s.links := rfl
@[simp] theorem State.setPart_mapSeq (s : State) (p : Nat) (t : Part) : (s.setPart p t).mapSeq = s.mapSeq := rfl
@[simp] theorem State.setPart_mapVa (s : State) (p : Nat) (t : Part) : (s.setPart p t).mapVa = s.mapVa := rfl
@[simp] theorem State.setPart_device (s : State) (p : Nat) (t : Part) : (s.setPart p t).device = s.device := rfl
@[simp] theorem State.setPart_partRefused (s : State) (p : Nat) (t : Part) : (s.setPart p t).partRefused = s.partRefused := rfl
@[simp] theorem State.setPart_pairs (s : State) (p : Nat) (t : Part) : (s.setPart p t).pairs = s.pairs := rfl
@[simp] theorem State.setPart_counterId (s : State) (p : Nat) (t : Part) : (s.setPart p t).counterId = s.counterId := rfl
@[simp] theorem State.setPart_reportSeq (s : State) (p : Nat) (t : Part) : (s.setPart p t).reportSeq = s.reportSeq := rfl
@[simp] theorem State.setPart_finalReports (s : State) (p : Nat) (t : Part) : (s.setPart p t).finalReports = s.finalReports := rfl
@[simp] theorem State.setPart_declass (s : State) (p : Nat) (t : Part) : (s.setPart p t).declass = s.declass := rfl
@[simp] theorem State.setPart_images (s : State) (p : Nat) (t : Part) : (s.setPart p t).images = s.images := rfl
@[simp] theorem State.setPart_sealSeq (s : State) (p : Nat) (t : Part) : (s.setPart p t).sealSeq = s.sealSeq := rfl
@[simp] theorem State.setPart_flash (s : State) (p : Nat) (t : Part) : (s.setPart p t).flash = s.flash := rfl
@[simp] theorem State.setPart_spliceReqs (s : State) (p : Nat) (t : Part) : (s.setPart p t).spliceReqs = s.spliceReqs := rfl
@[simp] theorem State.setPart_cfgVersion (s : State) (p : Nat) (t : Part) : (s.setPart p t).cfgVersion = s.cfgVersion := rfl
@[simp] theorem State.setPart_cfgNext (s : State) (p : Nat) (t : Part) : (s.setPart p t).cfgNext = s.cfgNext := rfl
@[simp] theorem State.setPart_bootBlob (s : State) (p : Nat) (t : Part) : (s.setPart p t).bootBlob = s.bootBlob := rfl
@[simp] theorem State.setPart_slices (s : State) (p : Nat) (t : Part) : (s.setPart p t).slices = s.slices := rfl
@[simp] theorem State.setPart_poison (s : State) (p : Nat) (t : Part) : (s.setPart p t).poison = s.poison := rfl
@[simp] theorem State.setPart_walkCache (s : State) (p : Nat) (t : Part) : (s.setPart p t).walkCache = s.walkCache := rfl
@[simp] theorem State.setPart_bootstat (s : State) (p : Nat) (t : Part) : (s.setPart p t).bootstat = s.bootstat := rfl
@[simp] theorem State.setPart_errLog (s : State) (p : Nat) (t : Part) : (s.setPart p t).errLog = s.errLog := rfl
@[simp] theorem State.setPart_errSeq (s : State) (p : Nat) (t : Part) : (s.setPart p t).errSeq = s.errSeq := rfl
@[simp] theorem State.setPart_errCell (s : State) (p : Nat) (t : Part) : (s.setPart p t).errCell = s.errCell := rfl
@[simp] theorem State.setPart_errXfer (s : State) (p : Nat) (t : Part) : (s.setPart p t).errXfer = s.errXfer := rfl
@[simp] theorem State.setPart_lanes (s : State) (p : Nat) (t : Part) : (s.setPart p t).lanes = s.lanes := rfl
@[simp] theorem State.setPart_deadChannels (s : State) (p : Nat) (t : Part) : (s.setPart p t).deadChannels = s.deadChannels := rfl
@[simp] theorem State.setPart_heldInReset (s : State) (p : Nat) (t : Part) : (s.setPart p t).heldInReset = s.heldInReset := rfl
@[simp] theorem State.setPart_fatal (s : State) (p : Nat) (t : Part) : (s.setPart p t).fatal = s.fatal := rfl
@[simp] theorem State.setPart_serial (s : State) (p : Nat) (t : Part) : (s.setPart p t).serial = s.serial := rfl
@[simp] theorem State.setPart_agenda (s : State) (p : Nat) (t : Part) : (s.setPart p t).agenda = s.agenda := rfl
@[simp] theorem State.setPart_cur (s : State) (p : Nat) (t : Part) : (s.setPart p t).cur = s.cur := rfl
@[simp] theorem State.setPart_freeCtr (s : State) (p : Nat) (t : Part) : (s.setPart p t).freeCtr = s.freeCtr := rfl

@[simp] theorem State.setWorld_mem (s : State) (w : Nat) (t : World) : (s.setWorld w t).mem = s.mem := rfl
@[simp] theorem State.setWorld_strands (s : State) (w : Nat) (t : World) : (s.setWorld w t).strands = s.strands := rfl
@[simp] theorem State.setWorld_braids (s : State) (w : Nat) (t : World) : (s.setWorld w t).braids = s.braids := rfl
@[simp] theorem State.setWorld_parts (s : State) (w : Nat) (t : World) : (s.setWorld w t).parts = s.parts := rfl
@[simp] theorem State.setWorld_tokens (s : State) (w : Nat) (t : World) : (s.setWorld w t).tokens = s.tokens := rfl
@[simp] theorem State.setWorld_xfers (s : State) (w : Nat) (t : World) : (s.setWorld w t).xfers = s.xfers := rfl
@[simp] theorem State.setWorld_packets (s : State) (w : Nat) (t : World) : (s.setWorld w t).packets = s.packets := rfl
@[simp] theorem State.setWorld_links (s : State) (w : Nat) (t : World) : (s.setWorld w t).links = s.links := rfl
@[simp] theorem State.setWorld_mapSeq (s : State) (w : Nat) (t : World) : (s.setWorld w t).mapSeq = s.mapSeq := rfl
@[simp] theorem State.setWorld_mapVa (s : State) (w : Nat) (t : World) : (s.setWorld w t).mapVa = s.mapVa := rfl
@[simp] theorem State.setWorld_device (s : State) (w : Nat) (t : World) : (s.setWorld w t).device = s.device := rfl
@[simp] theorem State.setWorld_partRefused (s : State) (w : Nat) (t : World) : (s.setWorld w t).partRefused = s.partRefused := rfl
@[simp] theorem State.setWorld_pairs (s : State) (w : Nat) (t : World) : (s.setWorld w t).pairs = s.pairs := rfl
@[simp] theorem State.setWorld_counterId (s : State) (w : Nat) (t : World) : (s.setWorld w t).counterId = s.counterId := rfl
@[simp] theorem State.setWorld_reportSeq (s : State) (w : Nat) (t : World) : (s.setWorld w t).reportSeq = s.reportSeq := rfl
@[simp] theorem State.setWorld_finalReports (s : State) (w : Nat) (t : World) : (s.setWorld w t).finalReports = s.finalReports := rfl
@[simp] theorem State.setWorld_declass (s : State) (w : Nat) (t : World) : (s.setWorld w t).declass = s.declass := rfl
@[simp] theorem State.setWorld_images (s : State) (w : Nat) (t : World) : (s.setWorld w t).images = s.images := rfl
@[simp] theorem State.setWorld_sealSeq (s : State) (w : Nat) (t : World) : (s.setWorld w t).sealSeq = s.sealSeq := rfl
@[simp] theorem State.setWorld_flash (s : State) (w : Nat) (t : World) : (s.setWorld w t).flash = s.flash := rfl
@[simp] theorem State.setWorld_spliceReqs (s : State) (w : Nat) (t : World) : (s.setWorld w t).spliceReqs = s.spliceReqs := rfl
@[simp] theorem State.setWorld_cfgVersion (s : State) (w : Nat) (t : World) : (s.setWorld w t).cfgVersion = s.cfgVersion := rfl
@[simp] theorem State.setWorld_cfgNext (s : State) (w : Nat) (t : World) : (s.setWorld w t).cfgNext = s.cfgNext := rfl
@[simp] theorem State.setWorld_bootBlob (s : State) (w : Nat) (t : World) : (s.setWorld w t).bootBlob = s.bootBlob := rfl
@[simp] theorem State.setWorld_slices (s : State) (w : Nat) (t : World) : (s.setWorld w t).slices = s.slices := rfl
@[simp] theorem State.setWorld_poison (s : State) (w : Nat) (t : World) : (s.setWorld w t).poison = s.poison := rfl
@[simp] theorem State.setWorld_walkCache (s : State) (w : Nat) (t : World) : (s.setWorld w t).walkCache = s.walkCache := rfl
@[simp] theorem State.setWorld_bootstat (s : State) (w : Nat) (t : World) : (s.setWorld w t).bootstat = s.bootstat := rfl
@[simp] theorem State.setWorld_errLog (s : State) (w : Nat) (t : World) : (s.setWorld w t).errLog = s.errLog := rfl
@[simp] theorem State.setWorld_errSeq (s : State) (w : Nat) (t : World) : (s.setWorld w t).errSeq = s.errSeq := rfl
@[simp] theorem State.setWorld_errCell (s : State) (w : Nat) (t : World) : (s.setWorld w t).errCell = s.errCell := rfl
@[simp] theorem State.setWorld_errXfer (s : State) (w : Nat) (t : World) : (s.setWorld w t).errXfer = s.errXfer := rfl
@[simp] theorem State.setWorld_lanes (s : State) (w : Nat) (t : World) : (s.setWorld w t).lanes = s.lanes := rfl
@[simp] theorem State.setWorld_deadChannels (s : State) (w : Nat) (t : World) : (s.setWorld w t).deadChannels = s.deadChannels := rfl
@[simp] theorem State.setWorld_heldInReset (s : State) (w : Nat) (t : World) : (s.setWorld w t).heldInReset = s.heldInReset := rfl
@[simp] theorem State.setWorld_fatal (s : State) (w : Nat) (t : World) : (s.setWorld w t).fatal = s.fatal := rfl
@[simp] theorem State.setWorld_serial (s : State) (w : Nat) (t : World) : (s.setWorld w t).serial = s.serial := rfl
@[simp] theorem State.setWorld_agenda (s : State) (w : Nat) (t : World) : (s.setWorld w t).agenda = s.agenda := rfl
@[simp] theorem State.setWorld_cur (s : State) (w : Nat) (t : World) : (s.setWorld w t).cur = s.cur := rfl
@[simp] theorem State.setWorld_freeCtr (s : State) (w : Nat) (t : World) : (s.setWorld w t).freeCtr = s.freeCtr := rfl

@[simp] theorem State.modStrand_mem (s : State) (b k : Nat) (f : Strand → Strand) : (s.modStrand b k f).mem = s.mem := rfl
@[simp] theorem State.modStrand_braids (s : State) (b k : Nat) (f : Strand → Strand) : (s.modStrand b k f).braids = s.braids := rfl
@[simp] theorem State.modStrand_parts (s : State) (b k : Nat) (f : Strand → Strand) : (s.modStrand b k f).parts = s.parts := rfl
@[simp] theorem State.modStrand_worlds (s : State) (b k : Nat) (f : Strand → Strand) : (s.modStrand b k f).worlds = s.worlds := rfl
@[simp] theorem State.modStrand_tokens (s : State) (b k : Nat) (f : Strand → Strand) : (s.modStrand b k f).tokens = s.tokens := rfl
@[simp] theorem State.modStrand_xfers (s : State) (b k : Nat) (f : Strand → Strand) : (s.modStrand b k f).xfers = s.xfers := rfl
@[simp] theorem State.modStrand_packets (s : State) (b k : Nat) (f : Strand → Strand) : (s.modStrand b k f).packets = s.packets := rfl
@[simp] theorem State.modStrand_links (s : State) (b k : Nat) (f : Strand → Strand) : (s.modStrand b k f).links = s.links := rfl
@[simp] theorem State.modStrand_mapSeq (s : State) (b k : Nat) (f : Strand → Strand) : (s.modStrand b k f).mapSeq = s.mapSeq := rfl
@[simp] theorem State.modStrand_mapVa (s : State) (b k : Nat) (f : Strand → Strand) : (s.modStrand b k f).mapVa = s.mapVa := rfl
@[simp] theorem State.modStrand_device (s : State) (b k : Nat) (f : Strand → Strand) : (s.modStrand b k f).device = s.device := rfl
@[simp] theorem State.modStrand_partRefused (s : State) (b k : Nat) (f : Strand → Strand) : (s.modStrand b k f).partRefused = s.partRefused := rfl
@[simp] theorem State.modStrand_pairs (s : State) (b k : Nat) (f : Strand → Strand) : (s.modStrand b k f).pairs = s.pairs := rfl
@[simp] theorem State.modStrand_counterId (s : State) (b k : Nat) (f : Strand → Strand) : (s.modStrand b k f).counterId = s.counterId := rfl
@[simp] theorem State.modStrand_reportSeq (s : State) (b k : Nat) (f : Strand → Strand) : (s.modStrand b k f).reportSeq = s.reportSeq := rfl
@[simp] theorem State.modStrand_finalReports (s : State) (b k : Nat) (f : Strand → Strand) : (s.modStrand b k f).finalReports = s.finalReports := rfl
@[simp] theorem State.modStrand_declass (s : State) (b k : Nat) (f : Strand → Strand) : (s.modStrand b k f).declass = s.declass := rfl
@[simp] theorem State.modStrand_images (s : State) (b k : Nat) (f : Strand → Strand) : (s.modStrand b k f).images = s.images := rfl
@[simp] theorem State.modStrand_sealSeq (s : State) (b k : Nat) (f : Strand → Strand) : (s.modStrand b k f).sealSeq = s.sealSeq := rfl
@[simp] theorem State.modStrand_flash (s : State) (b k : Nat) (f : Strand → Strand) : (s.modStrand b k f).flash = s.flash := rfl
@[simp] theorem State.modStrand_spliceReqs (s : State) (b k : Nat) (f : Strand → Strand) : (s.modStrand b k f).spliceReqs = s.spliceReqs := rfl
@[simp] theorem State.modStrand_cfgVersion (s : State) (b k : Nat) (f : Strand → Strand) : (s.modStrand b k f).cfgVersion = s.cfgVersion := rfl
@[simp] theorem State.modStrand_cfgNext (s : State) (b k : Nat) (f : Strand → Strand) : (s.modStrand b k f).cfgNext = s.cfgNext := rfl
@[simp] theorem State.modStrand_bootBlob (s : State) (b k : Nat) (f : Strand → Strand) : (s.modStrand b k f).bootBlob = s.bootBlob := rfl
@[simp] theorem State.modStrand_slices (s : State) (b k : Nat) (f : Strand → Strand) : (s.modStrand b k f).slices = s.slices := rfl
@[simp] theorem State.modStrand_poison (s : State) (b k : Nat) (f : Strand → Strand) : (s.modStrand b k f).poison = s.poison := rfl
@[simp] theorem State.modStrand_walkCache (s : State) (b k : Nat) (f : Strand → Strand) : (s.modStrand b k f).walkCache = s.walkCache := rfl
@[simp] theorem State.modStrand_bootstat (s : State) (b k : Nat) (f : Strand → Strand) : (s.modStrand b k f).bootstat = s.bootstat := rfl
@[simp] theorem State.modStrand_errLog (s : State) (b k : Nat) (f : Strand → Strand) : (s.modStrand b k f).errLog = s.errLog := rfl
@[simp] theorem State.modStrand_errSeq (s : State) (b k : Nat) (f : Strand → Strand) : (s.modStrand b k f).errSeq = s.errSeq := rfl
@[simp] theorem State.modStrand_errCell (s : State) (b k : Nat) (f : Strand → Strand) : (s.modStrand b k f).errCell = s.errCell := rfl
@[simp] theorem State.modStrand_errXfer (s : State) (b k : Nat) (f : Strand → Strand) : (s.modStrand b k f).errXfer = s.errXfer := rfl
@[simp] theorem State.modStrand_lanes (s : State) (b k : Nat) (f : Strand → Strand) : (s.modStrand b k f).lanes = s.lanes := rfl
@[simp] theorem State.modStrand_deadChannels (s : State) (b k : Nat) (f : Strand → Strand) : (s.modStrand b k f).deadChannels = s.deadChannels := rfl
@[simp] theorem State.modStrand_heldInReset (s : State) (b k : Nat) (f : Strand → Strand) : (s.modStrand b k f).heldInReset = s.heldInReset := rfl
@[simp] theorem State.modStrand_fatal (s : State) (b k : Nat) (f : Strand → Strand) : (s.modStrand b k f).fatal = s.fatal := rfl
@[simp] theorem State.modStrand_serial (s : State) (b k : Nat) (f : Strand → Strand) : (s.modStrand b k f).serial = s.serial := rfl
@[simp] theorem State.modStrand_agenda (s : State) (b k : Nat) (f : Strand → Strand) : (s.modStrand b k f).agenda = s.agenda := rfl
@[simp] theorem State.modStrand_cur (s : State) (b k : Nat) (f : Strand → Strand) : (s.modStrand b k f).cur = s.cur := rfl
@[simp] theorem State.modStrand_freeCtr (s : State) (b k : Nat) (f : Strand → Strand) : (s.modStrand b k f).freeCtr = s.freeCtr := rfl

@[simp] theorem State.modBraid_mem (s : State) (b : Nat) (f : Braid → Braid) : (s.modBraid b f).mem = s.mem := rfl
@[simp] theorem State.modBraid_strands (s : State) (b : Nat) (f : Braid → Braid) : (s.modBraid b f).strands = s.strands := rfl
@[simp] theorem State.modBraid_parts (s : State) (b : Nat) (f : Braid → Braid) : (s.modBraid b f).parts = s.parts := rfl
@[simp] theorem State.modBraid_worlds (s : State) (b : Nat) (f : Braid → Braid) : (s.modBraid b f).worlds = s.worlds := rfl
@[simp] theorem State.modBraid_tokens (s : State) (b : Nat) (f : Braid → Braid) : (s.modBraid b f).tokens = s.tokens := rfl
@[simp] theorem State.modBraid_xfers (s : State) (b : Nat) (f : Braid → Braid) : (s.modBraid b f).xfers = s.xfers := rfl
@[simp] theorem State.modBraid_packets (s : State) (b : Nat) (f : Braid → Braid) : (s.modBraid b f).packets = s.packets := rfl
@[simp] theorem State.modBraid_links (s : State) (b : Nat) (f : Braid → Braid) : (s.modBraid b f).links = s.links := rfl
@[simp] theorem State.modBraid_mapSeq (s : State) (b : Nat) (f : Braid → Braid) : (s.modBraid b f).mapSeq = s.mapSeq := rfl
@[simp] theorem State.modBraid_mapVa (s : State) (b : Nat) (f : Braid → Braid) : (s.modBraid b f).mapVa = s.mapVa := rfl
@[simp] theorem State.modBraid_device (s : State) (b : Nat) (f : Braid → Braid) : (s.modBraid b f).device = s.device := rfl
@[simp] theorem State.modBraid_partRefused (s : State) (b : Nat) (f : Braid → Braid) : (s.modBraid b f).partRefused = s.partRefused := rfl
@[simp] theorem State.modBraid_pairs (s : State) (b : Nat) (f : Braid → Braid) : (s.modBraid b f).pairs = s.pairs := rfl
@[simp] theorem State.modBraid_counterId (s : State) (b : Nat) (f : Braid → Braid) : (s.modBraid b f).counterId = s.counterId := rfl
@[simp] theorem State.modBraid_reportSeq (s : State) (b : Nat) (f : Braid → Braid) : (s.modBraid b f).reportSeq = s.reportSeq := rfl
@[simp] theorem State.modBraid_finalReports (s : State) (b : Nat) (f : Braid → Braid) : (s.modBraid b f).finalReports = s.finalReports := rfl
@[simp] theorem State.modBraid_declass (s : State) (b : Nat) (f : Braid → Braid) : (s.modBraid b f).declass = s.declass := rfl
@[simp] theorem State.modBraid_images (s : State) (b : Nat) (f : Braid → Braid) : (s.modBraid b f).images = s.images := rfl
@[simp] theorem State.modBraid_sealSeq (s : State) (b : Nat) (f : Braid → Braid) : (s.modBraid b f).sealSeq = s.sealSeq := rfl
@[simp] theorem State.modBraid_flash (s : State) (b : Nat) (f : Braid → Braid) : (s.modBraid b f).flash = s.flash := rfl
@[simp] theorem State.modBraid_spliceReqs (s : State) (b : Nat) (f : Braid → Braid) : (s.modBraid b f).spliceReqs = s.spliceReqs := rfl
@[simp] theorem State.modBraid_cfgVersion (s : State) (b : Nat) (f : Braid → Braid) : (s.modBraid b f).cfgVersion = s.cfgVersion := rfl
@[simp] theorem State.modBraid_cfgNext (s : State) (b : Nat) (f : Braid → Braid) : (s.modBraid b f).cfgNext = s.cfgNext := rfl
@[simp] theorem State.modBraid_bootBlob (s : State) (b : Nat) (f : Braid → Braid) : (s.modBraid b f).bootBlob = s.bootBlob := rfl
@[simp] theorem State.modBraid_slices (s : State) (b : Nat) (f : Braid → Braid) : (s.modBraid b f).slices = s.slices := rfl
@[simp] theorem State.modBraid_poison (s : State) (b : Nat) (f : Braid → Braid) : (s.modBraid b f).poison = s.poison := rfl
@[simp] theorem State.modBraid_walkCache (s : State) (b : Nat) (f : Braid → Braid) : (s.modBraid b f).walkCache = s.walkCache := rfl
@[simp] theorem State.modBraid_bootstat (s : State) (b : Nat) (f : Braid → Braid) : (s.modBraid b f).bootstat = s.bootstat := rfl
@[simp] theorem State.modBraid_errLog (s : State) (b : Nat) (f : Braid → Braid) : (s.modBraid b f).errLog = s.errLog := rfl
@[simp] theorem State.modBraid_errSeq (s : State) (b : Nat) (f : Braid → Braid) : (s.modBraid b f).errSeq = s.errSeq := rfl
@[simp] theorem State.modBraid_errCell (s : State) (b : Nat) (f : Braid → Braid) : (s.modBraid b f).errCell = s.errCell := rfl
@[simp] theorem State.modBraid_errXfer (s : State) (b : Nat) (f : Braid → Braid) : (s.modBraid b f).errXfer = s.errXfer := rfl
@[simp] theorem State.modBraid_lanes (s : State) (b : Nat) (f : Braid → Braid) : (s.modBraid b f).lanes = s.lanes := rfl
@[simp] theorem State.modBraid_deadChannels (s : State) (b : Nat) (f : Braid → Braid) : (s.modBraid b f).deadChannels = s.deadChannels := rfl
@[simp] theorem State.modBraid_heldInReset (s : State) (b : Nat) (f : Braid → Braid) : (s.modBraid b f).heldInReset = s.heldInReset := rfl
@[simp] theorem State.modBraid_fatal (s : State) (b : Nat) (f : Braid → Braid) : (s.modBraid b f).fatal = s.fatal := rfl
@[simp] theorem State.modBraid_serial (s : State) (b : Nat) (f : Braid → Braid) : (s.modBraid b f).serial = s.serial := rfl
@[simp] theorem State.modBraid_agenda (s : State) (b : Nat) (f : Braid → Braid) : (s.modBraid b f).agenda = s.agenda := rfl
@[simp] theorem State.modBraid_cur (s : State) (b : Nat) (f : Braid → Braid) : (s.modBraid b f).cur = s.cur := rfl
@[simp] theorem State.modBraid_freeCtr (s : State) (b : Nat) (f : Braid → Braid) : (s.modBraid b f).freeCtr = s.freeCtr := rfl

@[simp] theorem State.modPart_mem (s : State) (p : Nat) (f : Part → Part) : (s.modPart p f).mem = s.mem := rfl
@[simp] theorem State.modPart_strands (s : State) (p : Nat) (f : Part → Part) : (s.modPart p f).strands = s.strands := rfl
@[simp] theorem State.modPart_braids (s : State) (p : Nat) (f : Part → Part) : (s.modPart p f).braids = s.braids := rfl
@[simp] theorem State.modPart_worlds (s : State) (p : Nat) (f : Part → Part) : (s.modPart p f).worlds = s.worlds := rfl
@[simp] theorem State.modPart_tokens (s : State) (p : Nat) (f : Part → Part) : (s.modPart p f).tokens = s.tokens := rfl
@[simp] theorem State.modPart_xfers (s : State) (p : Nat) (f : Part → Part) : (s.modPart p f).xfers = s.xfers := rfl
@[simp] theorem State.modPart_packets (s : State) (p : Nat) (f : Part → Part) : (s.modPart p f).packets = s.packets := rfl
@[simp] theorem State.modPart_links (s : State) (p : Nat) (f : Part → Part) : (s.modPart p f).links = s.links := rfl
@[simp] theorem State.modPart_mapSeq (s : State) (p : Nat) (f : Part → Part) : (s.modPart p f).mapSeq = s.mapSeq := rfl
@[simp] theorem State.modPart_mapVa (s : State) (p : Nat) (f : Part → Part) : (s.modPart p f).mapVa = s.mapVa := rfl
@[simp] theorem State.modPart_device (s : State) (p : Nat) (f : Part → Part) : (s.modPart p f).device = s.device := rfl
@[simp] theorem State.modPart_partRefused (s : State) (p : Nat) (f : Part → Part) : (s.modPart p f).partRefused = s.partRefused := rfl
@[simp] theorem State.modPart_pairs (s : State) (p : Nat) (f : Part → Part) : (s.modPart p f).pairs = s.pairs := rfl
@[simp] theorem State.modPart_counterId (s : State) (p : Nat) (f : Part → Part) : (s.modPart p f).counterId = s.counterId := rfl
@[simp] theorem State.modPart_reportSeq (s : State) (p : Nat) (f : Part → Part) : (s.modPart p f).reportSeq = s.reportSeq := rfl
@[simp] theorem State.modPart_finalReports (s : State) (p : Nat) (f : Part → Part) : (s.modPart p f).finalReports = s.finalReports := rfl
@[simp] theorem State.modPart_declass (s : State) (p : Nat) (f : Part → Part) : (s.modPart p f).declass = s.declass := rfl
@[simp] theorem State.modPart_images (s : State) (p : Nat) (f : Part → Part) : (s.modPart p f).images = s.images := rfl
@[simp] theorem State.modPart_sealSeq (s : State) (p : Nat) (f : Part → Part) : (s.modPart p f).sealSeq = s.sealSeq := rfl
@[simp] theorem State.modPart_flash (s : State) (p : Nat) (f : Part → Part) : (s.modPart p f).flash = s.flash := rfl
@[simp] theorem State.modPart_spliceReqs (s : State) (p : Nat) (f : Part → Part) : (s.modPart p f).spliceReqs = s.spliceReqs := rfl
@[simp] theorem State.modPart_cfgVersion (s : State) (p : Nat) (f : Part → Part) : (s.modPart p f).cfgVersion = s.cfgVersion := rfl
@[simp] theorem State.modPart_cfgNext (s : State) (p : Nat) (f : Part → Part) : (s.modPart p f).cfgNext = s.cfgNext := rfl
@[simp] theorem State.modPart_bootBlob (s : State) (p : Nat) (f : Part → Part) : (s.modPart p f).bootBlob = s.bootBlob := rfl
@[simp] theorem State.modPart_slices (s : State) (p : Nat) (f : Part → Part) : (s.modPart p f).slices = s.slices := rfl
@[simp] theorem State.modPart_poison (s : State) (p : Nat) (f : Part → Part) : (s.modPart p f).poison = s.poison := rfl
@[simp] theorem State.modPart_walkCache (s : State) (p : Nat) (f : Part → Part) : (s.modPart p f).walkCache = s.walkCache := rfl
@[simp] theorem State.modPart_bootstat (s : State) (p : Nat) (f : Part → Part) : (s.modPart p f).bootstat = s.bootstat := rfl
@[simp] theorem State.modPart_errLog (s : State) (p : Nat) (f : Part → Part) : (s.modPart p f).errLog = s.errLog := rfl
@[simp] theorem State.modPart_errSeq (s : State) (p : Nat) (f : Part → Part) : (s.modPart p f).errSeq = s.errSeq := rfl
@[simp] theorem State.modPart_errCell (s : State) (p : Nat) (f : Part → Part) : (s.modPart p f).errCell = s.errCell := rfl
@[simp] theorem State.modPart_errXfer (s : State) (p : Nat) (f : Part → Part) : (s.modPart p f).errXfer = s.errXfer := rfl
@[simp] theorem State.modPart_lanes (s : State) (p : Nat) (f : Part → Part) : (s.modPart p f).lanes = s.lanes := rfl
@[simp] theorem State.modPart_deadChannels (s : State) (p : Nat) (f : Part → Part) : (s.modPart p f).deadChannels = s.deadChannels := rfl
@[simp] theorem State.modPart_heldInReset (s : State) (p : Nat) (f : Part → Part) : (s.modPart p f).heldInReset = s.heldInReset := rfl
@[simp] theorem State.modPart_fatal (s : State) (p : Nat) (f : Part → Part) : (s.modPart p f).fatal = s.fatal := rfl
@[simp] theorem State.modPart_serial (s : State) (p : Nat) (f : Part → Part) : (s.modPart p f).serial = s.serial := rfl
@[simp] theorem State.modPart_agenda (s : State) (p : Nat) (f : Part → Part) : (s.modPart p f).agenda = s.agenda := rfl
@[simp] theorem State.modPart_cur (s : State) (p : Nat) (f : Part → Part) : (s.modPart p f).cur = s.cur := rfl
@[simp] theorem State.modPart_freeCtr (s : State) (p : Nat) (f : Part → Part) : (s.modPart p f).freeCtr = s.freeCtr := rfl

@[simp] theorem State.modWorld_mem (s : State) (w : Nat) (f : World → World) : (s.modWorld w f).mem = s.mem := rfl
@[simp] theorem State.modWorld_strands (s : State) (w : Nat) (f : World → World) : (s.modWorld w f).strands = s.strands := rfl
@[simp] theorem State.modWorld_braids (s : State) (w : Nat) (f : World → World) : (s.modWorld w f).braids = s.braids := rfl
@[simp] theorem State.modWorld_parts (s : State) (w : Nat) (f : World → World) : (s.modWorld w f).parts = s.parts := rfl
@[simp] theorem State.modWorld_tokens (s : State) (w : Nat) (f : World → World) : (s.modWorld w f).tokens = s.tokens := rfl
@[simp] theorem State.modWorld_xfers (s : State) (w : Nat) (f : World → World) : (s.modWorld w f).xfers = s.xfers := rfl
@[simp] theorem State.modWorld_packets (s : State) (w : Nat) (f : World → World) : (s.modWorld w f).packets = s.packets := rfl
@[simp] theorem State.modWorld_links (s : State) (w : Nat) (f : World → World) : (s.modWorld w f).links = s.links := rfl
@[simp] theorem State.modWorld_mapSeq (s : State) (w : Nat) (f : World → World) : (s.modWorld w f).mapSeq = s.mapSeq := rfl
@[simp] theorem State.modWorld_mapVa (s : State) (w : Nat) (f : World → World) : (s.modWorld w f).mapVa = s.mapVa := rfl
@[simp] theorem State.modWorld_device (s : State) (w : Nat) (f : World → World) : (s.modWorld w f).device = s.device := rfl
@[simp] theorem State.modWorld_partRefused (s : State) (w : Nat) (f : World → World) : (s.modWorld w f).partRefused = s.partRefused := rfl
@[simp] theorem State.modWorld_pairs (s : State) (w : Nat) (f : World → World) : (s.modWorld w f).pairs = s.pairs := rfl
@[simp] theorem State.modWorld_counterId (s : State) (w : Nat) (f : World → World) : (s.modWorld w f).counterId = s.counterId := rfl
@[simp] theorem State.modWorld_reportSeq (s : State) (w : Nat) (f : World → World) : (s.modWorld w f).reportSeq = s.reportSeq := rfl
@[simp] theorem State.modWorld_finalReports (s : State) (w : Nat) (f : World → World) : (s.modWorld w f).finalReports = s.finalReports := rfl
@[simp] theorem State.modWorld_declass (s : State) (w : Nat) (f : World → World) : (s.modWorld w f).declass = s.declass := rfl
@[simp] theorem State.modWorld_images (s : State) (w : Nat) (f : World → World) : (s.modWorld w f).images = s.images := rfl
@[simp] theorem State.modWorld_sealSeq (s : State) (w : Nat) (f : World → World) : (s.modWorld w f).sealSeq = s.sealSeq := rfl
@[simp] theorem State.modWorld_flash (s : State) (w : Nat) (f : World → World) : (s.modWorld w f).flash = s.flash := rfl
@[simp] theorem State.modWorld_spliceReqs (s : State) (w : Nat) (f : World → World) : (s.modWorld w f).spliceReqs = s.spliceReqs := rfl
@[simp] theorem State.modWorld_cfgVersion (s : State) (w : Nat) (f : World → World) : (s.modWorld w f).cfgVersion = s.cfgVersion := rfl
@[simp] theorem State.modWorld_cfgNext (s : State) (w : Nat) (f : World → World) : (s.modWorld w f).cfgNext = s.cfgNext := rfl
@[simp] theorem State.modWorld_bootBlob (s : State) (w : Nat) (f : World → World) : (s.modWorld w f).bootBlob = s.bootBlob := rfl
@[simp] theorem State.modWorld_slices (s : State) (w : Nat) (f : World → World) : (s.modWorld w f).slices = s.slices := rfl
@[simp] theorem State.modWorld_poison (s : State) (w : Nat) (f : World → World) : (s.modWorld w f).poison = s.poison := rfl
@[simp] theorem State.modWorld_walkCache (s : State) (w : Nat) (f : World → World) : (s.modWorld w f).walkCache = s.walkCache := rfl
@[simp] theorem State.modWorld_bootstat (s : State) (w : Nat) (f : World → World) : (s.modWorld w f).bootstat = s.bootstat := rfl
@[simp] theorem State.modWorld_errLog (s : State) (w : Nat) (f : World → World) : (s.modWorld w f).errLog = s.errLog := rfl
@[simp] theorem State.modWorld_errSeq (s : State) (w : Nat) (f : World → World) : (s.modWorld w f).errSeq = s.errSeq := rfl
@[simp] theorem State.modWorld_errCell (s : State) (w : Nat) (f : World → World) : (s.modWorld w f).errCell = s.errCell := rfl
@[simp] theorem State.modWorld_errXfer (s : State) (w : Nat) (f : World → World) : (s.modWorld w f).errXfer = s.errXfer := rfl
@[simp] theorem State.modWorld_lanes (s : State) (w : Nat) (f : World → World) : (s.modWorld w f).lanes = s.lanes := rfl
@[simp] theorem State.modWorld_deadChannels (s : State) (w : Nat) (f : World → World) : (s.modWorld w f).deadChannels = s.deadChannels := rfl
@[simp] theorem State.modWorld_heldInReset (s : State) (w : Nat) (f : World → World) : (s.modWorld w f).heldInReset = s.heldInReset := rfl
@[simp] theorem State.modWorld_fatal (s : State) (w : Nat) (f : World → World) : (s.modWorld w f).fatal = s.fatal := rfl
@[simp] theorem State.modWorld_serial (s : State) (w : Nat) (f : World → World) : (s.modWorld w f).serial = s.serial := rfl
@[simp] theorem State.modWorld_agenda (s : State) (w : Nat) (f : World → World) : (s.modWorld w f).agenda = s.agenda := rfl
@[simp] theorem State.modWorld_cur (s : State) (w : Nat) (f : World → World) : (s.modWorld w f).cur = s.cur := rfl
@[simp] theorem State.modWorld_freeCtr (s : State) (w : Nat) (f : World → World) : (s.modWorld w f).freeCtr = s.freeCtr := rfl

@[simp] theorem State.writeN_strands (s : State) (a : Nat) (vs : List Byte) : (s.writeN a vs).strands = s.strands := rfl
@[simp] theorem State.writeN_braids (s : State) (a : Nat) (vs : List Byte) : (s.writeN a vs).braids = s.braids := rfl
@[simp] theorem State.writeN_parts (s : State) (a : Nat) (vs : List Byte) : (s.writeN a vs).parts = s.parts := rfl
@[simp] theorem State.writeN_worlds (s : State) (a : Nat) (vs : List Byte) : (s.writeN a vs).worlds = s.worlds := rfl
@[simp] theorem State.writeN_tokens (s : State) (a : Nat) (vs : List Byte) : (s.writeN a vs).tokens = s.tokens := rfl
@[simp] theorem State.writeN_xfers (s : State) (a : Nat) (vs : List Byte) : (s.writeN a vs).xfers = s.xfers := rfl
@[simp] theorem State.writeN_packets (s : State) (a : Nat) (vs : List Byte) : (s.writeN a vs).packets = s.packets := rfl
@[simp] theorem State.writeN_links (s : State) (a : Nat) (vs : List Byte) : (s.writeN a vs).links = s.links := rfl
@[simp] theorem State.writeN_mapSeq (s : State) (a : Nat) (vs : List Byte) : (s.writeN a vs).mapSeq = s.mapSeq := rfl
@[simp] theorem State.writeN_mapVa (s : State) (a : Nat) (vs : List Byte) : (s.writeN a vs).mapVa = s.mapVa := rfl
@[simp] theorem State.writeN_device (s : State) (a : Nat) (vs : List Byte) : (s.writeN a vs).device = s.device := rfl
@[simp] theorem State.writeN_partRefused (s : State) (a : Nat) (vs : List Byte) : (s.writeN a vs).partRefused = s.partRefused := rfl
@[simp] theorem State.writeN_pairs (s : State) (a : Nat) (vs : List Byte) : (s.writeN a vs).pairs = s.pairs := rfl
@[simp] theorem State.writeN_counterId (s : State) (a : Nat) (vs : List Byte) : (s.writeN a vs).counterId = s.counterId := rfl
@[simp] theorem State.writeN_reportSeq (s : State) (a : Nat) (vs : List Byte) : (s.writeN a vs).reportSeq = s.reportSeq := rfl
@[simp] theorem State.writeN_finalReports (s : State) (a : Nat) (vs : List Byte) : (s.writeN a vs).finalReports = s.finalReports := rfl
@[simp] theorem State.writeN_declass (s : State) (a : Nat) (vs : List Byte) : (s.writeN a vs).declass = s.declass := rfl
@[simp] theorem State.writeN_images (s : State) (a : Nat) (vs : List Byte) : (s.writeN a vs).images = s.images := rfl
@[simp] theorem State.writeN_sealSeq (s : State) (a : Nat) (vs : List Byte) : (s.writeN a vs).sealSeq = s.sealSeq := rfl
@[simp] theorem State.writeN_flash (s : State) (a : Nat) (vs : List Byte) : (s.writeN a vs).flash = s.flash := rfl
@[simp] theorem State.writeN_spliceReqs (s : State) (a : Nat) (vs : List Byte) : (s.writeN a vs).spliceReqs = s.spliceReqs := rfl
@[simp] theorem State.writeN_cfgVersion (s : State) (a : Nat) (vs : List Byte) : (s.writeN a vs).cfgVersion = s.cfgVersion := rfl
@[simp] theorem State.writeN_cfgNext (s : State) (a : Nat) (vs : List Byte) : (s.writeN a vs).cfgNext = s.cfgNext := rfl
@[simp] theorem State.writeN_bootBlob (s : State) (a : Nat) (vs : List Byte) : (s.writeN a vs).bootBlob = s.bootBlob := rfl
@[simp] theorem State.writeN_slices (s : State) (a : Nat) (vs : List Byte) : (s.writeN a vs).slices = s.slices := rfl
@[simp] theorem State.writeN_poison (s : State) (a : Nat) (vs : List Byte) : (s.writeN a vs).poison = s.poison := rfl
@[simp] theorem State.writeN_walkCache (s : State) (a : Nat) (vs : List Byte) : (s.writeN a vs).walkCache = s.walkCache := rfl
@[simp] theorem State.writeN_bootstat (s : State) (a : Nat) (vs : List Byte) : (s.writeN a vs).bootstat = s.bootstat := rfl
@[simp] theorem State.writeN_errLog (s : State) (a : Nat) (vs : List Byte) : (s.writeN a vs).errLog = s.errLog := rfl
@[simp] theorem State.writeN_errSeq (s : State) (a : Nat) (vs : List Byte) : (s.writeN a vs).errSeq = s.errSeq := rfl
@[simp] theorem State.writeN_errCell (s : State) (a : Nat) (vs : List Byte) : (s.writeN a vs).errCell = s.errCell := rfl
@[simp] theorem State.writeN_errXfer (s : State) (a : Nat) (vs : List Byte) : (s.writeN a vs).errXfer = s.errXfer := rfl
@[simp] theorem State.writeN_lanes (s : State) (a : Nat) (vs : List Byte) : (s.writeN a vs).lanes = s.lanes := rfl
@[simp] theorem State.writeN_deadChannels (s : State) (a : Nat) (vs : List Byte) : (s.writeN a vs).deadChannels = s.deadChannels := rfl
@[simp] theorem State.writeN_heldInReset (s : State) (a : Nat) (vs : List Byte) : (s.writeN a vs).heldInReset = s.heldInReset := rfl
@[simp] theorem State.writeN_fatal (s : State) (a : Nat) (vs : List Byte) : (s.writeN a vs).fatal = s.fatal := rfl
@[simp] theorem State.writeN_serial (s : State) (a : Nat) (vs : List Byte) : (s.writeN a vs).serial = s.serial := rfl
@[simp] theorem State.writeN_agenda (s : State) (a : Nat) (vs : List Byte) : (s.writeN a vs).agenda = s.agenda := rfl
@[simp] theorem State.writeN_cur (s : State) (a : Nat) (vs : List Byte) : (s.writeN a vs).cur = s.cur := rfl
@[simp] theorem State.writeN_freeCtr (s : State) (a : Nat) (vs : List Byte) : (s.writeN a vs).freeCtr = s.freeCtr := rfl

@[simp] theorem State.strand_modStrand (s : State) (b k : Nat) (f : Strand → Strand) : (s.modStrand b k f).strand b k = f (s.strand b k) := State.strand_setStrand _ _ _ _
@[simp] theorem State.braid_modBraid (s : State) (b : Nat) (f : Braid → Braid) : (s.modBraid b f).braid b = f (s.braid b) := State.braid_setBraid _ _ _
@[simp] theorem State.part_modPart (s : State) (p : Nat) (f : Part → Part) : (s.modPart p f).part p = f (s.part p) := State.part_setPart _ _ _
@[simp] theorem State.world_modWorld (s : State) (w : Nat) (f : World → World) : (s.modWorld w f).world w = f (s.world w) := State.world_setWorld _ _ _

theorem State.strand_modStrand_ne (s : State) {b k c j : Nat} (hk : k < 4) (hj : j < 4) (h : (c, j) ≠ (b, k)) (f : Strand → Strand) :
    (s.modStrand b k f).strand c j = s.strand c j := State.strand_setStrand_ne s hk hj h _
theorem State.braid_modBraid_ne (s : State) {b c : Nat} (h : c ≠ b) (f : Braid → Braid) : (s.modBraid b f).braid c = s.braid c := State.braid_setBraid_ne s h _
theorem State.part_modPart_ne (s : State) {p q : Nat} (h : q ≠ p) (f : Part → Part) : (s.modPart p f).part q = s.part q := State.part_setPart_ne s h _
theorem State.world_modWorld_ne (s : State) {w v : Nat} (h : v ≠ w) (f : World → World) : (s.modWorld w f).world v = s.world v := State.world_setWorld_ne s h _

@[simp] theorem State.strand_modBraid (s : State) (b : Nat) (f : Braid → Braid) (c j : Nat) : (s.modBraid b f).strand c j = s.strand c j := rfl
@[simp] theorem State.strand_modPart (s : State) (p : Nat) (f : Part → Part) (c j : Nat) : (s.modPart p f).strand c j = s.strand c j := rfl
@[simp] theorem State.strand_modWorld (s : State) (w : Nat) (f : World → World) (c j : Nat) : (s.modWorld w f).strand c j = s.strand c j := rfl
@[simp] theorem State.strand_writeN (s : State) (a : Nat) (vs : List Byte) (c j : Nat) : (s.writeN a vs).strand c j = s.strand c j := rfl
@[simp] theorem State.braid_modStrand (s : State) (b k : Nat) (f : Strand → Strand) (c : Nat) : (s.modStrand b k f).braid c = s.braid c := rfl
@[simp] theorem State.braid_modPart (s : State) (p : Nat) (f : Part → Part) (c : Nat) : (s.modPart p f).braid c = s.braid c := rfl
@[simp] theorem State.braid_modWorld (s : State) (w : Nat) (f : World → World) (c : Nat) : (s.modWorld w f).braid c = s.braid c := rfl
@[simp] theorem State.braid_writeN (s : State) (a : Nat) (vs : List Byte) (c : Nat) : (s.writeN a vs).braid c = s.braid c := rfl
@[simp] theorem State.part_modStrand (s : State) (b k : Nat) (f : Strand → Strand) (c : Nat) : (s.modStrand b k f).part c = s.part c := rfl
@[simp] theorem State.part_modBraid (s : State) (b : Nat) (f : Braid → Braid) (c : Nat) : (s.modBraid b f).part c = s.part c := rfl
@[simp] theorem State.part_modWorld (s : State) (w : Nat) (f : World → World) (c : Nat) : (s.modWorld w f).part c = s.part c := rfl
@[simp] theorem State.part_writeN (s : State) (a : Nat) (vs : List Byte) (c : Nat) : (s.writeN a vs).part c = s.part c := rfl
@[simp] theorem State.world_modStrand (s : State) (b k : Nat) (f : Strand → Strand) (c : Nat) : (s.modStrand b k f).world c = s.world c := rfl
@[simp] theorem State.world_modBraid (s : State) (b : Nat) (f : Braid → Braid) (c : Nat) : (s.modBraid b f).world c = s.world c := rfl
@[simp] theorem State.world_modPart (s : State) (p : Nat) (f : Part → Part) (c : Nat) : (s.modPart p f).world c = s.world c := rfl
@[simp] theorem State.world_writeN (s : State) (a : Nat) (vs : List Byte) (c : Nat) : (s.writeN a vs).world c = s.world c := rfl

end Sys2Proof.Machine
end

