-- ==== Sys2Proof/Laws/Land.lean ====
section
/-!
SUPPORT. Results in flight: how they queue, and what a strand holds once they have landed (R169, R185).
-/

namespace Sys2Proof.Machine

/-- An effect that leaves nothing further in flight: every one but a row entering the matrix array (R327). -/
def Eff.plain : Eff → Bool
  | .mmaIn _ _ _ _ _ _ _ _ _ _ _ => false
  | _ => true

/-- Results of one issue, all due at one cycle. -/
def pendsAt (d o : Nat) (es : List Eff) : List Pend := es.map fun e => ⟨d, o, e⟩

theorem insertPend_last (d o : Nat) (e : Eff) : ∀ es : List Eff, insertPend ⟨d, o, e⟩ (pendsAt d o es) = pendsAt d o (es ++ [e])
  | [] => rfl
  | x :: es => by
    simp only [pendsAt, List.map_cons, insertPend, List.cons_append]
    simp only [lt_irrefl, true_and, false_or, le_refl, ↓reduceIte]
    exact congrArg _ (insertPend_last d o e es)

/-- Results issued on a strand with nothing in flight. -/
theorem Strand.addPends_quiet (es : List Eff) : ∀ (t : Strand) (lat : Nat) (fs : List Eff), t.pend = pendsAt (t.clk + lat) t.clk fs →
    t.addPends lat es = { t with pend := pendsAt (t.clk + lat) t.clk (fs ++ es) } := by
  induction es with
  | nil => intro t lat fs h; simp [Strand.addPends, ← h]
  | cons e es ih =>
    intro t lat fs h
    have step : t.addPend lat e = { t with pend := pendsAt (t.clk + lat) t.clk (fs ++ [e]) } := by
      simp only [Strand.addPend, h, insertPend_last]
    have := ih { t with pend := pendsAt (t.clk + lat) t.clk (fs ++ [e]) } lat (fs ++ [e]) rfl
    simp only [List.append_assoc, List.singleton_append] at this
    simpa only [Strand.addPends, List.foldl_cons, step] using this

theorem Strand.landEff_pend (t : Strand) (e : Eff) : (t.landEff e).pend = t.pend := by
  unfold Strand.landEff
  split
  · split <;> rfl
  · rfl

theorem Strand.landEff_clk (t : Strand) (e : Eff) : (t.landEff e).clk = t.clk := by
  unfold Strand.landEff
  split
  · split <;> rfl
  · rfl

/-- Landing changes registers and latches alone. -/
theorem Strand.landEff_with (t : Strand) (e : Eff) (p : List Pend) (c r : Nat) (l : Bool) :
    ({ t with pend := p, clk := c, runCyc := r, landed := l } : Strand).landEff e = { t.landEff e with pend := p, clk := c, runCyc := r, landed := l } := by
  unfold Strand.landEff
  split
  · split <;> rfl
  · rfl

/-- The registers and latches a strand holds once a list of effects has landed. -/
def Strand.landAll (t : Strand) (es : List Eff) : Strand := es.foldl Strand.landEff t

theorem Strand.landAll_with (es : List Eff) : ∀ (t : Strand) (p : List Pend) (c r : Nat) (l : Bool),
    ({ t with pend := p, clk := c, runCyc := r, landed := l } : Strand).landAll es = { t.landAll es with pend := p, clk := c, runCyc := r, landed := l } := by
  induction es with
  | nil => intro t p c r l; rfl
  | cons e es ih =>
    intro t p c r l
    simp only [Strand.landAll, List.foldl_cons, Strand.landEff_with] at ih ⊢
    exact ih (t.landEff e) p c r l

theorem landGo_nil (c n : Nat) (t : Strand) (h : t.pend = []) : landGo c n t = t := by
  cases n <;> simp [landGo, h]

/-- Results due by a cycle land in their order. -/
theorem landGo_due (d o c : Nat) (hd : d ≤ c) (es : List Eff) (hs : ∀ e ∈ es, e.plain = true) :
    ∀ (n : Nat) (t : Strand), es.length ≤ n → t.pend = pendsAt d o es → landGo c n t = { t.landAll es with pend := [] } := by
  induction es with
  | nil => intro n t _ h; rw [landGo_nil c n t h]; simp [Strand.landAll, pendsAt] at h ⊢; exact h ▸ rfl
  | cons e es ih =>
    intro n t hn hp
    obtain ⟨m, rfl⟩ : ∃ m, n = m + 1 := ⟨n - 1, by simp only [List.length_cons] at hn; omega⟩
    have hplain := hs e (by simp)
    have hp' : t.pend = ⟨d, o, e⟩ :: pendsAt d o es := by simpa [pendsAt] using hp
    have key : landGo c (m + 1) t = landGo c m (({ t with pend := pendsAt d o es } : Strand).landEff e) := by
      simp only [landGo, hp']
      rw [if_neg (by simpa using hd)]
      cases e <;> first | rfl | simp [Eff.plain] at hplain
    rw [key, ih (fun e' he => hs e' (by simp [he])) m _ (by simpa using hn) (by rw [Strand.landEff_pend])]
    have h1 : ({ t with pend := pendsAt d o es } : Strand).landEff e =
        { t.landEff e with pend := pendsAt d o es, clk := t.clk, runCyc := t.runCyc, landed := t.landed } :=
      Strand.landEff_with t e (pendsAt d o es) t.clk t.runCyc t.landed
    have h2 : t.landEff e = { t.landEff e with pend := t.pend, clk := t.clk, runCyc := t.runCyc, landed := t.landed } :=
      Strand.landEff_with t e t.pend t.clk t.runCyc t.landed
    rw [h1, Strand.landAll_with]
    simp only [Strand.landAll, List.foldl_cons]
    have h3 := Strand.landAll_with es (t.landEff e) t.pend t.clk t.runCyc t.landed
    rw [← h2] at h3
    simp only [Strand.landAll] at h3
    rw [h3]

theorem landGo_early (d o c : Nat) (hd : c < d) (es : List Eff) (n : Nat) (t : Strand) (hp : t.pend = pendsAt d o es) : landGo c n t = t := by
  cases n with
  | zero => rfl
  | succ m =>
    cases es with
    | nil => simp [landGo, hp, pendsAt]
    | cons e es => simp [landGo, hp, pendsAt, hd]

theorem Strand.landUpTo_due (t : Strand) {d o c : Nat} (hd : d ≤ c) (es : List Eff) (hs : ∀ e ∈ es, e.plain = true) (hp : t.pend = pendsAt d o es) :
    t.landUpTo c = { t.landAll es with pend := [] } :=
  landGo_due d o c hd es hs _ t (by simp [hp, pendsAt]; omega) hp

theorem Strand.landUpTo_early (t : Strand) {d o c : Nat} (hd : c < d) (es : List Eff) (hp : t.pend = pendsAt d o es) : t.landUpTo c = t :=
  landGo_early d o c hd es _ t hp

theorem Strand.landUpTo_nil (t : Strand) (c : Nat) (h : t.pend = []) : t.landUpTo c = t := landGo_nil c _ t h

/-- n cycles with nothing in flight: the last of them, if any, has nothing land in it. -/
theorem Strand.ticks_nil : ∀ (n : Nat) (t : Strand), t.pend = [] →
    Strand.ticks n t = { t with clk := t.clk + n, runCyc := t.runCyc + n, landed := t.landed && n == 0 }
  | 0, t, _ => by simp [Strand.ticks]
  | n + 1, t, h => by
    simp only [Strand.ticks, Strand.tick, h, List.any_nil]
    rw [Strand.landUpTo_nil _ _ (by simp), Strand.ticks_nil n _ (by simp)]
    simp [Nat.add_assoc, Nat.add_comm 1 n]

/-- A bundle's results, its cycles passed, read at the cycle they are due or later: all have landed. -/
theorem Strand.settle (es : List Eff) (hs : ∀ e ∈ es, e.plain = true) {d o c : Nat} (hd : d ≤ c) : ∀ (n : Nat) (t : Strand), t.pend = pendsAt d o es →
    { (Strand.ticks n t).landUpTo c with landed := false } =
      { t.landAll es with pend := [], clk := t.clk + n, runCyc := t.runCyc + n, landed := false }
  | 0, t, hp => by
    have h := Strand.landAll_with es t t.pend t.clk t.runCyc t.landed
    simp only [Strand.ticks, Nat.add_zero]
    rw [Strand.landUpTo_due t hd es hs hp]
    have h' : t.landAll es = { t.landAll es with pend := t.pend, clk := t.clk, runCyc := t.runCyc, landed := t.landed } := h
    rw [h']
  | n + 1, t, hp => by
    simp only [Strand.ticks, Strand.tick]
    generalize hl : (t.pend.any fun p => p.fixed && decide (p.due ≤ t.clk + 1)) = l
    have hp' : ({ t with clk := t.clk + 1, runCyc := t.runCyc + 1, landed := l } : Strand).pend = pendsAt d o es := hp
    have h1 : ({ t with clk := t.clk + 1, runCyc := t.runCyc + 1, landed := l } : Strand).landAll es =
        { t.landAll es with pend := t.pend, clk := t.clk + 1, runCyc := t.runCyc + 1, landed := l } :=
      Strand.landAll_with es t t.pend (t.clk + 1) (t.runCyc + 1) l
    by_cases hc : d ≤ t.clk + 1
    · rw [Strand.landUpTo_due _ hc es hs hp', h1, Strand.ticks_nil n _ rfl, Strand.landUpTo_nil _ _ rfl]
      simp only [Nat.add_assoc, Nat.add_comm 1 n]
    · rw [Strand.landUpTo_early _ (Nat.lt_of_not_le hc) es hp', Strand.settle es hs hd n _ hp', h1]
      simp only [Nat.add_assoc, Nat.add_comm 1 n]

/-! What landing leaves alone, whatever is in flight. -/

/-- What one effect does to the control state: a latch alone (R169). -/
def Ctl.land (c : Ctl) : Eff → Ctl
  | .latch k v g => if g = c.gen then { c with latch := Store.set c.latch k v 0, latchOk := setBit c.latchOk k true } else c
  | _ => c

theorem Strand.landEff_eq (t : Strand) (e : Eff) : t.landEff e = { t with r := t.r.land e, c := t.c.land e } := by
  cases e
  case latch k v g =>
    show (if g = t.c.gen then _ else _) = _
    split
    · next h => show _ = { t with r := t.r, c := (if g = t.c.gen then _ else _) }; rw [if_pos h]
    · next h => show _ = { t with r := t.r, c := (if g = t.c.gen then _ else _) }; rw [if_neg h]
  all_goals rfl

/-- What a list of landed effects leaves: registers and latches, nothing else. -/
theorem Strand.landAll_eq (es : List Eff) : ∀ t : Strand, t.landAll es = { t with r := es.foldl Regs.land t.r, c := es.foldl Ctl.land t.c } := by
  induction es with
  | nil => intro t; rfl
  | cons e es ih =>
    intro t
    have := ih (t.landEff e)
    simp only [Strand.landAll, List.foldl_cons] at this ⊢
    rw [this, Strand.landEff_eq]

/-- Landing changes registers, control state and what is in flight, nothing else of the strand. -/
theorem landGo_frame (c : Nat) : ∀ (n : Nat) (t : Strand), ∃ r d p, landGo c n t = { t with r := r, c := d, pend := p }
  | 0, t => ⟨t.r, t.c, t.pend, rfl⟩
  | n + 1, t => by
    unfold landGo
    split
    · exact ⟨t.r, t.c, t.pend, rfl⟩
    · split
      · exact ⟨t.r, t.c, t.pend, rfl⟩
      · simp only
        split
        · exact landGo_frame c n _
        · rw [Strand.landEff_eq]
          exact landGo_frame c n _

theorem Strand.ticks_frame : ∀ (n : Nat) (t : Strand),
    ∃ r d p l, Strand.ticks n t = { t with r := r, c := d, pend := p, clk := t.clk + n, runCyc := t.runCyc + n, landed := l }
  | 0, t => ⟨t.r, t.c, t.pend, t.landed, rfl⟩
  | n + 1, t => by
    obtain ⟨r, d, p, h⟩ := landGo_frame (t.clk + 1) (2 * t.pend.length)
      { t with clk := t.clk + 1, runCyc := t.runCyc + 1, landed := t.pend.any fun p => p.fixed && p.due ≤ t.clk + 1 }
    obtain ⟨r', d', p', l', h'⟩ := Strand.ticks_frame n
      { t with r := r, c := d, pend := p, clk := t.clk + 1, runCyc := t.runCyc + 1, landed := t.pend.any fun p => p.fixed && p.due ≤ t.clk + 1 }
    refine ⟨r', d', p', l', ?_⟩
    have hk : t.tick = { t with
        r := r, c := d, pend := p, clk := t.clk + 1, runCyc := t.runCyc + 1, landed := t.pend.any fun p => p.fixed && p.due ≤ t.clk + 1 } := h
    rw [Strand.ticks, hk, h']
    simp only [Nat.add_assoc, Nat.add_comm 1 n]

end Sys2Proof.Machine
end

