-- ==== Sys2Proof/Laws/Issue.lean ====
section
/-!
SUPPORT. Issuing one operation on a strand that nothing delays: what issue does, once for every operation (R161, R184).
-/

namespace Sys2Proof.Machine

/-- The operation has no cause to trap and nothing to wait for. -/
structure SlotOp.Free (x : Ctx) (o : SlotOp) : Prop where
  runs : o.runs = true
  early : o.early = []
  traps : o.traps = []
  walks : ∀ va ∈ o.walks, needsWalk x va = false
  stage1 : o.stage1 = false
  wait : o.wait = false
  soon : o.soon = false
  fifo : o.fifo = none

theorem Quiet.overdue {s : State} (q : Quiet s) : s.here.overdue = false := by simp [Strand.overdue, q.arrived]
theorem Quiet.busyWith {s : State} (q : Quiet s) (r : Res) : s.here.busyWith r = false := by simp [Strand.busyWith, q.arrived]
theorem Quiet.denseBusy {s : State} (q : Quiet s) (a b : List Res) : s.here.denseBusy a b = false := by simp [Strand.denseBusy, q.landed, q.arrived]

theorem firstTrap_nil : firstTrap [] = none := rfl

/-- A strand that nothing delays commits an operation with no cause to trap and nothing to wait for. -/
theorem issueOne_quiet (i : Instr) (op : Ctx → SlotOp) (s : State) (q : Quiet s) (f : (op (s.ctx i)).Free (s.ctx i)) :
    issueOne i op s = .next (commit (s.ctx i) [op (s.ctx i)] ((op (s.ctx i)).pre s)) := by
  have hst : (Ctx.of s (Bundle.single i).words none).st = s.here := rfl
  have hx : s.ctx i = Ctx.of s (Bundle.single i).words none := rfl
  rw [hx] at f ⊢
  generalize hy : Ctx.of s (Bundle.single i).words none = x at *
  generalize ho : op x = o at *
  simp only [issueOne, Host.Outcome.next.injEq]
  have hnext : ∀ key, ¬ s.here.clk < Store.get s.here.nextIss key 0 := fun key => Nat.not_lt.mpr (q.intervals key)
  have hwalk : (o.walks.find? (needsWalk x)) = none := by
    rw [List.find?_eq_none]; intro va hva; simp [f.walks va hva]
  have hsoon : x.tooSoon o = false := by
    unfold Ctx.tooSoon
    rw [f.soon, hst]
    cases o.cls with
    | none => rfl
    | some c => simp [hnext]
  have h1 : stage1Busy x [o] = false := by simp [stage1Busy, f.stage1, hst, q.busyWith]
  have h2 : denseWait x [o] = false := by simp [denseWait, hst, q.denseBusy]
  have h3 : bundleTrap [o] = none := by simp [bundleTrap, f.early, f.traps, sameDest, f.runs, trapIf, firstTrap]
  have h4 : fifoShort x [o] = none := by simp [fifoShort, f.fifo]
  have h5 : fifoBehind x [o] = none := by simp [fifoBehind, f.fifo]
  have h6 : guardWait x [o] = false := by simp [guardWait, hst, q.denseBusy]
  have h7 : o.undef = false := by simp [SlotOp.undef, f.early]
  unfold issue
  simp only [hy, List.map_cons, List.map_nil, ho]
  simp [hst, q.runs, q.noHalt, q.noFreeze, q.noTimeout, q.whole.1, q.whole.2, f.runs, h7, q.overdue, h1, h2, hwalk, h3, h4, h5, h6, f.wait, hsoon]

theorem flowOf_one (o : SlotOp) : flowOf [o] = o.flow := by
  by_cases h : o.flow = .seq <;> simp [flowOf, h]

/-- The bundle of one operation that is no safe point and does nothing after its bundle: its effect, then the end of the bundle. -/
theorem commit_one (x : Ctx) (o : SlotOp) (s : State) (hr : o.runs = true) (hs : o.safe = none) (hp : o.post = id)
    (hrun : (x.endBundle [o] o.flow false ((o.eff s).strand x.b x.k)).stepOnce = false) :
    commit x [o] s = (o.eff s).modStrand x.b x.k (x.endBundle [o] o.flow false) := by
  unfold commit
  simp only [List.filter_cons, hr, ↓reduceIte, List.filter_nil, List.foldl_cons, List.foldl_nil, hp, id_eq, flowOf_one,
    List.findSome?_cons, hs, List.findSome?_nil, Option.isSome_none]
  split
  · unfold afterBundle
    simp only [State.strand_modStrand, hrun, Bool.false_eq_true, ↓reduceIte, ite_self]
  · rfl

theorem Strand.ticks_stepOnce (n : Nat) (t : Strand) : (Strand.ticks n t).stepOnce = t.stepOnce := by
  obtain ⟨r, d, p, l, h⟩ := Strand.ticks_frame n t
  rw [h]

theorem Strand.go_stepOnce (t : Strand) (pc next : Nat) (f : Flow) (b : Bool) : (t.go pc next f b).stepOnce = t.stepOnce := by
  cases f with
  | seq => simp only [Strand.go]; split <;> rfl
  | _ => rfl

theorem Ctx.endBundle_stepOnce (x : Ctx) (os : List SlotOp) (t : Strand) (f : Flow) (b : Bool) : (x.endBundle os f b t).stepOnce = t.stepOnce := by
  unfold Ctx.endBundle
  simp only [Strand.ticks_stepOnce, Strand.go_stepOnce]

theorem Quiet.backEdges {s : State} (q : Quiet s) (n nxt : Nat) (r : Regs) (l : Bool) :
    backEdges s.here.c.pc.toNat n s.here.c r nxt l = (s.here.c, r, nxt, l) := by
  cases n with
  | zero => rfl
  | succ n =>
    have h := q.inBody
    unfold Sys2Proof.Machine.backEdges
    generalize s.here.c.loops = ls at *
    cases ls with
    | nil => rfl
    | cons e rest =>
      simp only [List.head?_cons, Option.mem_def, Option.some.injEq, forall_eq'] at h
      simp only [h, ↓reduceIte, ne_eq]

theorem onlyHere_mod (s : State) (h : s.cur.2 < 4) (f : Strand → Strand) : OnlyHere s (s.modStrand s.cur.1 s.cur.2 f) :=
  ⟨rfl, fun _ _ hk hn => State.strand_modStrand_ne s h hk hn f⟩

theorem OnlyHere.mod {s t : State} (h : OnlyHere s t) (hk : s.cur.2 < 4) (f : Strand → Strand) : OnlyHere s (t.modStrand s.cur.1 s.cur.2 f) :=
  ⟨h.1, fun b k hk' hn => by rw [State.strand_modStrand_ne t hk hk' hn, h.2 b k hk' hn]⟩

/-- One operation on a strand that nothing delays, whatever its effect: the effect, then the end of its bundle. -/
theorem issueOne_next (i : Instr) (op : Ctx → SlotOp) (s : State) (q : Quiet s) (f : (op (s.ctx i)).Free (s.ctx i))
    (hpost : (op (s.ctx i)).post = id) (hsafe : (op (s.ctx i)).safe = none)
    (hstep : (((op (s.ctx i)).eff ((op (s.ctx i)).pre s)).strand s.cur.1 s.cur.2).stepOnce = false) :
    issueOne i op s = .next (((op (s.ctx i)).eff ((op (s.ctx i)).pre s)).modStrand s.cur.1 s.cur.2
      ((s.ctx i).endBundle [op (s.ctx i)] (op (s.ctx i)).flow false)) := by
  rw [issueOne_quiet i op s q f, commit_one _ _ _ f.runs hsafe hpost]
  · rfl
  · rw [Ctx.endBundle_stepOnce]; exact hstep

/-- The issue intervals after a bundle of one operation. -/
def Ctx.issAfter (x : Ctx) (o : SlotOp) (t : Strand) : Store Nat :=
  match o.cls with
  | some c => Store.put t.nextIss (64 * o.slot + c) (t.clk + x.br.interval c)
  | none => t.nextIss

theorem Ctx.endBundle_one (x : Ctx) (o : SlotOp) (f : Flow) (t : Strand) (hp : t.preempt = none) : x.endBundle [o] f false t =
    Strand.ticks x.cycles (Strand.go { t with nextIss := x.issAfter o t, lastClk := t.clk + x.cycles, skip0 := false, skipRest := false, bpSkip := 0
                                              walked := [], fifoWait := none, stalled := false } x.pc x.next f false) := by
  unfold Ctx.endBundle Ctx.issAfter
  simp only [List.foldl_cons, List.foldl_nil, hp, Option.map_none]
  all_goals cases o.cls <;> rfl

theorem Ctx.cycles_pos (x : Ctx) : (x.cycles == 0) = false := by
  unfold Ctx.cycles
  split
  · rfl
  · simp

/-- The end of a bundle that falls through, read once its results have landed. -/
theorem Ctx.endBundle_seq (x : Ctx) (o : SlotOp) (u : Strand) (es : List Eff) (hpl : ∀ e ∈ es, e.plain = true) {d r c : Nat} (hd : d ≤ c)
    (hpend : u.pend = pendsAt d r es) (hreq : u.preempt = none) (hskip : u.skip0 = false ∧ u.skipRest = false)
    (hback : backEdges x.pc 7 u.c u.r x.next false = (u.c, u.r, x.next, false)) :
    { (x.endBundle [o] .seq false u).landUpTo c with landed := false } =
      { u with r := es.foldl Regs.land u.r, c := es.foldl Ctl.land { u.c with pc := BitVec.ofNat 64 x.next }, pend := []
               clk := u.clk + x.cycles, runCyc := u.runCyc + x.cycles, lastClk := u.clk + x.cycles, nextIss := x.issAfter o u
               bpSkip := 0, walked := [], fifoWait := none, stalled := false, landed := false } := by
  rw [Ctx.endBundle_one x o _ u hreq]
  simp only [Strand.go, hback, Bool.or_self, Bool.false_eq_true, ↓reduceIte]
  refine (Strand.settle es hpl hd x.cycles _ (by exact hpend)).trans ?_
  rw [Strand.landAll_eq]
  simp only [hskip.1, hskip.2]

/-- The end of a bundle whose transfer is taken, nothing being in flight: a group switch (R170, R215). -/
theorem Ctx.endBundle_goto (x : Ctx) (o : SlotOp) (u : Strand) (p : Word) (hpend : u.pend = []) (hreq : u.preempt = none)
    (hskip : u.skip0 = false ∧ u.skipRest = false) :
    x.endBundle [o] (.goto p) false u =
      { u with c := { u.c with pc := p, latch := [], latchOk := 0, gen := u.c.gen + 1 }
               clk := u.clk + x.cycles, runCyc := u.runCyc + x.cycles, lastClk := u.clk + x.cycles, nextIss := x.issAfter o u
               bpSkip := 0, walked := [], fifoWait := none, stalled := false, landed := false } := by
  rw [Ctx.endBundle_one x o _ u hreq]
  simp only [Strand.go, Strand.groupSwitch]
  refine (Strand.ticks_nil _ _ (by exact hpend)).trans ?_
  simp only [hskip.1, hskip.2, x.cycles_pos, Bool.and_false]

/-- AN OPERATION WHOSE EFFECT STAYS ON ITS STRAND: it changes registers and control state at once and leaves results to land after a latency. It
completes, changes its strand alone, and once the latency has passed the strand holds everything, its pc moved on. -/
theorem issueOne_own (i : Instr) (op : Ctx → SlotOp) (s : State) (q : Quiet s) (lat : Nat) (es : List Eff) (g : Strand → Strand) (r : Regs) (c : Ctl)
    (hpl : ∀ e ∈ es, e.plain = true) (f : (op (s.ctx i)).Free (s.ctx i)) (hpre : (op (s.ctx i)).pre = id) (hpost : (op (s.ctx i)).post = id)
    (hsafe : (op (s.ctx i)).safe = none) (hflow : (op (s.ctx i)).flow = .seq)
    (heff : (op (s.ctx i)).eff s = s.modStrand s.cur.1 s.cur.2 g)
    (hg : g s.here = { s.here with r := r, c := c, pend := pendsAt (s.here.clk + lat) s.here.clk es })
    (hback : backEdges (s.ctx i).pc 7 c r (s.ctx i).next false = (c, r, (s.ctx i).next, false)) :
    ∃ t, issueOne i op s = .next t ∧ OnlyHere s t ∧
      { t.here.landUpTo (s.here.clk + lat) with landed := false } =
        s.here.after (s.ctx i).cycles (es.foldl Regs.land r) (es.foldl Ctl.land { c with pc := BitVec.ofNat 64 (s.ctx i).next })
          ((s.ctx i).issAfter (op (s.ctx i)) s.here) := by
  have hE : ((op (s.ctx i)).eff ((op (s.ctx i)).pre s)) = s.modStrand s.cur.1 s.cur.2 g := by rw [hpre]; exact heff
  have hS : (s.modStrand s.cur.1 s.cur.2 g).strand s.cur.1 s.cur.2 = g s.here := State.strand_modStrand s _ _ g
  refine ⟨_, issueOne_next i op s q f hpost hsafe (by rw [hE, hS, hg]; exact q.noStep), ?_, ?_⟩
  · rw [hE]; exact (onlyHere_mod s q.strand _).mod q.strand _
  · have hh : ∀ h, ((s.modStrand s.cur.1 s.cur.2 g).modStrand s.cur.1 s.cur.2 h).here = h (g s.here) := by
      intro h
      have hc : ((s.modStrand s.cur.1 s.cur.2 g).modStrand s.cur.1 s.cur.2 h).cur = s.cur := rfl
      unfold State.here
      rw [hc, State.strand_modStrand, State.strand_modStrand]
    rw [hE, hh, hflow]
    have key := Ctx.endBundle_seq (s.ctx i) (op (s.ctx i)) (g s.here) es hpl (le_refl (s.here.clk + lat)) (by rw [hg]) (by rw [hg]; exact q.noRequest)
      (by rw [hg]; exact q.whole) (by rw [hg]; exact hback)
    rw [key, hg]
    simp only [Strand.after, q.landed, Ctx.issAfter]

/-- An operation whose whole effect is results written after a latency. -/
theorem issueOne_results (i : Instr) (op : Ctx → SlotOp) (s : State) (q : Quiet s) (lat : Nat) (es : List Eff)
    (hpl : ∀ e ∈ es, e.plain = true) (f : (op (s.ctx i)).Free (s.ctx i)) (hpre : (op (s.ctx i)).pre = id) (hpost : (op (s.ctx i)).post = id)
    (hsafe : (op (s.ctx i)).safe = none) (hflow : (op (s.ctx i)).flow = .seq)
    (heff : (op (s.ctx i)).eff = (s.ctx i).mod fun t => t.addPends lat es) :
    ∃ t, issueOne i op s = .next t ∧ OnlyHere s t ∧
      { t.here.landUpTo (s.here.clk + lat) with landed := false } =
        s.here.after (s.ctx i).cycles (es.foldl Regs.land s.here.r) (es.foldl Ctl.land (s.ctx i).stepped) ((s.ctx i).issAfter (op (s.ctx i)) s.here) := by
  have hd : s.here.addPends lat es = { s.here with pend := pendsAt (s.here.clk + lat) s.here.clk es } := by
    simpa using Strand.addPends_quiet es s.here lat [] (by rw [q.landed]; rfl)
  exact issueOne_own i op s q lat es (fun t => t.addPends lat es) s.here.r s.here.c hpl f hpre hpost hsafe hflow (by rw [heff]; rfl) hd (q.backEdges _ _ _ _)

end Sys2Proof.Machine
end

