-- ==== Sys2Proof/Laws/Memory.lean ====
section
/-!
SUPPORT. Memory: a read after a write, every other address left alone, and the canonical form kept by every memory operation (log 3).
-/

namespace Sys2Proof.Machine

theorem memGet_memPut_self (m : List Host.Cell) (a : Nat) (v : Byte) : memGet (memPut m a v) a = v := by
  induction m with
  | nil => simp [memPut, memGet]
  | cons e t ih =>
    obtain ⟨j, w⟩ := e
    simp only [memPut]
    split
    · simp [memGet]
    · split
      · simp [memGet]
      · simp [memGet, *]

theorem memGet_memPut_ne (m : List Host.Cell) {a c : Nat} (h : c ≠ a) (v : Byte) : memGet (memPut m a v) c = memGet m c := by
  induction m with
  | nil => simp [memPut, memGet, Ne.symm h]
  | cons e t ih =>
    obtain ⟨j, w⟩ := e
    simp only [memPut]
    split
    · next hj => subst hj; simp [memGet, Ne.symm h]
    · split
      · simp [memGet, Ne.symm h]
      · simp only [memGet]; split <;> simp_all

theorem memGet_filter_ne (m : List Host.Cell) (p : Host.Cell → Bool) (c : Nat) (h : ∀ v, p (c, v) = true) : memGet (m.filter p) c = memGet m c := by
  induction m with
  | nil => rfl
  | cons e t ih =>
    obtain ⟨j, w⟩ := e
    by_cases hj : j = c
    · subst hj; simp [h, memGet]
    · by_cases hp : p (j, w) = true <;> simp [hp, memGet, hj, ih]

theorem memGet_filter_off (m : List Host.Cell) (p : Host.Cell → Bool) (c : Nat) (h : ∀ v, p (c, v) = false) : memGet (m.filter p) c = 0 := by
  induction m with
  | nil => rfl
  | cons e t ih =>
    obtain ⟨j, w⟩ := e
    by_cases hp : p (j, w) = true
    · have hj : j ≠ c := by rintro rfl; simp [h] at hp
      simp [hp, memGet, hj, ih]
    · simp [hp, ih]

theorem memGet_memSet_self (m : List Host.Cell) (a : Nat) (v : Byte) : memGet (memSet m a v) a = v := by
  unfold memSet
  split
  · next h => rw [memGet_filter_off _ _ _ (by simp), h]
  · exact memGet_memPut_self m a v

theorem memGet_memSet_ne (m : List Host.Cell) {a c : Nat} (h : c ≠ a) (v : Byte) : memGet (memSet m a v) c = memGet m c := by
  unfold memSet
  split
  · exact memGet_filter_ne _ _ _ (by simp [h])
  · exact memGet_memPut_ne m h v

theorem memGet_memSetN_out (vs : List Byte) : ∀ (m : List Host.Cell) (a c : Nat), (c < a ∨ a + vs.length ≤ c) → memGet (memSetN m a vs) c = memGet m c := by
  induction vs with
  | nil => intro m a c _; rfl
  | cons v vs ih =>
    intro m a c h
    simp only [List.length_cons] at h
    rw [memSetN, ih _ _ _ (by omega), memGet_memSet_ne _ (by omega)]

theorem memGet_memSetN_in (vs : List Byte) : ∀ (m : List Host.Cell) (a i : Nat) (h : i < vs.length), memGet (memSetN m a vs) (a + i) = vs[i] := by
  induction vs with
  | nil => intro m a i h; simp at h
  | cons v vs ih =>
    intro m a i h
    cases i with
    | zero => simp [memSetN, memGet_memSetN_out vs _ _ _ (Or.inl (Nat.lt_succ_self a)), memGet_memSet_self]
    | succ j =>
      have hj : j < vs.length := by simpa using h
      have := ih (memSet m a v) (a + 1) j hj
      rw [show a + (j + 1) = a + 1 + j by omega, memSetN]
      simpa using this

/-! The canonical form. -/

theorem Memory.wf_nil : Memory.wf [] := ⟨List.Pairwise.nil, by simp⟩

theorem Memory.wf_filter {m : List Host.Cell} (h : Memory.wf m) (p : Host.Cell → Bool) : Memory.wf (m.filter p) :=
  ⟨h.1.filter p, fun c hc => h.2 c (List.mem_filter.mp hc).1⟩

theorem mem_memPut {m : List Host.Cell} {a : Nat} {v : Byte} {c : Host.Cell} (h : c ∈ memPut m a v) : c = (a, v) ∨ c ∈ m := by
  induction m with
  | nil => simpa [memPut] using h
  | cons e t ih =>
    obtain ⟨j, w⟩ := e
    simp only [memPut] at h
    split at h
    · simp only [List.mem_cons] at h ⊢; tauto
    · split at h
      · simp only [List.mem_cons] at h ⊢; tauto
      · simp only [List.mem_cons] at h ⊢
        rcases h with h | h
        · tauto
        · rcases ih h with h | h <;> tauto

theorem Memory.wf_memPut {m : List Host.Cell} (h : Memory.wf m) (a : Nat) {v : Byte} (hv : v ≠ 0) : Memory.wf (memPut m a v) := by
  constructor
  · have hp := h.1
    clear h
    induction m with
    | nil => simp [memPut]
    | cons e t ih =>
      obtain ⟨j, w⟩ := e
      rw [List.pairwise_cons] at hp
      simp only [memPut]
      split
      · next hj => subst hj; exact List.pairwise_cons.mpr ⟨hp.1, hp.2⟩
      · split
        · next hlt =>
          refine List.pairwise_cons.mpr ⟨?_, List.pairwise_cons.mpr hp⟩
          intro c hc
          rcases List.mem_cons.mp hc with rfl | hc
          · exact hlt
          · exact lt_trans hlt (hp.1 c hc)
        · refine List.pairwise_cons.mpr ⟨?_, ih hp.2⟩
          intro c hc
          rcases mem_memPut hc with rfl | hc
          · simp only; omega
          · exact hp.1 c hc
  · intro c hc
    rcases mem_memPut hc with rfl | hc
    · exact hv
    · exact h.2 c hc

theorem Memory.wf_memSet {m : List Host.Cell} (h : Memory.wf m) (a : Nat) (v : Byte) : Memory.wf (memSet m a v) := by
  unfold memSet
  split
  · exact Memory.wf_filter h _
  · next hv => exact Memory.wf_memPut h a hv

theorem Memory.wf_memSetN (vs : List Byte) : ∀ {m : List Host.Cell} (_ : Memory.wf m) (a : Nat), Memory.wf (memSetN m a vs) := by
  induction vs with
  | nil => intro m h a; exact h
  | cons v vs ih => intro m h a; exact ih (Memory.wf_memSet h a v) (a + 1)

theorem State.wf_writeN {s : State} (h : Memory.wf s.mem) (a : Nat) (vs : List Byte) : Memory.wf (s.writeN a vs).mem :=
  Memory.wf_memSetN vs h a

theorem State.wf_zeroRange {s : State} (h : Memory.wf s.mem) (base n : Nat) : Memory.wf (s.zeroRange base n).mem :=
  Memory.wf_filter h _

/-! Bytes of a state. -/

theorem State.byte_writeN_out (s : State) (a c : Nat) (vs : List Byte) (h : c < a ∨ a + vs.length ≤ c) : (s.writeN a vs).byte c = s.byte c :=
  memGet_memSetN_out vs s.mem a c h

theorem State.byte_writeN_in (s : State) (a i : Nat) (vs : List Byte) (h : i < vs.length) : (s.writeN a vs).byte (a + i) = vs[i] :=
  memGet_memSetN_in vs s.mem a i h

theorem State.byte_zeroRange (s : State) (base n c : Nat) :
    (s.zeroRange base n).byte c = if base ≤ c ∧ c < base + n then 0 else s.byte c := by
  unfold State.byte State.zeroRange
  split
  · next h => exact memGet_filter_off _ _ _ (by simp [h])
  · next h => exact memGet_filter_ne _ _ _ (by intro v; simp only [not_and, not_lt] at h; simp; omega)

/-! Poison and dead channels (R415, R420): a change of a strand that keeps what its L1 holds leaves them as they are. -/

theorem State.l1_modStrand (s : State) (b k c j : Nat) {f : Strand → Strand} (h : ∀ t, (f t).l1 = t.l1) :
    ((s.modStrand b k f).strand c j).l1 = (s.strand c j).l1 := by
  by_cases hk : 4 * c + j = 4 * b + k
  · simp only [State.strand, State.modStrand, State.setStrand, hk, Store.get_put_self, h]
  · simp only [State.strand, State.modStrand, State.setStrand, Store.get_put_ne _ hk]

theorem State.cached_modStrand (s : State) (b k : Nat) {f : Strand → Strand} (h : ∀ t, (f t).l1 = t.l1) (l : Nat) :
    (s.modStrand b k f).cached l = s.cached l := by
  simp only [State.cached, State.l1_modStrand s b k _ _ h]
  rfl

theorem State.deadLine_modStrand (s : State) (b k : Nat) {f : Strand → Strand} (h : ∀ t, (f t).l1 = t.l1) (l : Nat) :
    (s.modStrand b k f).deadLine l = s.deadLine l := by
  simp only [State.deadLine, State.cached_modStrand s b k h]
  rfl

theorem State.poisoned_modStrand (s : State) (b k : Nat) {f : Strand → Strand} (h : ∀ t, (f t).l1 = t.l1) (pa n : Nat) :
    (s.modStrand b k f).poisoned pa n = s.poisoned pa n := by
  simp only [State.poisoned, funext (State.deadLine_modStrand s b k h)]
  rfl

theorem State.deadLines_modStrand (s : State) (b k : Nat) {f : Strand → Strand} (h : ∀ t, (f t).l1 = t.l1) (st : Bool) (pa n : Nat) :
    (s.modStrand b k f).deadLines st pa n = s.deadLines st pa n := by
  simp only [State.deadLines, State.deadLine_modStrand s b k h]
  rfl

theorem State.markWrite_mem (s : State) (bad : Bool) (pa n : Nat) : (s.markWrite bad pa n).mem = s.mem := by
  unfold State.markWrite
  repeat' split
  all_goals rfl

theorem State.wf_failLine {s : State} (h : Memory.wf s.mem) (l : Nat) : Memory.wf (s.failLine l).mem := by
  unfold State.failLine
  rw [State.markWrite_mem]
  split
  · exact State.wf_writeN (by exact h) l _
  · exact State.wf_writeN h l _

theorem State.wf_failLines {s : State} (h : Memory.wf s.mem) (st : Bool) (pa n : Nat) : Memory.wf (s.failLines st pa n).mem :=
  List.foldlRecOn (motive := fun (s : State) => Memory.wf s.mem) _ _ h fun _ h l _ => State.wf_failLine h l

/-- What does not transfer a line through a dead channel loses none. -/
theorem State.failLines_none {s : State} {st : Bool} {pa n : Nat} (h : s.deadLines st pa n = []) : s.failLines st pa n = s := by
  simp [State.failLines, h]

end Sys2Proof.Machine
end

