-- ==== Sys2Proof/Laws/PerInstr.lean ====
section
/-!
SUPPORT. Per instruction: the fields of an operation fit beside its opcode in 32 bits, and an operation of slot C leaves the seven SURR bits
zero (R163, R164). The encoding is no longer than a word and a long immediate.
-/

namespace Sys2Proof.Laws

theorem toBits_lt (o : Operand) : o.toBits < 256 := by
  cases o <;> simp only [Operand.toBits] <;> omega

theorem bit_lt (b : Bool) : bit b < 2 := by cases b <;> decide

/-! The fields of each format. -/

theorem FmtCZ_fits (f : FmtCZ) : f.pack < 2 ^ 18 := by
  have h0 := f.pred.isLt
  simp only [FmtCZ.pack] at *
  omega

theorem FmtCB_fits (f : FmtCB) : f.pack < 2 ^ 18 := by
  have h0 := f.pred.isLt
  have h1 := f.off.isLt
  simp only [FmtCB.pack] at *
  omega

theorem FmtCL_fits (f : FmtCL) : f.pack < 2 ^ 18 := by
  have h0 := f.pred.isLt
  simp only [FmtCL.pack] at *
  omega

theorem FmtCO_fits (f : FmtCO) : f.pack < 2 ^ 18 := by
  have h0 := f.pred.isLt
  have h1 := toBits_lt f.tgt
  simp only [FmtCO.pack] at *
  omega

theorem FmtCR_fits (f : FmtCR) : f.pack < 2 ^ 18 := by
  have h0 := f.pred.isLt
  have h1 := toBits_lt f.cnt
  have h2 := f.len.isLt
  simp only [FmtCR.pack] at *
  omega

theorem FmtCRL_fits (f : FmtCRL) : f.pack < 2 ^ 18 := by
  have h0 := f.pred.isLt
  have h1 := f.len.isLt
  simp only [FmtCRL.pack] at *
  omega

theorem FmtCX_fits (f : FmtCX) : f.pack < 2 ^ 18 := by
  have h0 := f.pred.isLt
  have h1 := f.code.isLt
  simp only [FmtCX.pack] at *
  omega

theorem FmtCBar_fits (f : FmtCBar) : f.pack < 2 ^ 18 := by
  have h0 := f.pred.isLt
  have h1 := f.bar.isLt
  simp only [FmtCBar.pack] at *
  omega

theorem FmtAR_fits (f : FmtAR) : f.pack < 2 ^ 26 := by
  have h0 := f.pred.isLt
  have h1 := f.dst.isLt
  have h2 := toBits_lt f.a
  have h3 := toBits_lt f.b
  have h4 := bit_lt f.ws
  simp only [FmtAR.pack] at *
  omega

theorem FmtAX_fits (f : FmtAX) : f.pack < 2 ^ 26 := by
  have h0 := f.pred.isLt
  have h1 := f.dst.isLt
  have h2 := toBits_lt f.a
  have h3 := toBits_lt f.b
  have h4 := bit_lt f.ws
  simp only [FmtAX.pack] at *
  omega

theorem FmtAI_fits (f : FmtAI) : f.pack < 2 ^ 26 := by
  have h0 := f.pred.isLt
  have h1 := f.dst.isLt
  have h2 := toBits_lt f.a
  have h3 := f.imm.isLt
  have h4 := bit_lt f.ws
  simp only [FmtAI.pack] at *
  omega

theorem FmtAS_fits (f : FmtAS) : f.pack < 2 ^ 26 := by
  have h0 := f.pred.isLt
  have h1 := f.dst.isLt
  have h2 := toBits_lt f.a
  have h3 := f.n.isLt
  have h4 := bit_lt f.ws
  simp only [FmtAS.pack] at *
  omega

theorem FmtAU_fits (f : FmtAU) : f.pack < 2 ^ 26 := by
  have h0 := f.pred.isLt
  have h1 := f.dst.isLt
  have h2 := toBits_lt f.a
  have h3 := bit_lt f.ws
  simp only [FmtAU.pack] at *
  omega

theorem FmtAC_fits (f : FmtAC) : f.pack < 2 ^ 26 := by
  have h0 := f.pred.isLt
  have h1 := f.cond.isLt
  have h2 := f.pd.isLt
  have h3 := toBits_lt f.a
  have h4 := toBits_lt f.b
  have h5 := bit_lt f.ws
  simp only [FmtAC.pack] at *
  omega

theorem FmtACI_fits (f : FmtACI) : f.pack < 2 ^ 26 := by
  have h0 := f.pred.isLt
  have h1 := f.cond.isLt
  have h2 := f.pd.isLt
  have h3 := toBits_lt f.a
  have h4 := f.imm.isLt
  have h5 := bit_lt f.ws
  simp only [FmtACI.pack] at *
  omega

theorem FmtAL_fits (f : FmtAL) : f.pack < 2 ^ 26 := by
  have h0 := f.pred.isLt
  have h1 := f.dst.isLt
  have h2 := bit_lt f.ws
  simp only [FmtAL.pack] at *
  omega

theorem FmtAV_fits (f : FmtAV) : f.pack < 2 ^ 26 := by
  have h0 := f.pred.isLt
  have h1 := f.dst.isLt
  have h2 := toBits_lt f.a
  have h3 := f.cvTo.isLt
  have h4 := f.cvFrom.isLt
  have h5 := bit_lt f.ws
  simp only [FmtAV.pack] at *
  omega

theorem FmtBKw_fits (f : FmtBKw) : f.pack < 2 ^ 26 := by
  have h0 := f.pred.isLt
  have h1 := f.k.isLt
  have h2 := toBits_lt f.b
  have h3 := bit_lt f.ws
  simp only [FmtBKw.pack] at *
  omega

theorem FmtBKr_fits (f : FmtBKr) : f.pack < 2 ^ 26 := by
  have h0 := f.pred.isLt
  have h1 := f.dst.isLt
  have h2 := f.k.isLt
  have h3 := bit_lt f.ws
  simp only [FmtBKr.pack] at *
  omega

theorem FmtBG_fits (f : FmtBG) : f.pack < 2 ^ 26 := by
  have h0 := f.pred.isLt
  have h1 := f.dst.isLt
  have h2 := f.num.isLt
  have h3 := bit_lt f.ws
  simp only [FmtBG.pack] at *
  omega

theorem FmtBS_fits (f : FmtBS) : f.pack < 2 ^ 26 := by
  have h0 := f.pred.isLt
  have h1 := f.num.isLt
  have h2 := toBits_lt f.b
  simp only [FmtBS.pack] at *
  omega

theorem FmtBP2_fits (f : FmtBP2) : f.pack < 2 ^ 26 := by
  have h0 := f.pred.isLt
  have h1 := f.pd.isLt
  have h2 := f.pa.isLt
  have h3 := f.pb.isLt
  have h4 := bit_lt f.ws
  simp only [FmtBP2.pack] at *
  omega

theorem FmtBP1_fits (f : FmtBP1) : f.pack < 2 ^ 26 := by
  have h0 := f.pred.isLt
  have h1 := f.pd.isLt
  have h2 := f.pa.isLt
  have h3 := bit_lt f.ws
  simp only [FmtBP1.pack] at *
  omega

theorem FmtBD_fits (f : FmtBD) : f.pack < 2 ^ 26 := by
  have h0 := f.pred.isLt
  have h1 := f.dst.isLt
  have h2 := bit_lt f.ws
  simp only [FmtBD.pack] at *
  omega

theorem FmtBPs_fits (f : FmtBPs) : f.pack < 2 ^ 26 := by
  have h0 := f.pred.isLt
  have h1 := f.msk.isLt
  have h2 := toBits_lt f.b
  have h3 := bit_lt f.ws
  simp only [FmtBPs.pack] at *
  omega

theorem FmtBPm_fits (f : FmtBPm) : f.pack < 2 ^ 26 := by
  have h0 := f.pred.isLt
  have h1 := f.dst.isLt
  have h2 := toBits_lt f.a
  have h3 := bit_lt f.ws
  simp only [FmtBPm.pack] at *
  omega

theorem FmtML_fits (f : FmtML) : f.pack < 2 ^ 27 := by
  have h0 := f.pred.isLt
  have h1 := f.cls.isLt
  have h2 := f.dst.isLt
  have h3 := toBits_lt f.base
  have h4 := f.off.isLt
  simp only [FmtML.pack] at *
  omega

theorem FmtMP_fits (f : FmtMP) : f.pack < 2 ^ 27 := by
  have h0 := f.pred.isLt
  have h1 := f.cls.isLt
  have h2 := toBits_lt f.base
  have h3 := f.off.isLt
  simp only [FmtMP.pack] at *
  omega

theorem FmtMS_fits (f : FmtMS) : f.pack < 2 ^ 27 := by
  have h0 := f.pred.isLt
  have h1 := f.cls.isLt
  have h2 := toBits_lt f.data
  have h3 := toBits_lt f.base
  have h4 := f.off.isLt
  simp only [FmtMS.pack] at *
  omega

theorem FmtMT_fits (f : FmtMT) : f.pack < 2 ^ 27 := by
  have h0 := f.pred.isLt
  have h1 := f.cls.isLt
  have h2 := f.tile.isLt
  have h3 := f.row.isLt
  have h4 := toBits_lt f.base
  have h5 := f.off.isLt
  simp only [FmtMT.pack] at *
  omega

theorem FmtMA_fits (f : FmtMA) : f.pack < 2 ^ 27 := by
  have h0 := f.pred.isLt
  have h1 := f.cls.isLt
  have h2 := f.dst.isLt
  have h3 := toBits_lt f.base
  have h4 := f.data.isLt
  simp only [FmtMA.pack] at *
  omega

theorem FmtMFc_fits (f : FmtMFc) : f.pack < 2 ^ 27 := by
  have h0 := f.pred.isLt
  have h1 := f.msk.isLt
  simp only [FmtMFc.pack] at *
  omega

theorem FmtMFx_fits (f : FmtMFx) : f.pack < 2 ^ 27 := by
  have h0 := f.pred.isLt
  have h1 := f.paths.isLt
  simp only [FmtMFx.pack] at *
  omega

theorem FmtMZ_fits (f : FmtMZ) : f.pack < 2 ^ 27 := by
  have h0 := f.pred.isLt
  simp only [FmtMZ.pack] at *
  omega

theorem FmtMIl_fits (f : FmtMIl) : f.pack < 2 ^ 27 := by
  have h0 := f.pred.isLt
  have h1 := f.dst.isLt
  have h2 := toBits_lt f.a
  have h3 := toBits_lt f.n
  simp only [FmtMIl.pack] at *
  omega

theorem FmtMIu_fits (f : FmtMIu) : f.pack < 2 ^ 27 := by
  have h0 := f.pred.isLt
  have h1 := toBits_lt f.a
  have h2 := toBits_lt f.n
  simp only [FmtMIu.pack] at *
  omega

theorem FmtMSl_fits (f : FmtMSl) : f.pack < 7 * 2 ^ 24 + 2 ^ 21 := by
  have h0 := f.pred.isLt
  have h1 := f.dst.isLt
  have h2 := toBits_lt f.x
  simp only [FmtMSl.pack] at *
  omega

theorem FmtV_fits (f : FmtV) : f.pack < 2 ^ 26 := by
  have h0 := f.pred.isLt
  have h1 := f.row.isLt
  have h2 := f.td.isLt
  have h3 := f.ta.isLt
  have h4 := f.tb.isLt
  have h5 := f.ty.isLt
  have h6 := f.msk.isLt
  simp only [FmtV.pack] at *
  omega

theorem FmtVS_fits (f : FmtVS) : f.pack < 2 ^ 26 := by
  have h0 := f.pred.isLt
  have h1 := f.row.isLt
  have h2 := f.td.isLt
  have h3 := f.tb.isLt
  have h4 := f.ty.isLt
  have h5 := f.msk.isLt
  simp only [FmtVS.pack] at *
  omega

theorem FmtVF_fits (f : FmtVF) : f.pack < 2 ^ 26 := by
  have h0 := f.pred.isLt
  have h1 := f.row.isLt
  have h2 := f.td.isLt
  have h3 := f.ta.isLt
  have h4 := f.tb.isLt
  have h5 := f.idx.isLt
  simp only [FmtVF.pack] at *
  omega

theorem FmtXL_fits (f : FmtXL) : f.pack < 2 ^ 27 := by
  have h0 := f.pred.isLt
  have h1 := f.n.isLt
  simp only [FmtXL.pack] at *
  omega

theorem FmtXZ_fits (f : FmtXZ) : f.pack < 2 ^ 27 := by
  have h0 := f.pred.isLt
  simp only [FmtXZ.pack] at *
  omega

theorem FmtXD_fits (f : FmtXD) : f.pack < 2 ^ 27 := by
  have h0 := f.pred.isLt
  have h1 := toBits_lt f.off
  have h2 := f.key.isLt
  have h3 := f.fb.isLt
  have h4 := f.sb.isLt
  simp only [FmtXD.pack] at *
  omega

theorem FmtXM_fits (f : FmtXM) : f.pack < 2 ^ 27 := by
  have h0 := f.pred.isLt
  have h1 := f.ta.isLt
  have h2 := f.g.isLt
  have h3 := f.sb.isLt
  have h4 := f.fa.isLt
  have h5 := f.za.isLt
  simp only [FmtXM.pack] at *
  omega

theorem FmtXR_fits (f : FmtXR) : f.pack < 2 ^ 27 := by
  have h0 := f.pred.isLt
  have h1 := f.bank.isLt
  have h2 := f.brow.isLt
  have h3 := f.tile.isLt
  have h4 := f.trow.isLt
  have h5 := f.ty.isLt
  simp only [FmtXR.pack] at *
  omega

theorem FmtXB_fits (f : FmtXB) : f.pack < 2 ^ 27 := by
  have h0 := f.pred.isLt
  have h1 := f.bank.isLt
  simp only [FmtXB.pack] at *
  omega

theorem FmtXK_fits (f : FmtXK) : f.pack < 2 ^ 27 := by
  have h0 := f.pred.isLt
  have h1 := f.key.isLt
  simp only [FmtXK.pack] at *
  omega

theorem FmtXC_fits (f : FmtXC) : f.pack < 2 ^ 27 := by
  have h0 := f.pred.isLt
  have h1 := f.dst.isLt
  have h2 := toBits_lt f.reg
  simp only [FmtXC.pack] at *
  omega

theorem FmtXS_fits (f : FmtXS) : f.pack < 2 ^ 27 := by
  have h0 := f.pred.isLt
  have h1 := f.dst.isLt
  have h2 := f.bank.isLt
  simp only [FmtXS.pack] at *
  omega

theorem FmtE_fits (f : FmtE) : f.pack < 2 ^ 26 := by
  have h0 := f.pred.isLt
  have h1 := f.cls.isLt
  have h2 := f.evt.isLt
  have h3 := f.kb.isLt
  have h4 := f.flags.isLt
  simp only [FmtE.pack] at *
  omega

theorem FmtFS_fits (f : FmtFS) : f.pack < 2 ^ 27 := by
  have h0 := f.scope.isLt
  simp only [FmtFS.pack] at *
  omega

theorem FmtFL_fits (f : FmtFL) : f.pack < 2 ^ 27 := by
  have h0 := f.pred.isLt
  have h1 := f.z.isLt
  have h2 := toBits_lt f.base
  have h3 := f.cls.isLt
  simp only [FmtFL.pack] at *
  omega

theorem FmtFW_fits (f : FmtFW) : f.pack < 2 ^ 27 := by
  have h0 := f.pred.isLt
  have h1 := f.f.isLt
  have h2 := toBits_lt f.a
  simp only [FmtFW.pack] at *
  omega

theorem FmtFR_fits (f : FmtFR) : f.pack < 2 ^ 27 := by
  have h0 := f.pred.isLt
  have h1 := f.f.isLt
  have h2 := f.dst.isLt
  simp only [FmtFR.pack] at *
  omega

theorem FmtFB_fits (f : FmtFB) : f.pack < 2 ^ 27 := by
  have h0 := f.pred.isLt
  have h1 := f.row.isLt
  have h2 := f.td.isLt
  have h3 := f.ta.isLt
  have h4 := f.id.isLt
  simp only [FmtFB.pack] at *
  omega

theorem FmtFF_fits (f : FmtFF) : f.pack < 2 ^ 27 := by
  have h0 := f.pred.isLt
  have h1 := f.row.isLt
  have h2 := f.td.isLt
  have h3 := f.ta.isLt
  simp only [FmtFF.pack] at *
  omega

theorem FmtFT_fits (f : FmtFT) : f.pack < 2 ^ 27 := by
  have h0 := f.pred.isLt
  have h1 := f.dst.isLt
  have h2 := toBits_lt f.a
  simp only [FmtFT.pack] at *
  omega

theorem FmtFH_fits (f : FmtFH) : f.pack < 2 ^ 27 := by
  have h0 := f.pred.isLt
  have h1 := f.pay.isLt
  simp only [FmtFH.pack] at *
  omega

theorem FmtFD_fits (f : FmtFD) : f.pack < 2 ^ 27 := by
  have h0 := f.pred.isLt
  have h1 := toBits_lt f.a
  simp only [FmtFD.pack] at *
  omega

/-! The claim of the family. -/

/-- The operation's own word fits, and slot C's leaves bits 31 to 25 zero. -/
def Encoded.Statement (i : Instr) : Prop :=
  encodeNat i < 2 ^ 32 ∧ (i.slot = some 0 → encodeNat i < 2 ^ 25) ∧ (encode i).length ≤ 2

/-- One word, or one word and its long immediate. -/
theorem length_encode (i : Instr) : (encode i).length ≤ 2 := by
  unfold encode
  split
  · simp
  · cases i.long <;> simp

/-- A step of the device has no word. -/
theorem Encoded.of_zero {i : Instr} (h : encodeNat i = 0) : Encoded.Statement i :=
  ⟨by rw [h]; decide, fun _ => by rw [h]; decide, length_encode i⟩

/-- An operation of another slot than C. -/
theorem Encoded.of_fits {i : Instr} {op n m : Nat} (h : encodeNat i = place op n) (hn : n < m) (hw : op + m ≤ 2 ^ 32) (hs : i.slot ≠ some 0) :
    Encoded.Statement i :=
  ⟨by rw [h]; unfold place; omega, fun e => absurd e hs, length_encode i⟩

theorem slot_pos (k : Nat) : some (k + 1) ≠ some 0 := by simp

theorem num_slot (sl : ScalarSlot) : some sl.num ≠ some 0 := by cases sl <;> decide

/-- An operation of slot C. -/
theorem Encoded.of_fits_c {i : Instr} {op n : Nat} (h : encodeNat i = place op n) (hn : n < 2 ^ 18) (hw : op + 2 ^ 18 ≤ 2 ^ 25) : Encoded.Statement i :=
  ⟨by rw [h]; unfold place; omega, fun _ => by rw [h]; unfold place; omega, length_encode i⟩

theorem Encoded.nopC : Encoded.Statement .nopC := Encoded.of_zero rfl
theorem Encoded.br (f : FmtCB) : Encoded.Statement (.br f) := Encoded.of_fits_c rfl (FmtCB_fits f) (Nat.le_of_ble_eq_true rfl)
theorem Encoded.brn (f : FmtCB) : Encoded.Statement (.brn f) := Encoded.of_fits_c rfl (FmtCB_fits f) (Nat.le_of_ble_eq_true rfl)
theorem Encoded.brL (f : FmtCL) : Encoded.Statement (.brL f) := Encoded.of_fits_c rfl (FmtCL_fits f) (Nat.le_of_ble_eq_true rfl)
theorem Encoded.bri (f : FmtCO) : Encoded.Statement (.bri f) := Encoded.of_fits_c rfl (FmtCO_fits f) (Nat.le_of_ble_eq_true rfl)
theorem Encoded.call (f : FmtCB) : Encoded.Statement (.call f) := Encoded.of_fits_c rfl (FmtCB_fits f) (Nat.le_of_ble_eq_true rfl)
theorem Encoded.callL (f : FmtCL) : Encoded.Statement (.callL f) := Encoded.of_fits_c rfl (FmtCL_fits f) (Nat.le_of_ble_eq_true rfl)
theorem Encoded.calli (f : FmtCO) : Encoded.Statement (.calli f) := Encoded.of_fits_c rfl (FmtCO_fits f) (Nat.le_of_ble_eq_true rfl)
theorem Encoded.ret (f : FmtCZ) : Encoded.Statement (.ret f) := Encoded.of_fits_c rfl (FmtCZ_fits f) (Nat.le_of_ble_eq_true rfl)
theorem Encoded.loop (f : FmtCR) : Encoded.Statement (.loop f) := Encoded.of_fits_c rfl (FmtCR_fits f) (Nat.le_of_ble_eq_true rfl)
theorem Encoded.loopr (f : FmtCR) : Encoded.Statement (.loopr f) := Encoded.of_fits_c rfl (FmtCR_fits f) (Nat.le_of_ble_eq_true rfl)
theorem Encoded.loopL (f : FmtCRL) : Encoded.Statement (.loopL f) := Encoded.of_fits_c rfl (FmtCRL_fits f) (Nat.le_of_ble_eq_true rfl)
theorem Encoded.leave (f : FmtCZ) : Encoded.Statement (.leave f) := Encoded.of_fits_c rfl (FmtCZ_fits f) (Nat.le_of_ble_eq_true rfl)
theorem Encoded.safe (f : FmtCX) : Encoded.Statement (.safe f) := Encoded.of_fits_c rfl (FmtCX_fits f) (Nat.le_of_ble_eq_true rfl)
theorem Encoded.yield (f : FmtCZ) : Encoded.Statement (.yield f) := Encoded.of_fits_c rfl (FmtCZ_fits f) (Nat.le_of_ble_eq_true rfl)
theorem Encoded.halt (f : FmtCZ) : Encoded.Statement (.halt f) := Encoded.of_fits_c rfl (FmtCZ_fits f) (Nat.le_of_ble_eq_true rfl)
theorem Encoded.trap (f : FmtCX) : Encoded.Statement (.trap f) := Encoded.of_fits_c rfl (FmtCX_fits f) (Nat.le_of_ble_eq_true rfl)
theorem Encoded.brk (f : FmtCX) : Encoded.Statement (.brk f) := Encoded.of_fits_c rfl (FmtCX_fits f) (Nat.le_of_ble_eq_true rfl)
theorem Encoded.barArr (f : FmtCBar) : Encoded.Statement (.barArr f) := Encoded.of_fits_c rfl (FmtCBar_fits f) (Nat.le_of_ble_eq_true rfl)
theorem Encoded.barWait (f : FmtCBar) : Encoded.Statement (.barWait f) := Encoded.of_fits_c rfl (FmtCBar_fits f) (Nat.le_of_ble_eq_true rfl)
theorem Encoded.barSync (f : FmtCBar) : Encoded.Statement (.barSync f) := Encoded.of_fits_c rfl (FmtCBar_fits f) (Nat.le_of_ble_eq_true rfl)
theorem Encoded.eret (f : FmtCZ) : Encoded.Statement (.eret f) := Encoded.of_fits_c rfl (FmtCZ_fits f) (Nat.le_of_ble_eq_true rfl)
theorem Encoded.nop (sl : ScalarSlot) : Encoded.Statement (.nop sl) := Encoded.of_zero rfl
theorem Encoded.add (f : FmtAR) : Encoded.Statement (.add f) := Encoded.of_fits rfl (FmtAR_fits f) (Nat.le_of_ble_eq_true rfl) (num_slot f.sl)
theorem Encoded.addi (f : FmtAI) : Encoded.Statement (.addi f) := Encoded.of_fits rfl (FmtAI_fits f) (Nat.le_of_ble_eq_true rfl) (num_slot f.sl)
theorem Encoded.sub (f : FmtAR) : Encoded.Statement (.sub f) := Encoded.of_fits rfl (FmtAR_fits f) (Nat.le_of_ble_eq_true rfl) (num_slot f.sl)
theorem Encoded.mul (f : FmtAR) : Encoded.Statement (.mul f) := Encoded.of_fits rfl (FmtAR_fits f) (Nat.le_of_ble_eq_true rfl) (num_slot f.sl)
theorem Encoded.mulhI (f : FmtAR) : Encoded.Statement (.mulhI f) := Encoded.of_fits rfl (FmtAR_fits f) (Nat.le_of_ble_eq_true rfl) (num_slot f.sl)
theorem Encoded.mulhW (f : FmtAR) : Encoded.Statement (.mulhW f) := Encoded.of_fits rfl (FmtAR_fits f) (Nat.le_of_ble_eq_true rfl) (num_slot f.sl)
theorem Encoded.divI (f : FmtAR) : Encoded.Statement (.divI f) := Encoded.of_fits rfl (FmtAR_fits f) (Nat.le_of_ble_eq_true rfl) (num_slot f.sl)
theorem Encoded.divW (f : FmtAR) : Encoded.Statement (.divW f) := Encoded.of_fits rfl (FmtAR_fits f) (Nat.le_of_ble_eq_true rfl) (num_slot f.sl)
theorem Encoded.remI (f : FmtAR) : Encoded.Statement (.remI f) := Encoded.of_fits rfl (FmtAR_fits f) (Nat.le_of_ble_eq_true rfl) (num_slot f.sl)
theorem Encoded.remW (f : FmtAR) : Encoded.Statement (.remW f) := Encoded.of_fits rfl (FmtAR_fits f) (Nat.le_of_ble_eq_true rfl) (num_slot f.sl)
theorem Encoded.and (f : FmtAR) : Encoded.Statement (.and f) := Encoded.of_fits rfl (FmtAR_fits f) (Nat.le_of_ble_eq_true rfl) (num_slot f.sl)
theorem Encoded.or (f : FmtAR) : Encoded.Statement (.or f) := Encoded.of_fits rfl (FmtAR_fits f) (Nat.le_of_ble_eq_true rfl) (num_slot f.sl)
theorem Encoded.xor (f : FmtAR) : Encoded.Statement (.xor f) := Encoded.of_fits rfl (FmtAR_fits f) (Nat.le_of_ble_eq_true rfl) (num_slot f.sl)
theorem Encoded.andn (f : FmtAR) : Encoded.Statement (.andn f) := Encoded.of_fits rfl (FmtAR_fits f) (Nat.le_of_ble_eq_true rfl) (num_slot f.sl)
theorem Encoded.andi (f : FmtAI) : Encoded.Statement (.andi f) := Encoded.of_fits rfl (FmtAI_fits f) (Nat.le_of_ble_eq_true rfl) (num_slot f.sl)
theorem Encoded.ori (f : FmtAI) : Encoded.Statement (.ori f) := Encoded.of_fits rfl (FmtAI_fits f) (Nat.le_of_ble_eq_true rfl) (num_slot f.sl)
theorem Encoded.xori (f : FmtAI) : Encoded.Statement (.xori f) := Encoded.of_fits rfl (FmtAI_fits f) (Nat.le_of_ble_eq_true rfl) (num_slot f.sl)
theorem Encoded.shl (f : FmtAX) : Encoded.Statement (.shl f) := Encoded.of_fits rfl (FmtAX_fits f) (Nat.le_of_ble_eq_true rfl) (num_slot f.sl)
theorem Encoded.shr (f : FmtAX) : Encoded.Statement (.shr f) := Encoded.of_fits rfl (FmtAX_fits f) (Nat.le_of_ble_eq_true rfl) (num_slot f.sl)
theorem Encoded.sar (f : FmtAX) : Encoded.Statement (.sar f) := Encoded.of_fits rfl (FmtAX_fits f) (Nat.le_of_ble_eq_true rfl) (num_slot f.sl)
theorem Encoded.rol (f : FmtAX) : Encoded.Statement (.rol f) := Encoded.of_fits rfl (FmtAX_fits f) (Nat.le_of_ble_eq_true rfl) (num_slot f.sl)
theorem Encoded.shli (f : FmtAS) : Encoded.Statement (.shli f) := Encoded.of_fits rfl (FmtAS_fits f) (Nat.le_of_ble_eq_true rfl) (num_slot f.sl)
theorem Encoded.shri (f : FmtAS) : Encoded.Statement (.shri f) := Encoded.of_fits rfl (FmtAS_fits f) (Nat.le_of_ble_eq_true rfl) (num_slot f.sl)
theorem Encoded.sari (f : FmtAS) : Encoded.Statement (.sari f) := Encoded.of_fits rfl (FmtAS_fits f) (Nat.le_of_ble_eq_true rfl) (num_slot f.sl)
theorem Encoded.clz (f : FmtAU) : Encoded.Statement (.clz f) := Encoded.of_fits rfl (FmtAU_fits f) (Nat.le_of_ble_eq_true rfl) (num_slot f.sl)
theorem Encoded.ctz (f : FmtAU) : Encoded.Statement (.ctz f) := Encoded.of_fits rfl (FmtAU_fits f) (Nat.le_of_ble_eq_true rfl) (num_slot f.sl)
theorem Encoded.popc (f : FmtAU) : Encoded.Statement (.popc f) := Encoded.of_fits rfl (FmtAU_fits f) (Nat.le_of_ble_eq_true rfl) (num_slot f.sl)
theorem Encoded.minI (f : FmtAR) : Encoded.Statement (.minI f) := Encoded.of_fits rfl (FmtAR_fits f) (Nat.le_of_ble_eq_true rfl) (num_slot f.sl)
theorem Encoded.maxI (f : FmtAR) : Encoded.Statement (.maxI f) := Encoded.of_fits rfl (FmtAR_fits f) (Nat.le_of_ble_eq_true rfl) (num_slot f.sl)
theorem Encoded.minW (f : FmtAR) : Encoded.Statement (.minW f) := Encoded.of_fits rfl (FmtAR_fits f) (Nat.le_of_ble_eq_true rfl) (num_slot f.sl)
theorem Encoded.maxW (f : FmtAR) : Encoded.Statement (.maxW f) := Encoded.of_fits rfl (FmtAR_fits f) (Nat.le_of_ble_eq_true rfl) (num_slot f.sl)
theorem Encoded.cmp (f : FmtAC) : Encoded.Statement (.cmp f) := Encoded.of_fits rfl (FmtAC_fits f) (Nat.le_of_ble_eq_true rfl) (num_slot f.sl)
theorem Encoded.cmpi (f : FmtACI) : Encoded.Statement (.cmpi f) := Encoded.of_fits rfl (FmtACI_fits f) (Nat.le_of_ble_eq_true rfl) (num_slot f.sl)
theorem Encoded.sel (f : FmtAR) : Encoded.Statement (.sel f) := Encoded.of_fits rfl (FmtAR_fits f) (Nat.le_of_ble_eq_true rfl) (num_slot f.sl)
theorem Encoded.extI (f : FmtAX) : Encoded.Statement (.extI f) := Encoded.of_fits rfl (FmtAX_fits f) (Nat.le_of_ble_eq_true rfl) (num_slot f.sl)
theorem Encoded.extW (f : FmtAX) : Encoded.Statement (.extW f) := Encoded.of_fits rfl (FmtAX_fits f) (Nat.le_of_ble_eq_true rfl) (num_slot f.sl)
theorem Encoded.ins (f : FmtAX) : Encoded.Statement (.ins f) := Encoded.of_fits rfl (FmtAX_fits f) (Nat.le_of_ble_eq_true rfl) (num_slot f.sl)
theorem Encoded.movl (f : FmtAL) : Encoded.Statement (.movl f) := Encoded.of_fits rfl (FmtAL_fits f) (Nat.le_of_ble_eq_true rfl) (num_slot f.sl)
theorem Encoded.movh (f : FmtAL) : Encoded.Statement (.movh f) := Encoded.of_fits rfl (FmtAL_fits f) (Nat.le_of_ble_eq_true rfl) (num_slot f.sl)
theorem Encoded.fadd (f : FmtAR) : Encoded.Statement (.fadd f) := Encoded.of_fits rfl (FmtAR_fits f) (Nat.le_of_ble_eq_true rfl) (num_slot f.sl)
theorem Encoded.fsub (f : FmtAR) : Encoded.Statement (.fsub f) := Encoded.of_fits rfl (FmtAR_fits f) (Nat.le_of_ble_eq_true rfl) (num_slot f.sl)
theorem Encoded.fmul (f : FmtAR) : Encoded.Statement (.fmul f) := Encoded.of_fits rfl (FmtAR_fits f) (Nat.le_of_ble_eq_true rfl) (num_slot f.sl)
theorem Encoded.fmac (f : FmtAR) : Encoded.Statement (.fmac f) := Encoded.of_fits rfl (FmtAR_fits f) (Nat.le_of_ble_eq_true rfl) (num_slot f.sl)
theorem Encoded.fmin (f : FmtAR) : Encoded.Statement (.fmin f) := Encoded.of_fits rfl (FmtAR_fits f) (Nat.le_of_ble_eq_true rfl) (num_slot f.sl)
theorem Encoded.fmax (f : FmtAR) : Encoded.Statement (.fmax f) := Encoded.of_fits rfl (FmtAR_fits f) (Nat.le_of_ble_eq_true rfl) (num_slot f.sl)
theorem Encoded.fcmp (f : FmtAC) : Encoded.Statement (.fcmp f) := Encoded.of_fits rfl (FmtAC_fits f) (Nat.le_of_ble_eq_true rfl) (num_slot f.sl)
theorem Encoded.fcvt (f : FmtAV) : Encoded.Statement (.fcvt f) := Encoded.of_fits rfl (FmtAV_fits f) (Nat.le_of_ble_eq_true rfl) (num_slot f.sl)
theorem Encoded.kw (f : FmtBKw) : Encoded.Statement (.kw f) := Encoded.of_fits rfl (FmtBKw_fits f) (Nat.le_of_ble_eq_true rfl) (slot_pos 1)
theorem Encoded.kr (f : FmtBKr) : Encoded.Statement (.kr f) := Encoded.of_fits rfl (FmtBKr_fits f) (Nat.le_of_ble_eq_true rfl) (slot_pos 1)
theorem Encoded.gsr (f : FmtBG) : Encoded.Statement (.gsr f) := Encoded.of_fits rfl (FmtBG_fits f) (Nat.le_of_ble_eq_true rfl) (slot_pos 1)
theorem Encoded.ssr (f : FmtBS) : Encoded.Statement (.ssr f) := Encoded.of_fits rfl (FmtBS_fits f) (Nat.le_of_ble_eq_true rfl) (slot_pos 1)
theorem Encoded.pand (f : FmtBP2) : Encoded.Statement (.pand f) := Encoded.of_fits rfl (FmtBP2_fits f) (Nat.le_of_ble_eq_true rfl) (slot_pos 1)
theorem Encoded.por (f : FmtBP2) : Encoded.Statement (.por f) := Encoded.of_fits rfl (FmtBP2_fits f) (Nat.le_of_ble_eq_true rfl) (slot_pos 1)
theorem Encoded.pxor (f : FmtBP2) : Encoded.Statement (.pxor f) := Encoded.of_fits rfl (FmtBP2_fits f) (Nat.le_of_ble_eq_true rfl) (slot_pos 1)
theorem Encoded.pnot (f : FmtBP1) : Encoded.Statement (.pnot f) := Encoded.of_fits rfl (FmtBP1_fits f) (Nat.le_of_ble_eq_true rfl) (slot_pos 1)
theorem Encoded.pget (f : FmtBD) : Encoded.Statement (.pget f) := Encoded.of_fits rfl (FmtBD_fits f) (Nat.le_of_ble_eq_true rfl) (slot_pos 1)
theorem Encoded.pset (f : FmtBPs) : Encoded.Statement (.pset f) := Encoded.of_fits rfl (FmtBPs_fits f) (Nat.le_of_ble_eq_true rfl) (slot_pos 1)
theorem Encoded.rdcyc (f : FmtBD) : Encoded.Statement (.rdcyc f) := Encoded.of_fits rfl (FmtBD_fits f) (Nat.le_of_ble_eq_true rfl) (slot_pos 1)
theorem Encoded.param (f : FmtBPm) : Encoded.Statement (.param f) := Encoded.of_fits rfl (FmtBPm_fits f) (Nat.le_of_ble_eq_true rfl) (slot_pos 1)
theorem Encoded.nopM : Encoded.Statement .nopM := Encoded.of_zero rfl
theorem Encoded.ldI8 (f : FmtML) : Encoded.Statement (.ldI8 f) := Encoded.of_fits rfl (FmtML_fits f) (Nat.le_of_ble_eq_true rfl) (slot_pos 2)
theorem Encoded.ldW8 (f : FmtML) : Encoded.Statement (.ldW8 f) := Encoded.of_fits rfl (FmtML_fits f) (Nat.le_of_ble_eq_true rfl) (slot_pos 2)
theorem Encoded.ldI16 (f : FmtML) : Encoded.Statement (.ldI16 f) := Encoded.of_fits rfl (FmtML_fits f) (Nat.le_of_ble_eq_true rfl) (slot_pos 2)
theorem Encoded.ldW16 (f : FmtML) : Encoded.Statement (.ldW16 f) := Encoded.of_fits rfl (FmtML_fits f) (Nat.le_of_ble_eq_true rfl) (slot_pos 2)
theorem Encoded.ldI32 (f : FmtML) : Encoded.Statement (.ldI32 f) := Encoded.of_fits rfl (FmtML_fits f) (Nat.le_of_ble_eq_true rfl) (slot_pos 2)
theorem Encoded.ldW32 (f : FmtML) : Encoded.Statement (.ldW32 f) := Encoded.of_fits rfl (FmtML_fits f) (Nat.le_of_ble_eq_true rfl) (slot_pos 2)
theorem Encoded.ld64 (f : FmtML) : Encoded.Statement (.ld64 f) := Encoded.of_fits rfl (FmtML_fits f) (Nat.le_of_ble_eq_true rfl) (slot_pos 2)
theorem Encoded.st8 (f : FmtMS) : Encoded.Statement (.st8 f) := Encoded.of_fits rfl (FmtMS_fits f) (Nat.le_of_ble_eq_true rfl) (slot_pos 2)
theorem Encoded.st16 (f : FmtMS) : Encoded.Statement (.st16 f) := Encoded.of_fits rfl (FmtMS_fits f) (Nat.le_of_ble_eq_true rfl) (slot_pos 2)
theorem Encoded.st32 (f : FmtMS) : Encoded.Statement (.st32 f) := Encoded.of_fits rfl (FmtMS_fits f) (Nat.le_of_ble_eq_true rfl) (slot_pos 2)
theorem Encoded.st64 (f : FmtMS) : Encoded.Statement (.st64 f) := Encoded.of_fits rfl (FmtMS_fits f) (Nat.le_of_ble_eq_true rfl) (slot_pos 2)
theorem Encoded.ldt (f : FmtMT) : Encoded.Statement (.ldt f) := Encoded.of_fits rfl (FmtMT_fits f) (Nat.le_of_ble_eq_true rfl) (slot_pos 2)
theorem Encoded.stt (f : FmtMT) : Encoded.Statement (.stt f) := Encoded.of_fits rfl (FmtMT_fits f) (Nat.le_of_ble_eq_true rfl) (slot_pos 2)
theorem Encoded.ldtf (f : FmtMT) : Encoded.Statement (.ldtf f) := Encoded.of_fits rfl (FmtMT_fits f) (Nat.le_of_ble_eq_true rfl) (slot_pos 2)
theorem Encoded.sttf (f : FmtMT) : Encoded.Statement (.sttf f) := Encoded.of_fits rfl (FmtMT_fits f) (Nat.le_of_ble_eq_true rfl) (slot_pos 2)
theorem Encoded.amoAdd (f : FmtMA) : Encoded.Statement (.amoAdd f) := Encoded.of_fits rfl (FmtMA_fits f) (Nat.le_of_ble_eq_true rfl) (slot_pos 2)
theorem Encoded.amoMinI (f : FmtMA) : Encoded.Statement (.amoMinI f) := Encoded.of_fits rfl (FmtMA_fits f) (Nat.le_of_ble_eq_true rfl) (slot_pos 2)
theorem Encoded.amoMaxI (f : FmtMA) : Encoded.Statement (.amoMaxI f) := Encoded.of_fits rfl (FmtMA_fits f) (Nat.le_of_ble_eq_true rfl) (slot_pos 2)
theorem Encoded.amoAnd (f : FmtMA) : Encoded.Statement (.amoAnd f) := Encoded.of_fits rfl (FmtMA_fits f) (Nat.le_of_ble_eq_true rfl) (slot_pos 2)
theorem Encoded.amoOr (f : FmtMA) : Encoded.Statement (.amoOr f) := Encoded.of_fits rfl (FmtMA_fits f) (Nat.le_of_ble_eq_true rfl) (slot_pos 2)
theorem Encoded.amoXor (f : FmtMA) : Encoded.Statement (.amoXor f) := Encoded.of_fits rfl (FmtMA_fits f) (Nat.le_of_ble_eq_true rfl) (slot_pos 2)
theorem Encoded.amoSwp (f : FmtMA) : Encoded.Statement (.amoSwp f) := Encoded.of_fits rfl (FmtMA_fits f) (Nat.le_of_ble_eq_true rfl) (slot_pos 2)
theorem Encoded.amoCas (f : FmtMA) : Encoded.Statement (.amoCas f) := Encoded.of_fits rfl (FmtMA_fits f) (Nat.le_of_ble_eq_true rfl) (slot_pos 2)
theorem Encoded.amoFadd (f : FmtMA) : Encoded.Statement (.amoFadd f) := Encoded.of_fits rfl (FmtMA_fits f) (Nat.le_of_ble_eq_true rfl) (slot_pos 2)
theorem Encoded.pref (f : FmtMP) : Encoded.Statement (.pref f) := Encoded.of_fits rfl (FmtMP_fits f) (Nat.le_of_ble_eq_true rfl) (slot_pos 2)
theorem Encoded.fenceC (f : FmtMFc) : Encoded.Statement (.fenceC f) := Encoded.of_fits rfl (FmtMFc_fits f) (Nat.le_of_ble_eq_true rfl) (slot_pos 2)
theorem Encoded.fenceX (f : FmtMFx) : Encoded.Statement (.fenceX f) := Encoded.of_fits rfl (FmtMFx_fits f) (Nat.le_of_ble_eq_true rfl) (slot_pos 2)
theorem Encoded.fenceE (f : FmtMZ) : Encoded.Statement (.fenceE f) := Encoded.of_fits rfl (FmtMZ_fits f) (Nat.le_of_ble_eq_true rfl) (slot_pos 2)
theorem Encoded.ilock (f : FmtMIl) : Encoded.Statement (.ilock f) := Encoded.of_fits rfl (FmtMIl_fits f) (Nat.le_of_ble_eq_true rfl) (slot_pos 2)
theorem Encoded.iunlk (f : FmtMIu) : Encoded.Statement (.iunlk f) := Encoded.of_fits rfl (FmtMIu_fits f) (Nat.le_of_ble_eq_true rfl) (slot_pos 2)
theorem Encoded.slabDef (f : FmtMSl) : Encoded.Statement (.slabDef f) := Encoded.of_fits rfl (FmtMSl_fits f) (Nat.le_of_ble_eq_true rfl) (slot_pos 2)
theorem Encoded.slabRel (f : FmtMSl) : Encoded.Statement (.slabRel f) := Encoded.of_fits rfl (FmtMSl_fits f) (Nat.le_of_ble_eq_true rfl) (slot_pos 2)
theorem Encoded.slabQry (f : FmtMSl) : Encoded.Statement (.slabQry f) := Encoded.of_fits rfl (FmtMSl_fits f) (Nat.le_of_ble_eq_true rfl) (slot_pos 2)
theorem Encoded.slabRdy (f : FmtMSl) : Encoded.Statement (.slabRdy f) := Encoded.of_fits rfl (FmtMSl_fits f) (Nat.le_of_ble_eq_true rfl) (slot_pos 2)
theorem Encoded.slabEmp (f : FmtMSl) : Encoded.Statement (.slabEmp f) := Encoded.of_fits rfl (FmtMSl_fits f) (Nat.le_of_ble_eq_true rfl) (slot_pos 2)
theorem Encoded.nopV : Encoded.Statement .nopV := Encoded.of_zero rfl
theorem Encoded.vadd (f : FmtV) : Encoded.Statement (.vadd f) := Encoded.of_fits rfl (FmtV_fits f) (Nat.le_of_ble_eq_true rfl) (slot_pos 3)
theorem Encoded.vsub (f : FmtV) : Encoded.Statement (.vsub f) := Encoded.of_fits rfl (FmtV_fits f) (Nat.le_of_ble_eq_true rfl) (slot_pos 3)
theorem Encoded.vmul (f : FmtV) : Encoded.Statement (.vmul f) := Encoded.of_fits rfl (FmtV_fits f) (Nat.le_of_ble_eq_true rfl) (slot_pos 3)
theorem Encoded.vfma (f : FmtV) : Encoded.Statement (.vfma f) := Encoded.of_fits rfl (FmtV_fits f) (Nat.le_of_ble_eq_true rfl) (slot_pos 3)
theorem Encoded.vfms (f : FmtV) : Encoded.Statement (.vfms f) := Encoded.of_fits rfl (FmtV_fits f) (Nat.le_of_ble_eq_true rfl) (slot_pos 3)
theorem Encoded.vmin (f : FmtV) : Encoded.Statement (.vmin f) := Encoded.of_fits rfl (FmtV_fits f) (Nat.le_of_ble_eq_true rfl) (slot_pos 3)
theorem Encoded.vmax (f : FmtV) : Encoded.Statement (.vmax f) := Encoded.of_fits rfl (FmtV_fits f) (Nat.le_of_ble_eq_true rfl) (slot_pos 3)
theorem Encoded.vabs (f : FmtV) : Encoded.Statement (.vabs f) := Encoded.of_fits rfl (FmtV_fits f) (Nat.le_of_ble_eq_true rfl) (slot_pos 3)
theorem Encoded.vneg (f : FmtV) : Encoded.Statement (.vneg f) := Encoded.of_fits rfl (FmtV_fits f) (Nat.le_of_ble_eq_true rfl) (slot_pos 3)
theorem Encoded.vand (f : FmtV) : Encoded.Statement (.vand f) := Encoded.of_fits rfl (FmtV_fits f) (Nat.le_of_ble_eq_true rfl) (slot_pos 3)
theorem Encoded.vor (f : FmtV) : Encoded.Statement (.vor f) := Encoded.of_fits rfl (FmtV_fits f) (Nat.le_of_ble_eq_true rfl) (slot_pos 3)
theorem Encoded.vxor (f : FmtV) : Encoded.Statement (.vxor f) := Encoded.of_fits rfl (FmtV_fits f) (Nat.le_of_ble_eq_true rfl) (slot_pos 3)
theorem Encoded.vshl (f : FmtV) : Encoded.Statement (.vshl f) := Encoded.of_fits rfl (FmtV_fits f) (Nat.le_of_ble_eq_true rfl) (slot_pos 3)
theorem Encoded.vshr (f : FmtV) : Encoded.Statement (.vshr f) := Encoded.of_fits rfl (FmtV_fits f) (Nat.le_of_ble_eq_true rfl) (slot_pos 3)
theorem Encoded.vsar (f : FmtV) : Encoded.Statement (.vsar f) := Encoded.of_fits rfl (FmtV_fits f) (Nat.le_of_ble_eq_true rfl) (slot_pos 3)
theorem Encoded.vcmpeq (f : FmtV) : Encoded.Statement (.vcmpeq f) := Encoded.of_fits rfl (FmtV_fits f) (Nat.le_of_ble_eq_true rfl) (slot_pos 3)
theorem Encoded.vcmpne (f : FmtV) : Encoded.Statement (.vcmpne f) := Encoded.of_fits rfl (FmtV_fits f) (Nat.le_of_ble_eq_true rfl) (slot_pos 3)
theorem Encoded.vcmplt (f : FmtV) : Encoded.Statement (.vcmplt f) := Encoded.of_fits rfl (FmtV_fits f) (Nat.le_of_ble_eq_true rfl) (slot_pos 3)
theorem Encoded.vcmple (f : FmtV) : Encoded.Statement (.vcmple f) := Encoded.of_fits rfl (FmtV_fits f) (Nat.le_of_ble_eq_true rfl) (slot_pos 3)
theorem Encoded.vsel (f : FmtV) : Encoded.Statement (.vsel f) := Encoded.of_fits rfl (FmtV_fits f) (Nat.le_of_ble_eq_true rfl) (slot_pos 3)
theorem Encoded.vcvt (f : FmtV) : Encoded.Statement (.vcvt f) := Encoded.of_fits rfl (FmtV_fits f) (Nat.le_of_ble_eq_true rfl) (slot_pos 3)
theorem Encoded.vcvtn (f : FmtV) : Encoded.Statement (.vcvtn f) := Encoded.of_fits rfl (FmtV_fits f) (Nat.le_of_ble_eq_true rfl) (slot_pos 3)
theorem Encoded.vcvtw (f : FmtV) : Encoded.Statement (.vcvtw f) := Encoded.of_fits rfl (FmtV_fits f) (Nat.le_of_ble_eq_true rfl) (slot_pos 3)
theorem Encoded.vrotr (f : FmtV) : Encoded.Statement (.vrotr f) := Encoded.of_fits rfl (FmtV_fits f) (Nat.le_of_ble_eq_true rfl) (slot_pos 3)
theorem Encoded.vrotc (f : FmtV) : Encoded.Statement (.vrotc f) := Encoded.of_fits rfl (FmtV_fits f) (Nat.le_of_ble_eq_true rfl) (slot_pos 3)
theorem Encoded.vbcr (f : FmtV) : Encoded.Statement (.vbcr f) := Encoded.of_fits rfl (FmtV_fits f) (Nat.le_of_ble_eq_true rfl) (slot_pos 3)
theorem Encoded.vbcc (f : FmtV) : Encoded.Statement (.vbcc f) := Encoded.of_fits rfl (FmtV_fits f) (Nat.le_of_ble_eq_true rfl) (slot_pos 3)
theorem Encoded.vredrAdd (f : FmtV) : Encoded.Statement (.vredrAdd f) := Encoded.of_fits rfl (FmtV_fits f) (Nat.le_of_ble_eq_true rfl) (slot_pos 3)
theorem Encoded.vredrMax (f : FmtV) : Encoded.Statement (.vredrMax f) := Encoded.of_fits rfl (FmtV_fits f) (Nat.le_of_ble_eq_true rfl) (slot_pos 3)
theorem Encoded.vredrMin (f : FmtV) : Encoded.Statement (.vredrMin f) := Encoded.of_fits rfl (FmtV_fits f) (Nat.le_of_ble_eq_true rfl) (slot_pos 3)
theorem Encoded.vredcAdd (f : FmtV) : Encoded.Statement (.vredcAdd f) := Encoded.of_fits rfl (FmtV_fits f) (Nat.le_of_ble_eq_true rfl) (slot_pos 3)
theorem Encoded.vredcMax (f : FmtV) : Encoded.Statement (.vredcMax f) := Encoded.of_fits rfl (FmtV_fits f) (Nat.le_of_ble_eq_true rfl) (slot_pos 3)
theorem Encoded.vredcMin (f : FmtV) : Encoded.Statement (.vredcMin f) := Encoded.of_fits rfl (FmtV_fits f) (Nat.le_of_ble_eq_true rfl) (slot_pos 3)
theorem Encoded.vshuf (f : FmtVF) : Encoded.Statement (.vshuf f) := Encoded.of_fits rfl (FmtVF_fits f) (Nat.le_of_ble_eq_true rfl) (slot_pos 3)
theorem Encoded.vpatld (f : FmtVF) : Encoded.Statement (.vpatld f) := Encoded.of_fits rfl (FmtVF_fits f) (Nat.le_of_ble_eq_true rfl) (slot_pos 3)
theorem Encoded.vpatsw (f : FmtV) : Encoded.Statement (.vpatsw f) := Encoded.of_fits rfl (FmtV_fits f) (Nat.le_of_ble_eq_true rfl) (slot_pos 3)
theorem Encoded.vpart (f : FmtV) : Encoded.Statement (.vpart f) := Encoded.of_fits rfl (FmtV_fits f) (Nat.le_of_ble_eq_true rfl) (slot_pos 3)
theorem Encoded.vgath (f : FmtV) : Encoded.Statement (.vgath f) := Encoded.of_fits rfl (FmtV_fits f) (Nat.le_of_ble_eq_true rfl) (slot_pos 3)
theorem Encoded.vscat (f : FmtV) : Encoded.Statement (.vscat f) := Encoded.of_fits rfl (FmtV_fits f) (Nat.le_of_ble_eq_true rfl) (slot_pos 3)
theorem Encoded.vmov (f : FmtV) : Encoded.Statement (.vmov f) := Encoded.of_fits rfl (FmtV_fits f) (Nat.le_of_ble_eq_true rfl) (slot_pos 3)
theorem Encoded.vmovPop (f : FmtV) : Encoded.Statement (.vmovPop f) := Encoded.of_fits rfl (FmtV_fits f) (Nat.le_of_ble_eq_true rfl) (slot_pos 3)
theorem Encoded.vmovPush (f : FmtV) : Encoded.Statement (.vmovPush f) := Encoded.of_fits rfl (FmtV_fits f) (Nat.le_of_ble_eq_true rfl) (slot_pos 3)
theorem Encoded.vsplat (f : FmtVS) : Encoded.Statement (.vsplat f) := Encoded.of_fits rfl (FmtVS_fits f) (Nat.le_of_ble_eq_true rfl) (slot_pos 3)
theorem Encoded.viota (f : FmtV) : Encoded.Statement (.viota f) := Encoded.of_fits rfl (FmtV_fits f) (Nat.le_of_ble_eq_true rfl) (slot_pos 3)
theorem Encoded.vmskAnd (f : FmtV) : Encoded.Statement (.vmskAnd f) := Encoded.of_fits rfl (FmtV_fits f) (Nat.le_of_ble_eq_true rfl) (slot_pos 3)
theorem Encoded.vmskOr (f : FmtV) : Encoded.Statement (.vmskOr f) := Encoded.of_fits rfl (FmtV_fits f) (Nat.le_of_ble_eq_true rfl) (slot_pos 3)
theorem Encoded.vmskXor (f : FmtV) : Encoded.Statement (.vmskXor f) := Encoded.of_fits rfl (FmtV_fits f) (Nat.le_of_ble_eq_true rfl) (slot_pos 3)
theorem Encoded.vmskAndn (f : FmtV) : Encoded.Statement (.vmskAndn f) := Encoded.of_fits rfl (FmtV_fits f) (Nat.le_of_ble_eq_true rfl) (slot_pos 3)
theorem Encoded.vmskCopy (f : FmtV) : Encoded.Statement (.vmskCopy f) := Encoded.of_fits rfl (FmtV_fits f) (Nat.le_of_ble_eq_true rfl) (slot_pos 3)
theorem Encoded.vmskNot (f : FmtV) : Encoded.Statement (.vmskNot f) := Encoded.of_fits rfl (FmtV_fits f) (Nat.le_of_ble_eq_true rfl) (slot_pos 3)
theorem Encoded.vmskFirst (f : FmtV) : Encoded.Statement (.vmskFirst f) := Encoded.of_fits rfl (FmtV_fits f) (Nat.le_of_ble_eq_true rfl) (slot_pos 3)
theorem Encoded.vmcnt (f : FmtV) : Encoded.Statement (.vmcnt f) := Encoded.of_fits rfl (FmtV_fits f) (Nat.le_of_ble_eq_true rfl) (slot_pos 3)
theorem Encoded.vacc (f : FmtV) : Encoded.Statement (.vacc f) := Encoded.of_fits rfl (FmtV_fits f) (Nat.le_of_ble_eq_true rfl) (slot_pos 3)
theorem Encoded.vfree (f : FmtV) : Encoded.Statement (.vfree f) := Encoded.of_fits rfl (FmtV_fits f) (Nat.le_of_ble_eq_true rfl) (slot_pos 3)
theorem Encoded.nopX : Encoded.Statement .nopX := Encoded.of_zero rfl
theorem Encoded.mlease (f : FmtXL) : Encoded.Statement (.mlease f) := Encoded.of_fits rfl (FmtXL_fits f) (Nat.le_of_ble_eq_true rfl) (slot_pos 4)
theorem Encoded.mrel (f : FmtXZ) : Encoded.Statement (.mrel f) := Encoded.of_fits rfl (FmtXZ_fits f) (Nat.le_of_ble_eq_true rfl) (slot_pos 4)
theorem Encoded.mlds (f : FmtXD) : Encoded.Statement (.mlds f) := Encoded.of_fits rfl (FmtXD_fits f) (Nat.le_of_ble_eq_true rfl) (slot_pos 4)
theorem Encoded.mma (f : FmtXM) : Encoded.Statement (.mma f) := Encoded.of_fits rfl (FmtXM_fits f) (Nat.le_of_ble_eq_true rfl) (slot_pos 4)
theorem Encoded.mmaAcc (f : FmtXM) : Encoded.Statement (.mmaAcc f) := Encoded.of_fits rfl (FmtXM_fits f) (Nat.le_of_ble_eq_true rfl) (slot_pos 4)
theorem Encoded.macr (f : FmtXR) : Encoded.Statement (.macr f) := Encoded.of_fits rfl (FmtXR_fits f) (Nat.le_of_ble_eq_true rfl) (slot_pos 4)
theorem Encoded.macw (f : FmtXR) : Encoded.Statement (.macw f) := Encoded.of_fits rfl (FmtXR_fits f) (Nat.le_of_ble_eq_true rfl) (slot_pos 4)
theorem Encoded.macz (f : FmtXB) : Encoded.Statement (.macz f) := Encoded.of_fits rfl (FmtXB_fits f) (Nat.le_of_ble_eq_true rfl) (slot_pos 4)
theorem Encoded.mkz (f : FmtXK) : Encoded.Statement (.mkz f) := Encoded.of_fits rfl (FmtXK_fits f) (Nat.le_of_ble_eq_true rfl) (slot_pos 4)
theorem Encoded.mkzAll (f : FmtXZ) : Encoded.Statement (.mkzAll f) := Encoded.of_fits rfl (FmtXZ_fits f) (Nat.le_of_ble_eq_true rfl) (slot_pos 4)
theorem Encoded.mcntLoads (f : FmtXC) : Encoded.Statement (.mcntLoads f) := Encoded.of_fits rfl (FmtXC_fits f) (Nat.le_of_ble_eq_true rfl) (slot_pos 4)
theorem Encoded.mcntSteps (f : FmtXC) : Encoded.Statement (.mcntSteps f) := Encoded.of_fits rfl (FmtXC_fits f) (Nat.le_of_ble_eq_true rfl) (slot_pos 4)
theorem Encoded.mstat (f : FmtXS) : Encoded.Statement (.mstat f) := Encoded.of_fits rfl (FmtXS_fits f) (Nat.le_of_ble_eq_true rfl) (slot_pos 4)
theorem Encoded.nopE : Encoded.Statement .nopE := Encoded.of_zero rfl
theorem Encoded.cpy (f : FmtE) : Encoded.Statement (.cpy f) := Encoded.of_fits rfl (FmtE_fits f) (Nat.le_of_ble_eq_true rfl) (slot_pos 5)
theorem Encoded.cpy2d (f : FmtE) : Encoded.Statement (.cpy2d f) := Encoded.of_fits rfl (FmtE_fits f) (Nat.le_of_ble_eq_true rfl) (slot_pos 5)
theorem Encoded.cpys (f : FmtE) : Encoded.Statement (.cpys f) := Encoded.of_fits rfl (FmtE_fits f) (Nat.le_of_ble_eq_true rfl) (slot_pos 5)
theorem Encoded.cpyd (f : FmtE) : Encoded.Statement (.cpyd f) := Encoded.of_fits rfl (FmtE_fits f) (Nat.le_of_ble_eq_true rfl) (slot_pos 5)
theorem Encoded.gath (f : FmtE) : Encoded.Statement (.gath f) := Encoded.of_fits rfl (FmtE_fits f) (Nat.le_of_ble_eq_true rfl) (slot_pos 5)
theorem Encoded.scat (f : FmtE) : Encoded.Statement (.scat f) := Encoded.of_fits rfl (FmtE_fits f) (Nat.le_of_ble_eq_true rfl) (slot_pos 5)
theorem Encoded.bsld (f : FmtE) : Encoded.Statement (.bsld f) := Encoded.of_fits rfl (FmtE_fits f) (Nat.le_of_ble_eq_true rfl) (slot_pos 5)
theorem Encoded.tnew (f : FmtE) : Encoded.Statement (.tnew f) := Encoded.of_fits rfl (FmtE_fits f) (Nat.le_of_ble_eq_true rfl) (slot_pos 5)
theorem Encoded.tdel (f : FmtE) : Encoded.Statement (.tdel f) := Encoded.of_fits rfl (FmtE_fits f) (Nat.le_of_ble_eq_true rfl) (slot_pos 5)
theorem Encoded.tlend (f : FmtE) : Encoded.Statement (.tlend f) := Encoded.of_fits rfl (FmtE_fits f) (Nat.le_of_ble_eq_true rfl) (slot_pos 5)
theorem Encoded.tgive (f : FmtE) : Encoded.Statement (.tgive f) := Encoded.of_fits rfl (FmtE_fits f) (Nat.le_of_ble_eq_true rfl) (slot_pos 5)
theorem Encoded.tret (f : FmtE) : Encoded.Statement (.tret f) := Encoded.of_fits rfl (FmtE_fits f) (Nat.le_of_ble_eq_true rfl) (slot_pos 5)
theorem Encoded.tsplit (f : FmtE) : Encoded.Statement (.tsplit f) := Encoded.of_fits rfl (FmtE_fits f) (Nat.le_of_ble_eq_true rfl) (slot_pos 5)
theorem Encoded.tmerge (f : FmtE) : Encoded.Statement (.tmerge f) := Encoded.of_fits rfl (FmtE_fits f) (Nat.le_of_ble_eq_true rfl) (slot_pos 5)
theorem Encoded.tshare (f : FmtE) : Encoded.Statement (.tshare f) := Encoded.of_fits rfl (FmtE_fits f) (Nat.le_of_ble_eq_true rfl) (slot_pos 5)
theorem Encoded.tashr (f : FmtE) : Encoded.Statement (.tashr f) := Encoded.of_fits rfl (FmtE_fits f) (Nat.le_of_ble_eq_true rfl) (slot_pos 5)
theorem Encoded.tunsh (f : FmtE) : Encoded.Statement (.tunsh f) := Encoded.of_fits rfl (FmtE_fits f) (Nat.le_of_ble_eq_true rfl) (slot_pos 5)
theorem Encoded.tacq (f : FmtE) : Encoded.Statement (.tacq f) := Encoded.of_fits rfl (FmtE_fits f) (Nat.le_of_ble_eq_true rfl) (slot_pos 5)
theorem Encoded.trel (f : FmtE) : Encoded.Statement (.trel f) := Encoded.of_fits rfl (FmtE_fits f) (Nat.le_of_ble_eq_true rfl) (slot_pos 5)
theorem Encoded.trevive (f : FmtE) : Encoded.Statement (.trevive f) := Encoded.of_fits rfl (FmtE_fits f) (Nat.le_of_ble_eq_true rfl) (slot_pos 5)
theorem Encoded.tqry (f : FmtE) : Encoded.Statement (.tqry f) := Encoded.of_fits rfl (FmtE_fits f) (Nat.le_of_ble_eq_true rfl) (slot_pos 5)
theorem Encoded.send (f : FmtE) : Encoded.Statement (.send f) := Encoded.of_fits rfl (FmtE_fits f) (Nat.le_of_ble_eq_true rfl) (slot_pos 5)
theorem Encoded.recv (f : FmtE) : Encoded.Statement (.recv f) := Encoded.of_fits rfl (FmtE_fits f) (Nat.le_of_ble_eq_true rfl) (slot_pos 5)
theorem Encoded.coll (f : FmtE) : Encoded.Statement (.coll f) := Encoded.of_fits rfl (FmtE_fits f) (Nat.le_of_ble_eq_true rfl) (slot_pos 5)
theorem Encoded.vfpush (f : FmtE) : Encoded.Statement (.vfpush f) := Encoded.of_fits rfl (FmtE_fits f) (Nat.le_of_ble_eq_true rfl) (slot_pos 5)
theorem Encoded.vfpop (f : FmtE) : Encoded.Statement (.vfpop f) := Encoded.of_fits rfl (FmtE_fits f) (Nat.le_of_ble_eq_true rfl) (slot_pos 5)
theorem Encoded.vfcnt (f : FmtE) : Encoded.Statement (.vfcnt f) := Encoded.of_fits rfl (FmtE_fits f) (Nat.le_of_ble_eq_true rfl) (slot_pos 5)
theorem Encoded.ewait (f : FmtE) : Encoded.Statement (.ewait f) := Encoded.of_fits rfl (FmtE_fits f) (Nat.le_of_ble_eq_true rfl) (slot_pos 5)
theorem Encoded.evr (f : FmtE) : Encoded.Statement (.evr f) := Encoded.of_fits rfl (FmtE_fits f) (Nat.le_of_ble_eq_true rfl) (slot_pos 5)
theorem Encoded.eset (f : FmtE) : Encoded.Statement (.eset f) := Encoded.of_fits rfl (FmtE_fits f) (Nat.le_of_ble_eq_true rfl) (slot_pos 5)
theorem Encoded.notify (f : FmtE) : Encoded.Statement (.notify f) := Encoded.of_fits rfl (FmtE_fits f) (Nat.le_of_ble_eq_true rfl) (slot_pos 5)
theorem Encoded.launch (f : FmtE) : Encoded.Statement (.launch f) := Encoded.of_fits rfl (FmtE_fits f) (Nat.le_of_ble_eq_true rfl) (slot_pos 5)
theorem Encoded.decide (f : FmtE) : Encoded.Statement (.decide f) := Encoded.of_fits rfl (FmtE_fits f) (Nat.le_of_ble_eq_true rfl) (slot_pos 5)
theorem Encoded.cancel (f : FmtE) : Encoded.Statement (.cancel f) := Encoded.of_fits rfl (FmtE_fits f) (Nat.le_of_ble_eq_true rfl) (slot_pos 5)
theorem Encoded.scrub (f : FmtE) : Encoded.Statement (.scrub f) := Encoded.of_fits rfl (FmtE_fits f) (Nat.le_of_ble_eq_true rfl) (slot_pos 5)
theorem Encoded.splreq (f : FmtE) : Encoded.Statement (.splreq f) := Encoded.of_fits rfl (FmtE_fits f) (Nat.le_of_ble_eq_true rfl) (slot_pos 5)
theorem Encoded.rtset (f : FmtE) : Encoded.Statement (.rtset f) := Encoded.of_fits rfl (FmtE_fits f) (Nat.le_of_ble_eq_true rfl) (slot_pos 5)
theorem Encoded.nopF : Encoded.Statement .nopF := Encoded.of_zero rfl
theorem Encoded.scope (f : FmtFS) : Encoded.Statement (.scope f) := Encoded.of_fits rfl (FmtFS_fits f) (Nat.le_of_ble_eq_true rfl) (slot_pos 6)
theorem Encoded.scld (f : FmtFL) : Encoded.Statement (.scld f) := Encoded.of_fits rfl (FmtFL_fits f) (Nat.le_of_ble_eq_true rfl) (slot_pos 6)
theorem Encoded.fmtw (f : FmtFW) : Encoded.Statement (.fmtw f) := Encoded.of_fits rfl (FmtFW_fits f) (Nat.le_of_ble_eq_true rfl) (slot_pos 6)
theorem Encoded.fmtr (f : FmtFR) : Encoded.Statement (.fmtr f) := Encoded.of_fits rfl (FmtFR_fits f) (Nat.le_of_ble_eq_true rfl) (slot_pos 6)
theorem Encoded.fbx (f : FmtFB) : Encoded.Statement (.fbx f) := Encoded.of_fits rfl (FmtFB_fits f) (Nat.le_of_ble_eq_true rfl) (slot_pos 6)
theorem Encoded.fexp2 (f : FmtFF) : Encoded.Statement (.fexp2 f) := Encoded.of_fits rfl (FmtFF_fits f) (Nat.le_of_ble_eq_true rfl) (slot_pos 6)
theorem Encoded.flog2 (f : FmtFF) : Encoded.Statement (.flog2 f) := Encoded.of_fits rfl (FmtFF_fits f) (Nat.le_of_ble_eq_true rfl) (slot_pos 6)
theorem Encoded.frcp (f : FmtFF) : Encoded.Statement (.frcp f) := Encoded.of_fits rfl (FmtFF_fits f) (Nat.le_of_ble_eq_true rfl) (slot_pos 6)
theorem Encoded.frsq (f : FmtFF) : Encoded.Statement (.frsq f) := Encoded.of_fits rfl (FmtFF_fits f) (Nat.le_of_ble_eq_true rfl) (slot_pos 6)
theorem Encoded.fsqrt (f : FmtFF) : Encoded.Statement (.fsqrt f) := Encoded.of_fits rfl (FmtFF_fits f) (Nat.le_of_ble_eq_true rfl) (slot_pos 6)
theorem Encoded.ftanh (f : FmtFF) : Encoded.Statement (.ftanh f) := Encoded.of_fits rfl (FmtFF_fits f) (Nat.le_of_ble_eq_true rfl) (slot_pos 6)
theorem Encoded.fsig (f : FmtFF) : Encoded.Statement (.fsig f) := Encoded.of_fits rfl (FmtFF_fits f) (Nat.le_of_ble_eq_true rfl) (slot_pos 6)
theorem Encoded.ttrd (f : FmtFT) : Encoded.Statement (.ttrd f) := Encoded.of_fits rfl (FmtFT_fits f) (Nat.le_of_ble_eq_true rfl) (slot_pos 6)
theorem Encoded.hint (f : FmtFH) : Encoded.Statement (.hint f) := Encoded.of_fits rfl (FmtFH_fits f) (Nat.le_of_ble_eq_true rfl) (slot_pos 6)
theorem Encoded.seedw (f : FmtFD) : Encoded.Statement (.seedw f) := Encoded.of_fits rfl (FmtFD_fits f) (Nat.le_of_ble_eq_true rfl) (slot_pos 6)
theorem Encoded.slotCommit (b k n : Nat) (rec : BitVec 512) : Encoded.Statement (.slotCommit b k n rec) := Encoded.of_zero rfl
theorem Encoded.slotWithdraw (b k n : Nat) : Encoded.Statement (.slotWithdraw b k n) := Encoded.of_zero rfl
theorem Encoded.slotResume (b k n : Nat) : Encoded.Statement (.slotResume b k n) := Encoded.of_zero rfl
theorem Encoded.slotRerun (b k n : Nat) : Encoded.Statement (.slotRerun b k n) := Encoded.of_zero rfl
theorem Encoded.slotCancel (b k n : Nat) : Encoded.Statement (.slotCancel b k n) := Encoded.of_zero rfl
theorem Encoded.recordStart (b k : Nat) : Encoded.Statement (.recordStart b k) := Encoded.of_zero rfl
theorem Encoded.startTransferDone (b k : Nat) : Encoded.Statement (.startTransferDone b k) := Encoded.of_zero rfl
theorem Encoded.preloadBegin (b k : Nat) : Encoded.Statement (.preloadBegin b k) := Encoded.of_zero rfl
theorem Encoded.padPreloadBegin (b k : Nat) : Encoded.Statement (.padPreloadBegin b k) := Encoded.of_zero rfl
theorem Encoded.preloadDone (b k : Nat) : Encoded.Statement (.preloadDone b k) := Encoded.of_zero rfl
theorem Encoded.budgetSpent (b k : Nat) : Encoded.Statement (.budgetSpent b k) := Encoded.of_zero rfl
theorem Encoded.haltComplete (b k : Nat) : Encoded.Statement (.haltComplete b k) := Encoded.of_zero rfl
theorem Encoded.partModeWrite (p : Nat) (v : Word) : Encoded.Statement (.partModeWrite p v) := Encoded.of_zero rfl
theorem Encoded.sliceEnd (p : Nat) : Encoded.Statement (.sliceEnd p) := Encoded.of_zero rfl
theorem Encoded.leaseGrant (b : Nat) : Encoded.Statement (.leaseGrant b) := Encoded.of_zero rfl
theorem Encoded.engineServiceGrant (b g : Nat) : Encoded.Statement (.engineServiceGrant b g) := Encoded.of_zero rfl
theorem Encoded.engineCommandEnd (b g : Nat) : Encoded.Statement (.engineCommandEnd b g) := Encoded.of_zero rfl
theorem Encoded.scoreboardArrival (b k n : Nat) : Encoded.Statement (.scoreboardArrival b k n) := Encoded.of_zero rfl
theorem Encoded.pairSyncWrite (b : Nat) (v : Word) : Encoded.Statement (.pairSyncWrite b v) := Encoded.of_zero rfl
theorem Encoded.pwrGateApply (b : Nat) (v : Word) : Encoded.Statement (.pwrGateApply b v) := Encoded.of_zero rfl
theorem Encoded.pwrGateSelect (b : Nat) (v : Word) : Encoded.Statement (.pwrGateSelect b v) := Encoded.of_zero rfl
theorem Encoded.domainWakeDone (b d : Nat) : Encoded.Statement (.domainWakeDone b d) := Encoded.of_zero rfl
theorem Encoded.bankModeWrite (b : Nat) (v : Word) : Encoded.Statement (.bankModeWrite b v) := Encoded.of_zero rfl
theorem Encoded.bankSwitchDone (b n : Nat) : Encoded.Statement (.bankSwitchDone b n) := Encoded.of_zero rfl
theorem Encoded.tlbInvGo (p : Nat) (v : Word) : Encoded.Statement (.tlbInvGo p v) := Encoded.of_zero rfl
theorem Encoded.tlbInvDone (p : Nat) : Encoded.Statement (.tlbInvDone p) := Encoded.of_zero rfl
theorem Encoded.tokenTransferComplete (n : Nat) : Encoded.Statement (.tokenTransferComplete n) := Encoded.of_zero rfl
theorem Encoded.uncorrectableError (pa : Nat) (inBraid : Bool) (braid : Nat) : Encoded.Statement (.uncorrectableError pa inBraid braid) := Encoded.of_zero rfl
theorem Encoded.packetRouterHop (n : Nat) : Encoded.Statement (.packetRouterHop n) := Encoded.of_zero rfl
theorem Encoded.packetHubHop (n : Nat) : Encoded.Statement (.packetHubHop n) := Encoded.of_zero rfl
theorem Encoded.packetNodeArrive (a : NodeArrival) : Encoded.Statement (.packetNodeArrive a) := Encoded.of_zero rfl
theorem Encoded.faultReturnArrive (n : Nat) : Encoded.Statement (.faultReturnArrive n) := Encoded.of_zero rfl
theorem Encoded.responseTimeout (b n : Nat) : Encoded.Statement (.responseTimeout b n) := Encoded.of_zero rfl
theorem Encoded.suspendTimeout (b n : Nat) : Encoded.Statement (.suspendTimeout b n) := Encoded.of_zero rfl
theorem Encoded.userRouteLost (b n : Nat) : Encoded.Statement (.userRouteLost b n) := Encoded.of_zero rfl
theorem Encoded.flitCrcFail (link : Nat) (ab : Bool) : Encoded.Statement (.flitCrcFail link ab) := Encoded.of_zero rfl
theorem Encoded.messageArrive (n : Nat) : Encoded.Statement (.messageArrive n) := Encoded.of_zero rfl
theorem Encoded.remoteEventBump (n : Nat) : Encoded.Statement (.remoteEventBump n) := Encoded.of_zero rfl
theorem Encoded.mldsLoadDone (b n : Nat) : Encoded.Statement (.mldsLoadDone b n) := Encoded.of_zero rfl
theorem Encoded.keyInstall (world region : Nat) (braids : BitVec 96) (key : BitVec 256) : Encoded.Statement (.keyInstall world region braids key) := Encoded.of_zero rfl
theorem Encoded.preemptRequest (b k : Nat) : Encoded.Statement (.preemptRequest b k) := Encoded.of_zero rfl
theorem Encoded.preemptBundleLimit (b k : Nat) : Encoded.Statement (.preemptBundleLimit b k) := Encoded.of_zero rfl
theorem Encoded.trapqHeadWrite (p : Nat) (v : Word) : Encoded.Statement (.trapqHeadWrite p v) := Encoded.of_zero rfl
theorem Encoded.handlerLaunch (b k b2 k2 : Nat) (page : BitVec 48) : Encoded.Statement (.handlerLaunch b k b2 k2 page) := Encoded.of_zero rfl
theorem Encoded.contextSave (b k : Nat) : Encoded.Statement (.contextSave b k) := Encoded.of_zero rfl
theorem Encoded.streamingSave (b k : Nat) : Encoded.Statement (.streamingSave b k) := Encoded.of_zero rfl
theorem Encoded.contextRestore (n b k : Nat) : Encoded.Statement (.contextRestore n b k) := Encoded.of_zero rfl
theorem Encoded.dbgHalt (b k : Nat) : Encoded.Statement (.dbgHalt b k) := Encoded.of_zero rfl
theorem Encoded.dbgStep (b k : Nat) : Encoded.Statement (.dbgStep b k) := Encoded.of_zero rfl
theorem Encoded.dbgResume (b k : Nat) : Encoded.Statement (.dbgResume b k) := Encoded.of_zero rfl
theorem Encoded.tdispLock (fn : Nat) (ide : Bool) : Encoded.Statement (.tdispLock fn ide) := Encoded.of_zero rfl
theorem Encoded.tdispRun (fn : Nat) : Encoded.Statement (.tdispRun fn) := Encoded.of_zero rfl
theorem Encoded.tdispError (fn : Nat) : Encoded.Statement (.tdispError fn) := Encoded.of_zero rfl
theorem Encoded.ideIntegrityFail (fn : Nat) : Encoded.Statement (.ideIntegrityFail fn) := Encoded.of_zero rfl
theorem Encoded.partAssignWrite (fn : Nat) (v : BitVec 8) : Encoded.Statement (.partAssignWrite fn v) := Encoded.of_zero rfl
theorem Encoded.hostMemoryRequest (fn : Nat) (cxlMem : Bool) (addr : Nat) (len : Nat) (data : Option (List (BitVec 8))) : Encoded.Statement (.hostMemoryRequest fn cxlMem addr len data) := Encoded.of_zero rfl
theorem Encoded.qcfgWrite (fn : Nat) (journal : Bool) (v : Word) : Encoded.Statement (.qcfgWrite fn journal v) := Encoded.of_zero rfl
theorem Encoded.qtailWrite (fn : Nat) (v : Word) : Encoded.Statement (.qtailWrite fn v) := Encoded.of_zero rfl
theorem Encoded.hostLaunch (fn seq : Nat) : Encoded.Statement (.hostLaunch fn seq) := Encoded.of_zero rfl
theorem Encoded.hostGive (fn seq : Nat) : Encoded.Statement (.hostGive fn seq) := Encoded.of_zero rfl
theorem Encoded.hostQuiesce (fn seq : Nat) : Encoded.Statement (.hostQuiesce fn seq) := Encoded.of_zero rfl
theorem Encoded.hostResume (fn seq : Nat) : Encoded.Statement (.hostResume fn seq) := Encoded.of_zero rfl
theorem Encoded.hostReport (fn seq : Nat) : Encoded.Statement (.hostReport fn seq) := Encoded.of_zero rfl
theorem Encoded.hostTeardown (fn seq : Nat) : Encoded.Statement (.hostTeardown fn seq) := Encoded.of_zero rfl
theorem Encoded.commandComplete (fn seq : Nat) : Encoded.Statement (.commandComplete fn seq) := Encoded.of_zero rfl
theorem Encoded.declassifyAdd (world base log2 : Nat) : Encoded.Statement (.declassifyAdd world base log2) := Encoded.of_zero rfl
theorem Encoded.declassifyRemove (world base log2 : Nat) : Encoded.Statement (.declassifyRemove world base log2) := Encoded.of_zero rfl
theorem Encoded.floorRaiseDone (world region : Nat) : Encoded.Statement (.floorRaiseDone world region) := Encoded.of_zero rfl
theorem Encoded.scrubProgStart (p : Nat) (v : Word) : Encoded.Statement (.scrubProgStart p v) := Encoded.of_zero rfl
theorem Encoded.scrubProgSelect (p : Nat) (v : Word) : Encoded.Statement (.scrubProgSelect p v) := Encoded.of_zero rfl
theorem Encoded.teardownPhase2 (w : Nat) : Encoded.Statement (.teardownPhase2 w) := Encoded.of_zero rfl
theorem Encoded.teardownPhase3 (w : Nat) : Encoded.Statement (.teardownPhase3 w) := Encoded.of_zero rfl
theorem Encoded.partitionReset (p : Nat) : Encoded.Statement (.partitionReset p) := Encoded.of_zero rfl
theorem Encoded.powerOn : Encoded.Statement .powerOn := Encoded.of_zero rfl
theorem Encoded.configUpdate (verifies : Bool) (boot version : Nat) : Encoded.Statement (.configUpdate verifies boot version) := Encoded.of_zero rfl
theorem Encoded.aidinLoad (p world base : Nat) (object : List (BitVec 8)) : Encoded.Statement (.aidinLoad p world base object) := Encoded.of_zero rfl
theorem Encoded.nativeTranslate (p world : Nat) (code region : BitVec 48) (entries : List (Nat × Nat)) : Encoded.Statement (.nativeTranslate p world code region entries) := Encoded.of_zero rfl
theorem Encoded.spliceAnswer (n : Nat) : Encoded.Statement (.spliceAnswer n) := Encoded.of_zero rfl
theorem Encoded.iftSlice (b unit : Nat) (pass : Bool) (salvage : List Nat) : Encoded.Statement (.iftSlice b unit pass salvage) := Encoded.of_zero rfl
theorem Encoded.iftGapTimeout (b : Nat) : Encoded.Statement (.iftGapTimeout b) := Encoded.of_zero rfl
theorem Encoded.shadowDetect (b unit : Nat) : Encoded.Statement (.shadowDetect b unit) := Encoded.of_zero rfl
theorem Encoded.shadowCntClr (b : Nat) : Encoded.Statement (.shadowCntClr b) := Encoded.of_zero rfl
theorem Encoded.replicaWarn (b : Nat) : Encoded.Statement (.replicaWarn b) := Encoded.of_zero rfl
theorem Encoded.supplySag (b : Nat) : Encoded.Statement (.supplySag b) := Encoded.of_zero rfl
theorem Encoded.hbmEccError (pa beat bit : Nat) (unc : Bool) (agents : List (BitVec 24)) : Encoded.Statement (.hbmEccError pa beat bit unc agents) := Encoded.of_zero rfl
theorem Encoded.hbmParityFail (pa beat lane fails : Nat) (single : Bool) (agents : List (BitVec 24)) : Encoded.Statement (.hbmParityFail pa beat lane fails single agents) := Encoded.of_zero rfl
theorem Encoded.registerEccError (b k : Nat) (file idx : Nat) : Encoded.Statement (.registerEccError b k file idx) := Encoded.of_zero rfl
theorem Encoded.keySlotParityError (b n : Nat) : Encoded.Statement (.keySlotParityError b n) := Encoded.of_zero rfl
theorem Encoded.errLogCellClr : Encoded.Statement .errLogCellClr := Encoded.of_zero rfl
theorem Encoded.errLogXferClr : Encoded.Statement .errLogXferClr := Encoded.of_zero rfl
theorem Encoded.registerWrite (unit num : Nat) (v : Word) : Encoded.Statement (.registerWrite unit num v) := Encoded.of_zero rfl
theorem Encoded.pageWalkDone (b k : Nat) : Encoded.Statement (.pageWalkDone b k) := Encoded.of_zero rfl
theorem Encoded.instructionFetchMissDone (b k : Nat) : Encoded.Statement (.instructionFetchMissDone b k) := Encoded.of_zero rfl
theorem Encoded.linkMarkUp (link rankAB rankBA lanesAB lanesBA : Nat) : Encoded.Statement (.linkMarkUp link rankAB rankBA lanesAB lanesBA) := Encoded.of_zero rfl
theorem Encoded.tdispUnlock (fn : Nat) : Encoded.Statement (.tdispUnlock fn) := Encoded.of_zero rfl
theorem Encoded.slabUncorrectableError (b : Nat) (fifo : Bool) (id : Nat) : Encoded.Statement (.slabUncorrectableError b fifo id) := Encoded.of_zero rfl
theorem Encoded.tableUncorrectableError (b table idx : Nat) : Encoded.Statement (.tableUncorrectableError b table idx) := Encoded.of_zero rfl
theorem Encoded.supplyRecovery (b : Nat) : Encoded.Statement (.supplyRecovery b) := Encoded.of_zero rfl
theorem Encoded.graphSubmit (p parent : Nat) (nodes : List GraphNode) : Encoded.Statement (.graphSubmit p parent nodes) := Encoded.of_zero rfl

end Sys2Proof.Laws
end

