-- ==== Sys2Proof/Tests/Slice0.lean ====
section
/-!
SUPPORT. Tests of the model: ill-formed terms refused, words written out from the tables of encodings, single steps on small states, and for every
statement with hypotheses states and operands that meet them.
-/

namespace Sys2Proof.Tests
open Sys2Proof Sys2Proof.Machine Sys2Proof.Machine.Claims

/-! Well-formedness: each term breaks one check, and the same term without the break passes. -/

/-- Terms that break one check each, all refused. -/
def refused (l : List Instr) : Bool := l.all fun i => !i.wf

def aR : FmtAR := { sl := .A, pred := 0, ws := false, dst := 1, a := .reg 1, b := .reg 0, lng := none }
def aX : FmtAX := { sl := .A, pred := 0, ws := false, dst := 1, a := .reg 1, b := .reg 2 }
def aI : FmtAI := { sl := .A, pred := 0, ws := false, dst := 1, a := .reg 1, imm := 0, lng := none }
def aS : FmtAS := { sl := .A, pred := 0, ws := false, dst := 1, a := .reg 1, n := 3 }
def aU : FmtAU := { sl := .A, pred := 0, ws := false, dst := 1, a := .reg 1 }
def aC : FmtAC := { sl := .A, pred := 0, ws := false, cond := 0, pd := 1, a := .reg 1, b := .reg 0, lng := none }
def aCI : FmtACI := { sl := .A, pred := 0, ws := false, cond := 0, pd := 1, a := .reg 1, imm := 0, lng := none }
def aV : FmtAV := { sl := .A, pred := 0, ws := false, dst := 1, a := .reg 1, cvTo := 5, cvFrom := 0 }
def bKw : FmtBKw := { pred := 0, ws := false, k := 1, b := .reg 0, lng := none }
def mL : FmtML := { pred := 0, cls := 0, dst := 1, base := .reg 1, off := 0, lng := none }
def mP : FmtMP := { pred := 0, cls := 0, base := .reg 1, off := 0, lng := none }
def mS : FmtMS := { pred := 0, cls := 0, data := .reg 1, base := .reg 2, off := 0, lng := none }
def mT : FmtMT := { pred := 0, cls := 0, tile := 1, row := 0, base := .reg 1, off := 0, lng := none }
def mA : FmtMA := { pred := 0, cls := 0, dst := 1, base := .reg 1, data := 2 }
def vE : FmtV := { pred := 0, row := 0, td := 1, ta := 0, tb := 0, ty := 0, msk := 0 }
def vS : FmtVS := { pred := 0, row := 0, td := 1, tb := 0, ty := 0, msk := 0, lng := none }
def vF : FmtVF := { pred := 0, row := 0, td := 0, ta := 1, tb := 0, idx := 0 }
def xD : FmtXD := { pred := 0, off := .reg 1, key := 0, fb := 0, sb := 0 }
def xR : FmtXR := { pred := 0, bank := 0, brow := 0, tile := 0, trow := 0, ty := 0 }
def eF : FmtE := { pred := 0, cls := 0, evt := 0, kb := 0, flags := 0 }
def fF : FmtFF := { pred := 0, row := 0, td := 0, ta := 1 }
def l0 : Operand := .latch 0

theorem test_wf_operand_fields : ([.latch 0, .loopIdx 6, .loopIdx 7] : List Operand).all (fun o => !o.wf) = true := by decide +kernel

theorem test_wf_slotC : refused [.bri { pred := 0, tgt := l0 }, .calli { pred := 0, tgt := l0 }, .loop { pred := 0, cnt := l0, len := 1 },
    .loop { pred := 0, cnt := .reg 1, len := 0 }, .loopr { pred := 0, cnt := l0, len := 1 }, .loopr { pred := 0, cnt := .reg 1, len := 0 },
    .loopL { pred := 0, len := 0, lng := 5 }] = true := by decide +kernel

def rForms : List (FmtAR → Instr) := [.add, .sub, .mul, .mulhI, .mulhW, .divI, .divW, .remI, .remW, .and, .or, .xor, .andn, .minI, .maxI, .minW, .maxW,
  .sel, .fadd, .fsub, .fmul, .fmac, .fmin, .fmax]

theorem test_wf_slotA_registers : refused (rForms.flatMap fun c => [c { aR with a := l0 }, c { aR with b := l0 }, c { aR with b := .reg 1, lng := some 5 }]) = true := by decide +kernel

theorem test_wf_slotA_rest : refused (
    (([.addi, .andi, .ori, .xori] : List (FmtAI → Instr)).flatMap fun c => [c { aI with a := l0 }, c { aI with imm := 1, lng := some 5 }]) ++
    (([.shl, .shr, .sar, .rol, .extI, .extW, .ins] : List (FmtAX → Instr)).flatMap fun c => [c { aX with a := l0 }, c { aX with b := l0 }]) ++
    (([.shli, .shri, .sari] : List (FmtAS → Instr)).map fun c => c { aS with a := l0 }) ++
    (([.clz, .ctz, .popc] : List (FmtAU → Instr)).map fun c => c { aU with a := l0 }) ++
    [.cmp { aC with a := l0 }, .cmp { aC with b := l0 }, .cmp { aC with b := .reg 1, lng := some 5 }, .cmpi { aCI with a := l0 },
     .cmpi { aCI with imm := 1, lng := some 5 }, .fcmp { aC with a := l0 }, .fcmp { aC with b := l0 }, .fcmp { aC with b := .reg 1, lng := some 5 },
     .fcmp { aC with cond := 6 }, .fcvt { aV with a := l0 }, .fcvt { aV with cvTo := 7 }, .fcvt { aV with cvFrom := 7 }]) = true := by decide +kernel

theorem test_wf_slotB : refused [.kw { bKw with b := l0 }, .kw { bKw with b := .reg 1, lng := some 5 }, .ssr { pred := 0, num := 1, b := l0 },
    .pset { pred := 0, ws := false, msk := 2, b := l0 }, .param { pred := 0, ws := false, dst := 1, a := l0 }] = true := by decide +kernel

theorem test_wf_slotM : refused (
    (([.ldI8, .ldW8, .ldI16, .ldW16, .ldI32, .ldW32, .ld64] : List (FmtML → Instr)).flatMap fun c =>
      [c { mL with base := l0 }, c { mL with off := 1, lng := some 5 }]) ++
    (([.st8, .st16, .st32, .st64] : List (FmtMS → Instr)).flatMap fun c =>
      [c { mS with data := l0 }, c { mS with base := l0 }, c { mS with off := 1, lng := some 5 }]) ++
    (([.ldt, .stt, .ldtf, .sttf] : List (FmtMT → Instr)).flatMap fun c =>
      [c { mT with base := l0 }, c { mT with off := 1, lng := some 5 }, c { mT with row := 22 }]) ++
    (([.amoAdd, .amoMinI, .amoMaxI, .amoAnd, .amoOr, .amoXor, .amoSwp, .amoCas, .amoFadd] : List (FmtMA → Instr)).map fun c => c { mA with base := l0 }) ++
    (([.slabDef, .slabRel, .slabQry, .slabRdy, .slabEmp] : List (FmtMSl → Instr)).map fun c => c { pred := 0, dst := 1, x := l0 }) ++
    [.pref { mP with base := l0 }, .pref { mP with off := 1, lng := some 5 }, .ilock { pred := 0, dst := 1, a := l0, n := .reg 1 },
     .ilock { pred := 0, dst := 1, a := .reg 1, n := l0 }, .iunlk { pred := 0, a := l0, n := .reg 1 }, .iunlk { pred := 0, a := .reg 1, n := l0 }]) = true := by decide +kernel

theorem test_wf_slotV_rows : refused (
    (([.vadd, .vsub, .vmul, .vfma, .vfms, .vmin, .vmax, .vabs, .vneg, .vand, .vor, .vxor, .vshl, .vshr, .vsar, .vcvt, .vcvtn, .vcvtw, .vrotr, .vbcr, .vbcc,
       .vredrAdd, .vredrMax, .vredrMin, .vredcAdd, .vredcMax, .vredcMin, .vgath, .vscat, .vmov, .viota, .vacc, .vcmpeq, .vcmpne, .vcmplt, .vcmple]
      : List (FmtV → Instr)).map fun c => c { vE with row := 22 }) ++
    (([.vsel, .vpart, .vmcnt] : List (FmtV → Instr)).map fun c => c { vE with row := 22, msk := 1 }) ++
    [.vmovPop { vE with row := 22, tb := 4 }, .vmovPush { vE with row := 22, td := 0, tb := 8 }, .vsplat { vS with row := 22 }, .vshuf { vF with row := 22 },
     .vpatld { vF with row := 22 }, .vrotc { vE with row := 1 }, .vpatsw { vE with td := 0, row := 1 }, .vfree { vE with row := 1 },
     .vmskAnd { vE with row := 1 }, .vmskOr { vE with row := 0 }, .vmskXor { vE with row := 0 }, .vmskAndn { vE with row := 0 }, .vmskCopy { vE with row := 0 },
     .vmskNot { vE with row := 0 }, .vmskFirst { vE with row := 0 }]) = true := by decide +kernel

theorem test_wf_slotV_fields : refused (
    (([.vabs, .vneg, .vbcc, .vredrAdd, .vredrMax, .vredrMin, .vredcAdd, .vredcMax, .vredcMin, .vmov] : List (FmtV → Instr)).map fun c => c { vE with tb := 1 }) ++
    (([.vcmpeq, .vcmpne, .vcmplt, .vcmple] : List (FmtV → Instr)).flatMap fun c => [c { vE with td := 0 }, c { vE with td := 4 }]) ++
    (([(.vmskAnd, 0), (.vmskOr, 1), (.vmskXor, 2), (.vmskAndn, 3), (.vmskCopy, 4), (.vmskNot, 5)] : List ((FmtV → Instr) × BitVec 5)).flatMap fun e =>
      let v := { vE with row := e.2 }
      [e.1 { v with td := 0 }, e.1 { v with td := 4 }, e.1 { v with ta := 4 }, e.1 { v with tb := 4 }, e.1 { v with ty := 1 }, e.1 { v with msk := 1 }]) ++
    [.vsel { vE with msk := 0 }, .vcvtn { vE with tb := 8 }, .vcvtw { vE with tb := 8 }, .vpatld { vF with td := 1 }, .vpatld { vF with tb := 1 },
     .vpatld { vF with idx := 1 }, .vpatsw vE, .vpatsw { vE with td := 0, ta := 1 }, .vpatsw { vE with td := 0, tb := 1 }, .vpatsw { vE with td := 0, ty := 1 },
     .vpatsw { vE with td := 0, msk := 1 }, .vpart { vE with ta := 1, msk := 1 }, .vpart vE, .vmovPop { vE with tb := 4, ta := 1 }, .vmovPop { vE with tb := 3 },
     .vmovPop { vE with tb := 8 }, .vmovPush { vE with tb := 8 }, .vmovPush { vE with td := 0, tb := 7 }, .vmovPush { vE with td := 0, tb := 12 },
     .vsplat { vS with tb := 1, lng := some 5 }, .viota { vE with ta := 1 }, .vmskFirst { vE with row := 6, td := 0 }, .vmskFirst { vE with row := 6, td := 4 },
     .vmskFirst { vE with row := 6, ta := 1 }, .vmskFirst { vE with row := 6, msk := 1 }, .vmcnt { vE with ta := 1, msk := 1 },
     .vmcnt { vE with tb := 1, msk := 1 }, .vmcnt vE, .vacc { vE with ta := 6 }, .vfree { vE with ta := 1 }, .vfree { vE with tb := 1 },
     .vfree { vE with ty := 1 }, .vfree { vE with msk := 1 }]) = true := by decide +kernel

theorem test_wf_slotX_E_F : refused [.mlds { xD with off := l0 }, .macr { xR with bank := 6 }, .macw { xR with bank := 6 }, .macz { pred := 0, bank := 6 },
    .mcntLoads { pred := 0, dst := 1, reg := l0 }, .mcntSteps { pred := 0, dst := 1, reg := l0 }, .mstat { pred := 0, dst := 1, bank := 6 },
    .vfpush { eF with flags := 88 }, .vfpop { eF with flags := 88 }, .ewait { eF with flags := 512 }, .eset { eF with flags := 1632 },
    .scope { scope := 5 }, .scld { pred := 0, z := 0, base := l0, cls := 0 }, .fmtw { pred := 0, f := 0, a := l0 },
    .fbx { pred := 0, row := 22, td := 0, ta := 1, id := 0 }, .fexp2 { fF with row := 22 }, .flog2 { fF with row := 22 }, .frcp { fF with row := 22 },
    .frsq { fF with row := 22 }, .fsqrt { fF with row := 22 }, .ftanh { fF with row := 22 }, .fsig { fF with row := 22 },
    .ttrd { pred := 0, dst := 1, a := l0 }, .seedw { pred := 0, a := l0 }] = true := by decide +kernel

/-- The terms that the breaks above start from are well formed. -/
theorem test_wf_accepts : ((rForms.map fun c => c aR) ++ ([.addi aI, .shl aX, .shli aS, .clz aU, .cmp aC, .cmpi aCI, .fcmp aC, .fcvt aV, .kw bKw, .ldI8 mL, .pref mP, .st8 mS,
    .ldt mT, .amoAdd mA, .vadd vE, .vsel { vE with msk := 1 }, .vcmpeq vE, .vmskOr { vE with row := 1 }, .vpatld vF, .vpatsw { vE with td := 0 },
    .vmovPop { vE with tb := 4 }, .vmovPush { vE with td := 0, tb := 8 }, .vsplat vS, .vmskFirst { vE with row := 6 }, .vacc { vE with ta := 5 }, .vfree vE, .mlds xD,
    .macr xR, .ewait eF, .vfpush eF, .fexp2 fF, .scope { scope := 4 }] : List Instr)).all Instr.wf = true := by decide +kernel

/-! Decoding: words written out field by field from spec/opcode_table.json and R163 to R181. -/

/-- Every word, in the slot and with its long immediate, decodes to the instruction beside it. -/
def reads (slot : Nat) (l : List (BitVec 32 × Option (BitVec 32) × Instr)) : Bool :=
  l.all fun e => match decodeSlot slot e.1 e.2.1 with | .ok i => decide (i = e.2.2) | .error _ => false

theorem test_decode_slotC : reads 0 [
    (0x00068002, none, .br { pred := 5, off := 2 }),
    (0x00088003, none, .brn { pred := 1, off := 3 }),
    (0x000F0000, some 0x80000001, .brL { pred := 6, lng := 0x80000001 }),
    (0x00109D00, none, .bri { pred := 1, tgt := .reg 58 }),
    (0x00160021, none, .call { pred := 4, off := 33 }),
    (0x001A8000, some 0x80000001, .callL { pred := 5, lng := 0x80000001 }),
    (0x001EE080, none, .calli { pred := 5, tgt := .one }),
    (0x00208000, none, .ret { pred := 1 }),
    (0x0025E209, none, .loop { pred := 3, cnt := .loopIdx 2, len := 9 }),
    (0x002A97A1, none, .loopr { pred := 5, cnt := .reg 47, len := 33 }),
    (0x002E8005, some 0x80000001, .loopL { pred := 5, len := 5, lng := 0x80000001 }),
    (0x00310000, none, .leave { pred := 2 }),
    (0x00348003, none, .safe { pred := 1, code := 3 }),
    (0x003B0000, none, .yield { pred := 6 }),
    (0x003C8000, none, .halt { pred := 1 }),
    (0x00428014, none, .trap { pred := 5, code := 20 }),
    (0x0044804D, none, .brk { pred := 1, code := 77 }),
    (0x004A8002, none, .barArr { pred := 5, bar := 2 }),
    (0x004C8003, none, .barWait { pred := 1, bar := 3 }),
    (0x00530001, none, .barSync { pred := 6, bar := 1 }),
    (0x00568000, none, .eret { pred := 5 }),
    (0x00000000, none, .nopC)] = true := by decide +kernel

theorem test_decode_slotA_1 : reads 1 [
    (0x08C6050D, none, .addi { sl := .A, pred := 1, ws := true, dst := 6, a := .reg 5, imm := 13, lng := none }),
    (0x10C683C1, none, .mul { sl := .A, pred := 1, ws := true, dst := 6, a := .imm 3, b := .one, lng := none }),
    (0x18C6C141, none, .mulhW { sl := .A, pred := 1, ws := true, dst := 6, a := .one, b := .latch 1, lng := none }),
    (0x20C641C8, none, .divW { sl := .A, pred := 1, ws := true, dst := 6, a := .latch 1, b := .unitIdx, lng := none }),
    (0x28C6C8C4, none, .remW { sl := .A, pred := 1, ws := true, dst := 6, a := .unitIdx, b := .loopIdx 2, lng := none }),
    (0x30C6C43A, none, .or { sl := .A, pred := 1, ws := true, dst := 6, a := .loopIdx 2, b := .reg 58, lng := none }),
    (0x38C63ABF, none, .andn { sl := .A, pred := 1, ws := true, dst := 6, a := .reg 58, b := .imm 63, lng := none }),
    (0x40C6BF0D, none, .ori { sl := .A, pred := 1, ws := true, dst := 6, a := .imm 63, imm := 13, lng := none }),
    (0x48C62F05, none, .shl { sl := .A, pred := 1, ws := true, dst := 6, a := .reg 47, b := .reg 5 }),
    (0x50C60583, none, .sar { sl := .A, pred := 1, ws := true, dst := 6, a := .reg 5, b := .imm 3 }),
    (0x58C6830D, none, .shli { sl := .A, pred := 1, ws := true, dst := 6, a := .imm 3, n := 13 }),
    (0x60C6C10D, none, .sari { sl := .A, pred := 1, ws := true, dst := 6, a := .one, n := 13 }),
    (0x664DBF00, none, .clz { sl := .A, pred := 4, ws := true, dst := 13, a := .imm 63 }),
    (0x6943C100, none, .ctz { sl := .A, pred := 2, ws := true, dst := 3, a := .one }),
    (0x6CD43A00, none, .popc { sl := .A, pred := 1, ws := true, dst := 20, a := .reg 58 }),
    (0x774D3ABF, none, .maxI { sl := .A, pred := 6, ws := true, dst := 13, a := .reg 58, b := .imm 63, lng := none }),
    (0x7F4DBF2F, none, .maxW { sl := .A, pred := 6, ws := true, dst := 13, a := .imm 63, b := .reg 47, lng := none }),
    (0x82D1C8C4, none, .cmp { sl := .A, pred := 5, ws := true, cond := 2, pd := 1, a := .unitIdx, b := .loopIdx 2, lng := none }),
    (0x84E18305, none, .cmpi { sl := .A, pred := 1, ws := true, cond := 4, pd := 1, a := .imm 3, imm := 5, lng := none }),
    (0x8EA1C141, none, .extI { sl := .A, pred := 5, ws := false, dst := 33, a := .one, b := .latch 1 }),
    (0x96A141C8, none, .ins { sl := .A, pred := 5, ws := false, dst := 33, a := .latch 1, b := .unitIdx }),
    (0x9F4D0000, some 0x80000001, .movh { sl := .A, pred := 6, ws := true, dst := 13, lng := 0x80000001 }),
    (0xA4C683C1, none, .fsub { sl := .A, pred := 1, ws := true, dst := 6, a := .imm 3, b := .one, lng := none }),
    (0xACC6C141, none, .fmac { sl := .A, pred := 1, ws := true, dst := 6, a := .one, b := .latch 1, lng := none })] = true := by decide +kernel

theorem test_decode_slotA_2 : reads 1 [
    (0xB4C641C8, none, .fmax { sl := .A, pred := 1, ws := true, dst := 6, a := .latch 1, b := .unitIdx, lng := none }),
    (0xBA400583, none, .fcmp { sl := .A, pred := 4, ws := true, cond := 0, pd := 0, a := .reg 5, b := .imm 3, lng := none }),
    (0xBD84C441, none, .fcvt { sl := .A, pred := 3, ws := false, dst := 4, a := .loopIdx 2, cvTo := 4, cvFrom := 1 }),
    (0x00000000, none, .nop .A)] = true := by decide +kernel

theorem test_decode_slotB_1 : reads 2 [
    (0x064DC8C4, none, .add { sl := .B, pred := 4, ws := true, dst := 13, a := .unitIdx, b := .loopIdx 2, lng := none }),
    (0x0E4DC43A, none, .sub { sl := .B, pred := 4, ws := true, dst := 13, a := .loopIdx 2, b := .reg 58, lng := none }),
    (0x164D3ABF, none, .mulhI { sl := .B, pred := 4, ws := true, dst := 13, a := .reg 58, b := .imm 63, lng := none }),
    (0x1E4DBF2F, none, .divI { sl := .B, pred := 4, ws := true, dst := 13, a := .imm 63, b := .reg 47, lng := none }),
    (0x264D2F05, none, .remI { sl := .B, pred := 4, ws := true, dst := 13, a := .reg 47, b := .reg 5, lng := none }),
    (0x2E4D0583, none, .and { sl := .B, pred := 4, ws := true, dst := 13, a := .reg 5, b := .imm 3, lng := none }),
    (0x364D83C1, none, .xor { sl := .B, pred := 4, ws := true, dst := 13, a := .imm 3, b := .one, lng := none }),
    (0x3E4DC102, none, .andi { sl := .B, pred := 4, ws := true, dst := 13, a := .one, imm := 2, lng := none }),
    (0x464D4102, none, .xori { sl := .B, pred := 4, ws := true, dst := 13, a := .latch 1, imm := 2, lng := none }),
    (0x4E4DC8C4, none, .shr { sl := .B, pred := 4, ws := true, dst := 13, a := .unitIdx, b := .loopIdx 2 }),
    (0x564DC43A, none, .rol { sl := .B, pred := 4, ws := true, dst := 13, a := .loopIdx 2, b := .reg 58 }),
    (0x5E4D3A02, none, .shri { sl := .B, pred := 4, ws := true, dst := 13, a := .reg 58, n := 2 }),
    (0x72C283C1, none, .minI { sl := .B, pred := 5, ws := true, dst := 2, a := .imm 3, b := .one, lng := none }),
    (0x7AC2C141, none, .minW { sl := .B, pred := 5, ws := true, dst := 2, a := .one, b := .latch 1, lng := none }),
    (0x89433ABF, none, .sel { sl := .B, pred := 2, ws := true, dst := 3, a := .reg 58, b := .imm 63, lng := none }),
    (0x9143BF2F, none, .extW { sl := .B, pred := 2, ws := true, dst := 3, a := .imm 63, b := .reg 47 }),
    (0x99430000, some 0x80000001, .movl { sl := .B, pred := 2, ws := true, dst := 3, lng := 0x80000001 }),
    (0xA24DC43A, none, .fadd { sl := .B, pred := 4, ws := true, dst := 13, a := .loopIdx 2, b := .reg 58, lng := none }),
    (0xAA4D3ABF, none, .fmul { sl := .B, pred := 4, ws := true, dst := 13, a := .reg 58, b := .imm 63, lng := none }),
    (0xB24DBF2F, none, .fmin { sl := .B, pred := 4, ws := true, dst := 13, a := .imm 63, b := .reg 47, lng := none }),
    (0xC2C200C1, none, .kw { pred := 5, ws := true, k := 2, b := .one, lng := none }),
    (0xC5890D00, none, .kr { pred := 3, ws := false, dst := 9, k := 13 }),
    (0xCA4D0500, none, .gsr { pred := 4, ws := true, dst := 13, num := 5 }),
    (0xCD0001C8, none, .ssr { pred := 2, num := 1, b := .unitIdx })] = true := by decide +kernel

theorem test_decode_slotB_2 : reads 2 [
    (0xD3450401, none, .pand { pred := 6, ws := true, pd := 5, pa := 4, pb := 1 }),
    (0xD6C20103, none, .por { pred := 5, ws := true, pd := 2, pa := 1, pb := 3 }),
    (0xDB450401, none, .pxor { pred := 6, ws := true, pd := 5, pa := 4, pb := 1 }),
    (0xDEC20100, none, .pnot { pred := 5, ws := true, pd := 2, pa := 1 }),
    (0xE1890000, none, .pget { pred := 3, ws := false, dst := 9 }),
    (0xE6802141, none, .pset { pred := 5, ws := false, msk := 33, b := .latch 1 }),
    (0xEA810000, none, .rdcyc { pred := 5, ws := false, dst := 1 }),
    (0xED898300, none, .param { pred := 3, ws := false, dst := 9, a := .imm 3 }),
    (0x00000000, none, .nop .B)] = true := by decide +kernel

theorem test_decode_slotM_1 : reads 3 [
    (0x0C137102, none, .ldI8 { pred := 4, cls := 1, dst := 13, base := .loopIdx 2, off := 2, lng := none }),
    (0x1131A0CD, none, .ldW8 { pred := 1, cls := 3, dst := 6, base := .imm 3, off := 13, lng := none }),
    (0x1C134E82, none, .ldI16 { pred := 4, cls := 1, dst := 13, base := .reg 58, off := 2, lng := none }),
    (0x2131B04D, none, .ldW16 { pred := 1, cls := 3, dst := 6, base := .one, off := 13, lng := none }),
    (0x2C136FC2, none, .ldI32 { pred := 4, cls := 1, dst := 13, base := .imm 63, off := 2, lng := none }),
    (0x3131904D, none, .ldW32 { pred := 1, cls := 3, dst := 6, base := .latch 1, off := 13, lng := none }),
    (0x3C134BC2, none, .ld64 { pred := 4, cls := 1, dst := 13, base := .reg 47, off := 2, lng := none }),
    (0x41341C8D, none, .st8 { pred := 1, cls := 3, data := .latch 1, base := .unitIdx, off := 13, lng := none }),
    (0x4C12F052, none, .st16 { pred := 4, cls := 1, data := .reg 47, base := .reg 5, off := 2, lng := none }),
    (0x513C8C4D, none, .st32 { pred := 1, cls := 3, data := .unitIdx, base := .loopIdx 2, off := 13, lng := none }),
    (0x5C105832, none, .st64 { pred := 4, cls := 1, data := .reg 5, base := .imm 3, off := 2, lng := none }),
    (0x61368DFC, none, .ldt { pred := 1, cls := 3, tile := 6, row := 17, base := .imm 63, off := 4, lng := none }),
    (0x69D51E43, none, .stt { pred := 1, cls := 13, tile := 5, row := 3, base := .unitIdx, off := 3, lng := none }),
    (0x769D8C18, none, .ldtf { pred := 6, cls := 9, tile := 13, row := 17, base := .imm 3, off := 0, lng := none }),
    (0x7D52A9D0, none, .sttf { pred := 5, cls := 5, tile := 2, row := 21, base := .reg 58, off := 0, lng := none }),
    (0x869360E1, none, .amoAdd { pred := 6, cls := 9, dst := 13, base := .imm 3, data := 33 }),
    (0x8D508E83, none, .amoMinI { pred := 5, cls := 5, dst := 2, base := .reg 58, data := 3 }),
    (0x96937061, none, .amoMaxI { pred := 6, cls := 9, dst := 13, base := .one, data := 33 }),
    (0x9D50AFC3, none, .amoAnd { pred := 5, cls := 5, dst := 2, base := .imm 63, data := 3 }),
    (0xA6935061, none, .amoOr { pred := 6, cls := 9, dst := 13, base := .latch 1, data := 33 }),
    (0xAD508BC3, none, .amoXor { pred := 5, cls := 5, dst := 2, base := .reg 47, data := 3 }),
    (0xB6937221, none, .amoSwp { pred := 6, cls := 9, dst := 13, base := .unitIdx, data := 33 }),
    (0xBD508143, none, .amoCas { pred := 5, cls := 5, dst := 2, base := .reg 5, data := 3 }),
    (0xC6937121, none, .amoFadd { pred := 6, cls := 9, dst := 13, base := .loopIdx 2, data := 33 })] = true := by decide +kernel

theorem test_decode_slotM_2 : reads 3 [
    (0xCD500141, none, .pref { pred := 5, cls := 5, base := .reg 5, off := 1, lng := none }),
    (0xD3000600, none, .fenceC { pred := 3, msk := 6 }),
    (0xD9340000, none, .fenceX { pred := 1, paths := 13 }),
    (0xE4000000, none, .fenceE { pred := 4 }),
    (0xE934160C, none, .ilock { pred := 1, dst := 13, a := .reg 5, n := .imm 3 }),
    (0xF141C800, none, .iunlk { pred := 1, a := .latch 1, n := .unitIdx }),
    (0xF906DF80, none, .slabDef { pred := 1, dst := 13, x := .imm 63 }),
    (0xF926C180, none, .slabRel { pred := 1, dst := 13, x := .imm 3 }),
    (0xFA40E400, none, .slabQry { pred := 2, dst := 1, x := .unitIdx }),
    (0xFE64DF80, none, .slabRdy { pred := 6, dst := 9, x := .imm 63 }),
    (0xFC90C180, none, .slabEmp { pred := 4, dst := 33, x := .imm 3 }),
    (0x00000000, none, .nopM)] = true := by decide +kernel

theorem test_decode_slotV_1 : reads 4 [
    (0x06C44D8A, none, .vadd { pred := 5, row := 17, td := 1, ta := 3, tb := 6, ty := 1, msk := 1 }),
    (0x0A27548E, none, .vsub { pred := 4, row := 9, td := 13, ta := 5, tb := 2, ty := 1, msk := 3 }),
    (0x0F0F506A, none, .vmul { pred := 6, row := 3, td := 13, ta := 4, tb := 1, ty := 5, msk := 1 }),
    (0x1154DA6E, none, .vfma { pred := 2, row := 21, td := 3, ta := 6, tb := 9, ty := 5, msk := 3 }),
    (0x14C5485C, none, .vfms { pred := 1, row := 17, td := 5, ta := 2, tb := 1, ty := 3, msk := 2 }),
    (0x18A5076C, none, .vmin { pred := 1, row := 9, td := 4, ta := 1, tb := 13, ty := 5, msk := 2 }),
    (0x1C8DA762, none, .vmax { pred := 1, row := 3, td := 6, ta := 9, tb := 13, ty := 4, msk := 1 }),
    (0x22D4841C, none, .vabs { pred := 5, row := 21, td := 2, ta := 1, tb := 0, ty := 3, msk := 2 }),
    (0x24A5042A, none, .vneg { pred := 1, row := 9, td := 4, ta := 1, tb := 0, ty := 5, msk := 1 }),
    (0x2954DA6E, none, .vand { pred := 2, row := 21, td := 3, ta := 6, tb := 9, ty := 5, msk := 3 }),
    (0x2CC5485C, none, .vor { pred := 1, row := 17, td := 5, ta := 2, tb := 1, ty := 3, msk := 2 }),
    (0x30A5076C, none, .vxor { pred := 1, row := 9, td := 4, ta := 1, tb := 13, ty := 5, msk := 2 }),
    (0x348DA762, none, .vshl { pred := 1, row := 3, td := 6, ta := 9, tb := 13, ty := 4, msk := 1 }),
    (0x3AD484F2, none, .vshr { pred := 5, row := 21, td := 2, ta := 1, tb := 3, ty := 6, msk := 1 }),
    (0x3EC47552, none, .vsar { pred := 5, row := 17, td := 1, ta := 13, tb := 5, ty := 2, msk := 1 }),
    (0x41A4750A, none, .vcmpeq { pred := 3, row := 9, td := 1, ta := 13, tb := 4, ty := 1, msk := 1 }),
    (0x468C4D8A, none, .vcmpne { pred := 5, row := 3, td := 1, ta := 3, tb := 6, ty := 1, msk := 1 }),
    (0x4A54548E, none, .vcmplt { pred := 4, row := 21, td := 1, ta := 5, tb := 2, ty := 1, msk := 3 }),
    (0x4F44506A, none, .vcmple { pred := 6, row := 17, td := 1, ta := 4, tb := 1, ty := 5, msk := 1 }),
    (0x5124DA6E, none, .vsel { pred := 2, row := 9, td := 3, ta := 6, tb := 9, ty := 5, msk := 3 }),
    (0x548D4AF2, none, .vcvt { pred := 1, row := 3, td := 5, ta := 2, tb := 11, ty := 6, msk := 1 }),
    (0x5A8C754E, none, .vcvtn { pred := 5, row := 3, td := 1, ta := 13, tb := 5, ty := 1, msk := 3 }),
    (0x5F0F506C, none, .vcvtw { pred := 6, row := 3, td := 13, ta := 4, tb := 1, ty := 5, msk := 2 }),
    (0x608DA762, none, .vrotr { pred := 1, row := 3, td := 6, ta := 9, tb := 13, ty := 4, msk := 1 })] = true := by decide +kernel

theorem test_decode_slotV_2 : reads 4 [
    (0x6681485C, none, .vrotc { pred := 5, row := 0, td := 5, ta := 2, tb := 1, ty := 3, msk := 2 }),
    (0x68A5076C, none, .vbcr { pred := 1, row := 9, td := 4, ta := 1, tb := 13, ty := 5, msk := 2 }),
    (0x6C8DA42E, none, .vbcc { pred := 1, row := 3, td := 6, ta := 9, tb := 0, ty := 5, msk := 3 }),
    (0x70C5480E, none, .vredrAdd { pred := 1, row := 17, td := 5, ta := 2, tb := 0, ty := 1, msk := 3 }),
    (0x770F500A, none, .vredrMax { pred := 6, row := 3, td := 13, ta := 4, tb := 0, ty := 1, msk := 1 }),
    (0x7AC44C32, none, .vredrMin { pred := 5, row := 17, td := 1, ta := 3, tb := 0, ty := 6, msk := 1 }),
    (0x7E8C742C, none, .vredcAdd { pred := 5, row := 3, td := 1, ta := 13, tb := 0, ty := 5, msk := 2 }),
    (0x80C5A42E, none, .vredcMax { pred := 1, row := 17, td := 6, ta := 9, tb := 0, ty := 5, msk := 3 }),
    (0x848D480E, none, .vredcMin { pred := 1, row := 3, td := 5, ta := 2, tb := 0, ty := 1, msk := 3 }),
    (0x8B47504D, none, .vshuf { pred := 6, row := 17, td := 13, ta := 4, tb := 1, idx := 13 }),
    (0x8E8C0408, none, .vpatld { pred := 5, row := 3, td := 0, ta := 1, tb := 0, idx := 8 }),
    (0x93000000, none, .vpatsw { pred := 6, row := 0, td := 0, ta := 0, tb := 0, ty := 0, msk := 0 }),
    (0x94A5006A, none, .vpart { pred := 1, row := 9, td := 4, ta := 0, tb := 1, ty := 5, msk := 1 }),
    (0x9954DA6E, none, .vgath { pred := 2, row := 21, td := 3, ta := 6, tb := 9, ty := 5, msk := 3 }),
    (0x9CC5485C, none, .vscat { pred := 1, row := 17, td := 5, ta := 2, tb := 1, ty := 3, msk := 2 }),
    (0xA0A5042A, none, .vmov { pred := 1, row := 9, td := 4, ta := 1, tb := 0, ty := 5, msk := 1 }),
    (0xA154C18A, none, .vmovPop { pred := 2, row := 21, td := 3, ta := 0, tb := 6, ty := 1, msk := 1 }),
    (0xA2243652, none, .vmovPush { pred := 4, row := 9, td := 0, ta := 13, tb := 9, ty := 2, msk := 1 }),
    (0xA5D64362, none, .vsplat { pred := 3, row := 21, td := 9, tb := 13, ty := 4, msk := 1, lng := none }),
    (0xAAA4805C, none, .viota { pred := 5, row := 9, td := 2, ta := 0, tb := 1, ty := 3, msk := 2 }),
    (0xAC804040, none, .vmskAnd { pred := 1, row := 0, td := 1, ta := 0, tb := 1, ty := 0, msk := 0 }),
    (0xAE844840, none, .vmskOr { pred := 5, row := 1, td := 1, ta := 2, tb := 1, ty := 0, msk := 0 }),
    (0xAD888440, none, .vmskXor { pred := 3, row := 2, td := 2, ta := 1, tb := 1, ty := 0, msk := 0 }),
    (0xAE0C4440, none, .vmskAndn { pred := 4, row := 3, td := 1, ta := 1, tb := 1, ty := 0, msk := 0 })] = true := by decide +kernel

theorem test_decode_slotV_3 : reads 4 [
    (0xAD104C00, none, .vmskCopy { pred := 2, row := 4, td := 1, ta := 3, tb := 0, ty := 0, msk := 0 }),
    (0xAF144400, none, .vmskNot { pred := 6, row := 5, td := 1, ta := 1, tb := 0, ty := 0, msk := 0 }),
    (0xAE184068, none, .vmskFirst { pred := 4, row := 6, td := 1, ta := 0, tb := 1, ty := 5, msk := 0 }),
    (0xB124C032, none, .vmcnt { pred := 2, row := 9, td := 3, ta := 0, tb := 0, ty := 6, msk := 1 }),
    (0xB4444152, none, .vacc { pred := 0, row := 17, td := 1, ta := 0, tb := 5, ty := 2, msk := 1 }),
    (0xB9818000, none, .vfree { pred := 3, row := 0, td := 6, ta := 0, tb := 0, ty := 0, msk := 0 }),
    (0x00000000, none, .nopV)] = true := by decide +kernel

theorem test_decode_slotX : reads 5 [
    (0x09340000, none, .mlease { pred := 1, n := 13 }),
    (0x14000000, none, .mrel { pred := 4 }),
    (0x19BF2A80, none, .mlds { pred := 1, off := .imm 63, key := 5, fb := 2, sb := 1 }),
    (0x236E2000, none, .mma { pred := 3, ta := 6, g := 1, sb := 1, fa := 4, za := 1 }),
    (0x2555D000, none, .mmaAcc { pred := 5, ta := 5, g := 0, sb := 1, fa := 3, za := 2 }),
    (0x29083A00, none, .macr { pred := 1, bank := 0, brow := 4, tile := 1, trow := 13, ty := 0 }),
    (0x3226D200, none, .macw { pred := 2, bank := 1, brow := 3, tile := 6, trow := 9, ty := 0 }),
    (0x3C200000, none, .macz { pred := 4, bank := 1 }),
    (0x45280000, none, .mkz { pred := 5, key := 5 }),
    (0x42040000, none, .mkzAll { pred := 2 }),
    (0x490CE800, none, .mcntLoads { pred := 1, dst := 3, reg := .reg 58 }),
    (0x49341600, none, .mcntSteps { pred := 1, dst := 13, reg := .reg 5 }),
    (0x51340000, none, .mstat { pred := 1, dst := 13, bank := 0 }),
    (0x00000000, none, .nopX)] = true := by decide +kernel

theorem test_decode_slotE_1 : reads 6 [
    (0x0509B003, none, .cpy { pred := 2, cls := 1, evt := 3, kb := 6, flags := 3 }),
    (0x0A0EA800, none, .cpy2d { pred := 4, cls := 1, evt := 13, kb := 5, flags := 0 }),
    (0x0D09B006, none, .cpys { pred := 2, cls := 1, evt := 3, kb := 6, flags := 6 }),
    (0x120EA800, none, .cpyd { pred := 4, cls := 1, evt := 13, kb := 5, flags := 0 }),
    (0x149B4800, none, .gath { pred := 1, cls := 3, evt := 6, kb := 9, flags := 0 }),
    (0x1AA0E800, none, .scat { pred := 5, cls := 4, evt := 1, kb := 13, flags := 0 }),
    (0x1E909800, none, .bsld { pred := 5, cls := 2, evt := 1, kb := 3, flags := 0 }),
    (0x2304EA80, none, .tnew { pred := 6, cls := 0, evt := 9, kb := 13, flags := 640 }),
    (0x2486A840, none, .tdel { pred := 1, cls := 0, evt := 13, kb := 5, flags := 64 }),
    (0x2881B120, none, .tlend { pred := 1, cls := 0, evt := 3, kb := 6, flags := 288 }),
    (0x2E8209A0, none, .tgive { pred := 5, cls := 0, evt := 4, kb := 1, flags := 416 }),
    (0x32810860, none, .tret { pred := 5, cls := 0, evt := 2, kb := 1, flags := 96 }),
    (0x3704EA80, none, .tsplit { pred := 6, cls := 0, evt := 9, kb := 13, flags := 640 }),
    (0x3886A840, none, .tmerge { pred := 1, cls := 0, evt := 13, kb := 5, flags := 64 }),
    (0x3C81B120, none, .tshare { pred := 1, cls := 0, evt := 3, kb := 6, flags := 288 }),
    (0x428209A0, none, .tashr { pred := 5, cls := 0, evt := 4, kb := 1, flags := 416 }),
    (0x46810860, none, .tunsh { pred := 5, cls := 0, evt := 2, kb := 1, flags := 96 }),
    (0x4B04EA80, none, .tacq { pred := 6, cls := 0, evt := 9, kb := 13, flags := 640 }),
    (0x4C86A840, none, .trel { pred := 1, cls := 0, evt := 13, kb := 5, flags := 64 }),
    (0x5081B120, none, .trevive { pred := 1, cls := 0, evt := 3, kb := 6, flags := 288 }),
    (0x56802420, none, .tqry { pred := 5, cls := 0, evt := 0, kb := 4, flags := 1056 }),
    (0x5AA9080D, none, .send { pred := 5, cls := 5, evt := 2, kb := 1, flags := 13 }),
    (0x5EA0E81B, none, .recv { pred := 5, cls := 4, evt := 1, kb := 13, flags := 27 }),
    (0x634EA006, none, .coll { pred := 6, cls := 9, evt := 13, kb := 4, flags := 6 })] = true := by decide +kernel

theorem test_decode_slotE_2 : reads 6 [
    (0x6690008E, none, .vfpush { pred := 5, cls := 2, evt := 0, kb := 0, flags := 142 }),
    (0x68E80225, none, .vfpop { pred := 1, cls := 13, evt := 0, kb := 0, flags := 549 }),
    (0x6E800053, none, .vfcnt { pred := 5, cls := 0, evt := 0, kb := 0, flags := 83 }),
    (0x73048208, none, .ewait { pred := 6, cls := 0, evt := 9, kb := 0, flags := 520 }),
    (0x760081A0, none, .evr { pred := 4, cls := 0, evt := 1, kb := 0, flags := 416 }),
    (0x7A810028, none, .eset { pred := 5, cls := 0, evt := 2, kb := 0, flags := 40 }),
    (0x7DB4E800, none, .notify { pred := 3, cls := 6, evt := 9, kb := 13, flags := 0 }),
    (0x820EA800, none, .launch { pred := 4, cls := 1, evt := 13, kb := 5, flags := 0 }),
    (0x8509B000, none, .decide { pred := 2, cls := 1, evt := 3, kb := 6, flags := 0 }),
    (0x88EA0800, none, .cancel { pred := 1, cls := 13, evt := 4, kb := 1, flags := 0 }),
    (0x8EA90801, none, .scrub { pred := 5, cls := 5, evt := 2, kb := 1, flags := 1 }),
    (0x9304E800, none, .splreq { pred := 6, cls := 0, evt := 9, kb := 13, flags := 0 }),
    (0x960EA810, none, .rtset { pred := 4, cls := 1, evt := 13, kb := 5, flags := 16 }),
    (0x00000000, none, .nopE)] = true := by decide +kernel

theorem test_decode_slotF : reads 7 [
    (0x08000003, none, .scope { scope := 3 }),
    (0x138EB400, none, .scld { pred := 3, z := 2, base := .reg 58, cls := 13 }),
    (0x1C306000, none, .fmtw { pred := 4, f := 1, a := .imm 3 }),
    (0x25408000, none, .fmtr { pred := 5, f := 2, dst := 1 }),
    (0x2B4CEA80, none, .fbx { pred := 3, row := 9, td := 9, ta := 13, id := 20 }),
    (0x318A9000, none, .fexp2 { pred := 1, row := 17, td := 5, ta := 2 }),
    (0x398B4800, none, .flog2 { pred := 1, row := 17, td := 6, ta := 9 }),
    (0x4588E800, none, .frcp { pred := 5, row := 17, td := 1, ta := 13 }),
    (0x4D889800, none, .frsq { pred := 5, row := 17, td := 1, ta := 3 }),
    (0x568EA000, none, .fsqrt { pred := 6, row := 17, td := 13, ta := 4 }),
    (0x598A9000, none, .ftanh { pred := 1, row := 17, td := 5, ta := 2 }),
    (0x618B4800, none, .fsig { pred := 1, row := 17, td := 6, ta := 9 }),
    (0x6D532000, none, .ttrd { pred := 5, dst := 20, a := .unitIdx }),
    (0x75000005, none, .hint { pred := 5, pay := 5 }),
    (0x7A2F0000, none, .seedw { pred := 2, a := .reg 47 }),
    (0x00000000, none, .nopF)] = true := by decide +kernel


/-! Witnesses: for every statement with hypotheses, a state and operands that meet them, clause by clause. -/

/-- Nothing delays the bundle, as a test. -/
def quietB (s : State) : Bool :=
  let t := s.here
  decide (s.cur.2 < 4) && t.slot0.st == .running && !t.haltWait && t.frz.isNone && t.fifoWait.isNone && t.rtTimeout.isNone && !t.skip0 && !t.skipRest &&
    t.pend.isEmpty && t.sbd.isEmpty && t.nextIss.isEmpty && !t.stepOnce && t.preempt.isNone && t.c.loops.head?.all fun e => e.last != t.c.pc.toNat || e.depth != t.c.callDepth

theorem quiet_of {s : State} (h : quietB s = true) : Quiet s := by
  simp only [quietB, Bool.and_eq_true, decide_eq_true_eq, beq_iff_eq, Bool.not_eq_true', Option.isNone_iff_eq_none, List.isEmpty_iff] at h
  obtain ⟨⟨⟨⟨⟨⟨⟨⟨⟨⟨⟨⟨⟨h1, h2⟩, h3⟩, h4⟩, h5⟩, h6⟩, h7⟩, h8⟩, h9⟩, h10⟩, h11⟩, h12⟩, h13⟩, h14⟩ := h
  refine ⟨h1, h2, h3, h4, h5, h6, ⟨h7, h8⟩, h9, h10, ?_, h12, h13, ?_⟩
  · intro key; rw [h11]; exact Nat.zero_le _
  · intro e he
    rw [Option.mem_def.mp he] at h14
    simpa using h14

/-- Nothing delays the bundle, and the operation runs with its latches valid: the hypotheses of most statements. -/
def Meets (s : State) (c : Instr × BitVec 3 × List Operand) : Prop := Quiet s ∧ (s.ctx c.1).ready c.2.1 c.2.2

theorem meets_of {s : State} {cs : List (Instr × BitVec 3 × List Operand)}
    (h : (quietB s && cs.all fun c => (s.ctx c.1).r.pred c.2.1.toNat && c.2.2.all fun o => !(s.ctx c.1).badLatch o) = true) : ∀ c ∈ cs, Meets s c := by
  simp only [Bool.and_eq_true, List.all_eq_true] at h
  intro c hc
  exact ⟨quiet_of h.1, (h.2 c hc).1, fun o ho => by simpa using (h.2 c hc).2 o ho⟩

theorem meets1 {s : State} {c : Instr × BitVec 3 × List Operand}
    (h : (quietB s && (s.ctx c.1).r.pred c.2.1.toNat && c.2.2.all fun o => !(s.ctx c.1).badLatch o) = true) : Meets s c := by
  refine meets_of (cs := [c]) ?_ c (.head _)
  simpa [Bool.and_assoc] using h

def reachesB (x : Ctx) (m : MemOp) (e : TlbEntry) : Bool :=
  decide (m.va % m.size = 0) && decide (m.va < 2 ^ 48) && (tlbFind x.st.mtlb x.world m.va).or (x.br.tlbHit x.world m.va) == some e &&
    (m.acc == .load || (!e.isSealed && e.w && !boundaryFault x.s x.world e)) &&
    (!m.tok || (m.acc == .load && e.isSealed) || (tokenCheck x.s (x.br.holds x.agent x.world) (e.pa m.va) m.acc).isNone) &&
    x.fareOf m (e.pa m.va) == .sent && (m.acc == .load || !x.br.bufferFull x.arm (e.pa m.va) m.size) && (!m.dbg || x.st.dataBps m.va m.size m.acc.num == 0) &&
    !x.ownXfer m && (m.acc == .store || !x.s.poisoned (e.pa m.va) m.size) && (x.s.deadLines (m.acc == .store) (e.pa m.va) m.size).isEmpty

theorem reaches_of {x : Ctx} {m : MemOp} {e : TlbEntry} (h : reachesB x m e = true) : Reaches x m e := by
  simp only [reachesB, Bool.and_eq_true, Bool.or_eq_true, decide_eq_true_eq, beq_iff_eq, Bool.not_eq_true', Option.isNone_iff_eq_none] at h
  obtain ⟨⟨⟨⟨⟨⟨⟨⟨⟨⟨h1, h2⟩, h3⟩, h4⟩, h5⟩, h6⟩, h7⟩, h8⟩, h9⟩, h10⟩, h11⟩ := h
  refine ⟨h1, h2, h3, ?_, ?_, h6, ?_, ?_, h9, ?_, List.isEmpty_iff.mp h11⟩
  · intro ha; rcases h4 with h | h
    · exact absurd h ha
    · exact ⟨h.1.1, h.1.2, h.2⟩
  · intro ht; rcases h5 with (h | h) | h
    · rw [h] at ht; cases ht
    · exact .inl h
    · exact .inr h
  · intro ha; exact h7.resolve_left ha
  · intro hd; rcases h8 with h | h
    · rw [h] at hd; cases hd
    · exact h
  · intro ha; exact h10.resolve_left ha

/-! The small machine of the witnesses: world 5 in partition 0, its launch 7 of two units running on strand 1 of braid 0, four translations held, a token of 64 KiB
at 0x30000, and a route to slice 0. -/

def wRec (extra : Nat := 0) : Rec := BitVec.ofNat 512 (7 * 2 ^ 88 + 5 * 2 ^ 100 + 0x40000 + extra)
/-- A descriptor: code at 0x48000, parameters at 0x20000, five of them, barrier 0 for two units. -/
def wDesc : Nat := 0x48000 + 0x20000 * 2 ^ 128 + 5 * 2 ^ 176 + 2 * 2 ^ 264
def wPages : List TlbEntry := [⟨5, 0x100, 0x1000000, 0, true, true, false⟩, ⟨5, 3, 0x30000, 0, false, false, true⟩, ⟨5, 4, 0x40000, 0, true, true, false⟩,
  ⟨5, 2, 0x20000, 0, true, true, false⟩]
def wMe : BitVec 24 := agentId 0 0 1
def wTok : Token :=
  { holder := wMe, lend := [], mode := 0, prov := false, orph := false, dmg := false, count := 0, world := 5, log2 := 16, base := 0x30000, snapHolder := 0
    snapDepth := 0, snapMode := 0, arm := 0 }
def wRun (extra : Nat := 0) : Slot := { st := .running, bind := wRec extra, desc := some (BitVec.ofNat 512 wDesc) }
/-- The machine with a unit whose record has further bits `extra`. -/
def wMach (extra : Nat := 0) : State :=
  let s := { State.reset with worlds := [(5, { partAssign := 0x80 })], tokens := [wTok], cur := (0, 1), serial := 50 }
  let s := s.modPart 0 fun t => { t with level := [(7, mkLevel 1 1 9 5 2 0), (9, mkLevel 4 1 9 5 1 0)] }
  let s := s.modBraid 0 fun t => { t with
    tlb := wPages, rb := [(0, { ctl := 0x0060ff8000000000, route := 0x080000000000002e })], held := [⟨wMe, 5, 0, 0x30000, 16⟩] }
  { s with mem := memSetN s.mem 0x40000 (leBytes 64 wDesc) }.modStrand 0 1 fun t =>
    { t with slot := [(0, wRun extra)], clk := 100, lastClk := 90, lastWorld := some 5
             r := { t.r with x := [(1, 7), (2, 0x30010), (48, 3)] }, c := { t.c with pc := 0x48008, latch := [(1, 9)], latchOk := 2 } }
/-- A user unit, a supervisor unit, a buffered unit. -/
def u1 : State := wMach
def uS : State := wMach (2 ^ 123)
def uB : State := wMach (2 ^ 122)
/-- The unit's strand changed. -/
def wSt (s : State) (f : Strand → Strand) : State := s.modStrand 0 1 f
def wCtl (s : State) (f : Ctl → Ctl) : State := wSt s fun t => { t with c := f t.c }
def wReg (s : State) (f : Regs → Regs) : State := wSt s fun t => { t with r := f t.r }
def wBr (s : State) (f : Braid → Braid) : State := s.modBraid 0 f


def r1 : Operand := .reg 1
def l1 : Operand := .latch 1
def cB : FmtCB := { pred := 0, off := 3 }
def cZ : FmtCZ := { pred := 0 }
def cO (o : Operand) : FmtCO := { pred := 0, tgt := o }

theorem witness_IntegerOperationsComplete : ∀ c ∈ (intR.flatMap fun e =>
      [(e.1 { aR with b := l1 }, (0 : BitVec 3), [r1, l1]), (e.1 { aR with lng := some 0xFFFFFFFF }, 0, [r1])]) ++ intI.map fun e => (e.1 aI, 0, [r1]), Meets u1 c :=
  meets_of (by decide +kernel)

theorem witness_ShiftsAndFieldsComplete :
    (∀ c ∈ (intS.map fun e => (e.1 { aS with n := 63 }, (0 : BitVec 3), [r1])) ++ (intX.map fun e => (e.1 aX, 0, [r1, .reg 2])) ++
      (fieldX.map fun e => (e.1 aX, 0, [r1, .reg 2])) ++ countU.map fun e => (e.1 aU, 0, [r1]), Meets u1 c) ∧
    Leading 7 61 ∧ Trailing 7 0 ∧ Ones 7 3 ∧ (u1.ctx (.clz aU)).opnd r1 = 7 := by
  refine ⟨meets_of (by decide +kernel), ?_, ?_, ?_, by decide +kernel⟩
  · unfold Leading; decide +kernel
  · unfold Trailing; decide +kernel
  · unfold Ones; decide +kernel

theorem witness_ComparesAndSelectComplete : (∀ c ∈ [(.cmp aC, (0 : BitVec 3), [r1, .reg 0]), (.cmp { aC with lng := some 1 }, 0, [r1]), (.cmpi aCI, 0, [r1]),
      (.fcmp { aC with cond := 5 }, 0, [r1, .reg 0]), (.sel aR, 0, [r1, .reg 0]), (.movl { sl := .A, pred := 0, ws := false, dst := 1, lng := 9 }, 0, []),
      (.movh { sl := .B, pred := 0, ws := true, dst := 1, lng := 9 }, 0, [])], Meets u1 c) ∧
    ({ aC with cond := 5 } : FmtAC).cond.toNat < 6 := ⟨meets_of (by decide +kernel), by decide⟩

theorem witness_FloatOperationsComplete : ∀ s ∈ [u1, wReg u1 fun r => { r with frm := 4 }], ∀ c ∈ (floatR.map fun e => (e.1 aR, (0 : BitVec 3), [r1, .reg 0])) ++
      [(.fcvt { aV with cvTo := 6, cvFrom := 6 }, 0, [r1])], Meets s c := by
  intro s hs
  simp only [List.mem_cons, List.not_mem_nil, or_false] at hs
  rcases hs with rfl | rfl <;> exact meets_of (by decide +kernel)

theorem witness_StagingAndPredicatesComplete : (∀ c ∈ [(.kw { bKw with b := r1 }, (0 : BitVec 3), [r1]), (.kw { bKw with lng := some 3 }, 0, []),
      (.kr { pred := 0, ws := false, dst := 1, k := 15 }, 0, []), (.pand { pred := 0, ws := false, pd := 4, pa := 0, pb := 7 }, 0, []),
      (.por { pred := 0, ws := false, pd := 0, pa := 0, pb := 7 }, 0, []), (.pxor { pred := 0, ws := true, pd := 4, pa := 0, pb := 7 }, 0, []),
      (.pnot { pred := 0, ws := false, pd := 4, pa := 0 }, 0, []), (.pget { pred := 0, ws := false, dst := 1 }, 0, []),
      (.pset { pred := 0, ws := false, b := r1, msk := 0xFF }, 0, [r1])], Meets u1 c) ∧ predBits u1.here.r 1 := by
  refine ⟨meets_of (by decide +kernel), ?_⟩
  unfold predBits; decide +kernel

theorem witness_SystemReadsCompleteOrTrap :
    (∀ c ∈ [(.rdcyc { pred := 0, ws := false, dst := 1 }, (0 : BitVec 3), []), (.gsr { pred := 0, ws := false, dst := 1, num := 0 }, 0, []),
      (.param { pred := 0, ws := false, dst := 1, a := .reg 48 }, 0, [.reg 48]), (.param { pred := 0, ws := false, dst := 1, a := r1 }, 0, [r1])], Meets u1 c) ∧
    Quiet (wSt u1 fun t => { t with clkFree := true }) ∧ u1.here.clkFree = false ∧ sysAssigned 0 = true ∧ sysSupv 0 = false ∧ sysAssigned 0x3F = false ∧
    (sysAssigned 0x21 = true ∧ sysSupv 0x21 = true ∧ (u1.ctx (.gsr { pred := 0, ws := false, dst := 1, num := 0x21 })).supv = false) ∧
    (let x := u1.ctx (.param { pred := 0, ws := false, dst := 1, a := .reg 48 }); (x.opnd (.reg 48)).toNat < dPcount x.desc ∧ Reaches x (paramAccess x 3) ⟨5, 2, 0x20000, 0, true, true, false⟩) ∧
    (if u1.here.slot0.params.isSome then 8 else dPcount u1.here.slot0.descr) ≤ ((u1.ctx (.param { pred := 0, ws := false, dst := 1, a := r1 })).opnd r1).toNat :=
  ⟨meets_of (by decide +kernel), quiet_of (by decide +kernel), by decide +kernel, by decide, by decide, by decide, by decide +kernel,
    ⟨by decide +kernel, reaches_of (by decide +kernel)⟩, by decide +kernel⟩

/-- SSR of a register of a number, its value in s1. -/
def ssrI (n : BitVec 8) : Instr := .ssr { pred := 0, num := n, b := r1 }
def uV (v : Word) : State := wReg uS fun r => { r with x := [(1, v)] }
theorem witness_SystemWritesComplete :
    (∀ c ∈ [(ssrI 0, (0 : BitVec 3), [r1]), (ssrI 0x3F, 0, [r1]), (ssrI 0x21, 0, [r1])], Meets u1 c) ∧ sysAssigned 0x3F = false ∧ (u1.ctx (ssrI 0x21)).supv = false ∧
    (∀ c ∈ [(ssrI 0x21, (0 : BitVec 3), [r1]), (ssrI 0x22, 0, [r1]), (ssrI 0x23, 0, [r1]), (ssrI 0x25, 0, [r1]), (ssrI 0x26, 0, [r1]), (ssrI 0x27, 0, [r1]),
      (ssrI 0x28, 0, [r1]), (ssrI 0x29, 0, [r1])], Meets (uV 1) c ∧ (uV 1).here.r.getX 1 = 1) ∧
    ((uV 0).here.r.getX 1).getLsbD 0 = false ∧
    (let v := 0x4800000000000000#64; bits v 59 5 < 24 ∧ bits v 57 2 = 0 ∧ (uV v).here.r.getX 1 = v ∧ ((uV v).braid 0).bankModeOf (bits v 59 5) = 0 ∧
      (uV v).bankReserved 0 (bits v 59 5) = false) ∧
    (let v := 0x4A00000000000000#64; bits v 57 2 = 1 ∧ 2 < ((uV v).braid 0).cacheBanks ∧ ((uV v).braid 0).switching (bits v 59 5) = false) ∧
    (uV 1).assigned 5 0 = true ∧ ((uV 0x0500000000000001).world 5).phase ∉ [1, 2] ∧ ((uV 0).braid 0).sync = false ∧
    ∃ i < 4, Store.get (((wBr (uV 1) fun t => { t with vf := [(2, [(5, 3, 4)])] })).braid 0).vf i [] ≠ [] :=
  ⟨meets_of (by decide +kernel), by decide, by decide +kernel,
    fun c hc => ⟨meets_of (s := uV 1) (by decide +kernel) c hc, by decide +kernel⟩, by decide +kernel, by decide +kernel, by decide +kernel, by decide +kernel,
    by decide +kernel, by decide +kernel, ⟨2, by decide, by decide +kernel⟩⟩


/-- Translations of the small machine. -/
def p2 : TlbEntry := ⟨5, 2, 0x20000, 0, true, true, false⟩
def p3 : TlbEntry := ⟨5, 3, 0x30000, 0, false, false, true⟩

theorem witness_NoEffectOperationsComplete : Quiet u1 ∧
    (∀ c ∈ [(Instr.hint { pred := 0, pay := 0 }, (0 : BitVec 3), ([] : List Operand)), (.pref { mP with base := .reg 2 }, 0, [.reg 2])], Meets u1 c) ∧
    (tlbFind (u1.ctx (.pref { mP with base := .reg 2 })).st.mtlb 5 0x30010).or ((u1.braid 0).tlbHit 5 0x30010) = some p3 ∧
    (let s := wReg u1 fun r => { r with x := [(2, 0x20010)] }
     Meets s (.pref { mP with base := .reg 2 }, 0, [.reg 2]) ∧ ((s.braid 0).tlbHit 5 0x20010) = some p2 ∧ s.homeOnly 0x20010 = false ∧ fare s 0 5 0x20010 0 = .sent ∧
       (s.braid 0).hasLine none (lineOf 0x20010) = false) ∧
    (let s := wReg u1 fun r => { r with x := [(2, 0xFE00000000000000)] }
     Meets s (.pref { mP with base := .reg 2 }, 0, [.reg 2]) ∧ isWindow 0xFE00000000000000 = true) :=
  ⟨quiet_of (by decide +kernel), meets_of (by decide +kernel), by decide +kernel,
    ⟨meets1 (by decide +kernel), by decide +kernel, by decide +kernel, by decide +kernel, by decide +kernel⟩,
    ⟨meets1 (by decide +kernel), by decide +kernel⟩⟩

/-- A unit in native form, at bundle 2 of a region of 21 whose header holds a signature. -/
def uN (sig : Nat) : State := { wCtl u1 fun c => { c with pc := 0x1000081 } with mem := memSetN u1.mem 0x1000000 (leBytes 64 (21 * 2 ^ 128 + sig)) }
def uT (v : Word) : State := wReg u1 fun r => { r with x := [(1, v)], pr := 0x10 }

theorem witness_BranchesComplete :
    (∀ c ∈ [(Instr.br cB, (0 : BitVec 3), ([] : List Operand)), (.brL { pred := 0, lng := 5 }, 0, [])], Meets u1 c) ∧ Meets (uT 0x48010) (.bri (cO r1), 0, [r1]) ∧
    Meets (uT 0x48012) (.bri (cO r1), 0, [r1]) ∧ 0x48012 % 4 = 2 ∧
    DirectOk (u1.ctx (.br cB)) (targetOf (u1.ctx (.br cB)) 3) ∧ DirectOk ((uN 3).ctx (.br cB)) (targetOf ((uN 3).ctx (.br cB)) 18) ∧
    IndirectOk ((uT 0x48010).ctx (.bri (cO r1))) 0x48010 ∧ Quiet (uN 3) ∧
    ¬ DirectOk ((uN 3).ctx (.br { pred := 0, off := 19 })) (targetOf ((uN 3).ctx (.br { pred := 0, off := 19 })) 19) ∧
    Quiet (uT 1) ∧ (uT 1).here.r.pred 5 = false ∧ (uT 1).here.r.pred 4 = true ∧
    (let s := { uT 0x1000081 with mem := (uN 3).mem }; Meets s (.bri (cO r1), 0, [r1]) ∧ fetchFault s 0 5 0x1000080 = none ∧
      regionHeader s 0 5 (regionOf 0x1000081) = some (21, 3) ∧ regionOf 0x1000081 + 64 < 0x1000081 ∧ (3 : Word) ≠ (s.braid 0).sig) := by
  refine ⟨meets_of (by decide +kernel), meets1 (by decide +kernel), meets1 (by decide +kernel), by decide,
    .inl (by decide +kernel), .inr ⟨(21, 3), by decide +kernel, by decide +kernel, by decide +kernel⟩, .inl (by decide), quiet_of (by decide +kernel), ?_, quiet_of (by decide +kernel),
    by decide +kernel, by decide +kernel, meets1 (by decide +kernel), by decide +kernel, by decide +kernel, by decide +kernel, by decide +kernel⟩
  rintro (h | ⟨h, h1, h2, h3⟩)
  · exact absurd h (by decide +kernel)
  · have e : regionHeader ((uN 3).ctx (.br { pred := 0, off := 19 })).s ((uN 3).ctx (.br { pred := 0, off := 19 })).b ((uN 3).ctx (.br { pred := 0, off := 19 })).world
        (regionOf ((uN 3).ctx (.br { pred := 0, off := 19 })).pc) = some (21, 3) := by decide +kernel
    rw [e] at h1
    cases h1
    exact absurd h3 (by decide +kernel)

/-- Eight links, room for one more at 0x30100, and none. -/
def uL (limit : Word) : State := wCtl u1 fun c =>
  { c with links := List.replicate 8 ⟨0x48100, 0⟩, linkBase := 0x30100, linkTop := 0x30100, linkLimit := limit }
theorem witness_CallsAndReturnsComplete :
    (∀ c ∈ [(Instr.call cB, (0 : BitVec 3), ([] : List Operand)), (.callL { pred := 0, lng := 5 }, 0, [])], Meets u1 c) ∧ Meets (uT 0x48010) (.calli (cO r1), 0, [r1]) ∧
    u1.here.c.links.length < 8 ∧ (Meets (uL 0x30108) (.call cB, 0, []) ∧ (uL 0x30108).here.c.links.getLast? = some ⟨0x48100, 0⟩ ∧
      0x30108 ≤ (uL 0x30108).here.c.linkLimit.toNat ∧ Reaches ((uL 0x30108).ctx (.call cB)) (spillAccess ((uL 0x30108).ctx (.call cB))) p3) ∧
    (Meets (uL 0x30107) (.call cB, 0, []) ∧ (uL 0x30107).here.c.linkLimit.toNat < 0x30108 ∧ Reaches ((uL 0x30107).ctx (.call cB)) (spillAccess ((uL 0x30107).ctx (.call cB))) p3) ∧
    (Meets (uL 0x30107) (.ret cZ, 0, []) ∧ (uL 0x30107).here.c.links = ⟨0x48100, 0⟩ :: List.replicate 7 ⟨0x48100, 0⟩ ∧ IndirectOk ((uL 0).ctx (.ret cZ)) 0x48100) ∧
    (let s := wCtl u1 fun c => { c with linkBase := 0x30100, linkTop := 0x30108 }
     Meets s (.ret cZ, 0, []) ∧ s.here.c.links = [] ∧ s.here.c.linkBase.toNat < s.here.c.linkTop.toNat ∧ Reaches (s.ctx (.ret cZ)) (refillAccess (s.ctx (.ret cZ))) p3 ∧
       leNat (readBuf s 0 none 0x30100 8) % 4 = 0) ∧
    (let s := wCtl u1 fun c => { c with linkBase := 0x30108, linkTop := 0x30108 }
     Meets s (.ret cZ, 0, []) ∧ s.here.c.linkTop.toNat ≤ s.here.c.linkBase.toNat ∧ Reaches (s.ctx (.ret cZ)) (refillAccess (s.ctx (.ret cZ))) p3) :=
  ⟨meets_of (by decide +kernel), meets1 (by decide +kernel), by decide +kernel,
    ⟨meets1 (by decide +kernel), by decide +kernel, by decide +kernel, reaches_of (by decide +kernel)⟩,
    ⟨meets1 (by decide +kernel), by decide +kernel, reaches_of (by decide +kernel)⟩,
    ⟨meets1 (by decide +kernel), by decide +kernel, .inl (by decide)⟩,
    ⟨meets1 (by decide +kernel), by decide +kernel, by decide +kernel, reaches_of (by decide +kernel), by decide +kernel⟩,
    ⟨meets1 (by decide +kernel), by decide +kernel, reaches_of (by decide +kernel)⟩⟩

/-- A loop entry of the current call depth that ends at bundle `last`. -/
def wLoop (last depth : Nat) : LoopEntry := { first := 0x48000, last := last, exit := last + 4, count := 3, n := 0, idx := 1, depth := depth, rot := false }
def cR : FmtCR := { pred := 0, cnt := r1, len := 4 }
theorem witness_LoopsComplete :
    (∀ c ∈ [(Instr.loop cR, (0 : BitVec 3), [r1]), (.loopr cR, 0, [r1]), (.loopL { pred := 0, len := 4, lng := 0 }, 0, [])], Meets u1 c) ∧
    BodyOk (u1.ctx (.loop cR)) 4 ∧ u1.here.c.pc.toNat < 2 ^ 48 ∧ 0 < low32 ((u1.ctx (.loop cR)).opnd r1) ∧ u1.here.c.loops.length < 6 ∧
    (Meets (uT 0) (.loop cR, 0, [r1]) ∧ low32 (((uT 0).ctx (.loop cR)).opnd r1) = 0) ∧
    (let s := wCtl u1 fun c => { c with loops := List.replicate 6 (wLoop 0x50000 0) }
     Meets s (.loop cR, 0, [r1]) ∧ s.here.c.loops.length = 6 ∧ BodyOk (s.ctx (.loop cR)) 4) ∧
    (let s := wCtl u1 fun c => { c with loops := [wLoop 0x50000 0] }
     Meets s (.leave cZ, 0, []) ∧ s.here.c.loops = wLoop 0x50000 0 :: [] ∧ (wLoop 0x50000 0).depth = s.here.c.callDepth) ∧
    (let s := wCtl u1 fun c => { c with loops := [wLoop 0x48008 1] }
     Meets s (.leave cZ, 0, []) ∧ ∀ e ∈ s.here.c.loops.head?, e.depth ≠ s.here.c.callDepth) := by
  refine ⟨meets_of (by decide +kernel), ⟨fun h => absurd h (by decide +kernel), by decide +kernel⟩, by decide +kernel, by decide +kernel, by decide +kernel,
    ⟨meets1 (by decide +kernel), by decide +kernel⟩,
    ⟨meets1 (by decide +kernel), by decide +kernel, ⟨fun h => absurd h (by decide +kernel), by decide +kernel⟩⟩,
    ⟨meets1 (by decide +kernel), by decide +kernel, by decide +kernel⟩,
    ⟨meets1 (by decide +kernel), by decide +kernel⟩⟩

theorem witness_BackEdgesOfOneLoop :
    let e := { wLoop 0x48008 0 with rot := true, n := 2 }
    let c := { u1.here.c with loops := [e, wLoop 0x48008 1] }
    c.loops = e :: [wLoop 0x48008 1] ∧ e.last = 0x48008 ∧ e.depth = c.callDepth ∧ e.count ≤ 2 ^ 32 ∧ (∀ o ∈ [wLoop 0x48008 1].head?, o.last ≠ 0x48008 ∨ o.depth ≠ c.callDepth) ∧
    e.idx.toNat + 1 < e.count ∧ ({ e with count := 2 } : LoopEntry).count ≤ e.idx.toNat + 1 ∧ e.rot = true := by decide +kernel

def cX : FmtCX := { pred := 0, code := 5 }
theorem witness_SafeYieldHaltComplete :
    (∀ c ∈ [(Instr.safe cX, (0 : BitVec 3), ([] : List Operand)), (.yield cZ, 0, []), (.halt cZ, 0, [])], Meets u1 c) ∧ u1.here.c.pc.getLsbD 0 = false ∧ u1.here.c.loops = [] ∧
    (u1.part 0).tcache = [] ∧ (u1.ctx (.yield cZ)).br.holder ≠ some 1 ∧
    (let s := wBr u1 fun t => { t with holder := some 1, left := 3 }; Meets s (.yield cZ, 0, []) ∧ (s.ctx (.yield cZ)).br.holder = some 1) ∧
    Meets (wCtl u1 fun c => { c with pc := 0x1000081 }) (.safe cX, 0, []) :=
  ⟨meets_of (by decide +kernel), by decide +kernel, by decide +kernel, by decide +kernel, by decide +kernel,
    ⟨meets1 (by decide +kernel), by decide +kernel⟩, meets1 (by decide +kernel)⟩

theorem witness_LocalTrapsAndReturn :
    (let s := wCtl uS fun c => { c with trapCtl := 3, trapVec := 0x48200 }
     Meets s (.trap cX, 0, []) ∧ Meets s (.brk cX, 0, []) ∧ recSupv s.here.slot0.bind = true ∧ s.here.c.trapCtl.getLsbD 3 = false ∧ s.here.c.trapCtl.getLsbD 0 = true ∧
       s.here.c.trapCtl.getLsbD 1 = true) ∧
    (let s := wCtl uS fun c => { c with trapCtl := 8, trapEpc := 0x48100, localPc := 0x48100, trapCause := 0x511 }
     Meets s (.eret cZ, 0, []) ∧ s.here.c.trapCtl.getLsbD 3 = true ∧ IndirectOk (s.ctx (.eret cZ)) s.here.c.trapEpc.toNat) ∧
    recSupv u1.here.slot0.bind = false ∧ uS.here.c.trapCtl.getLsbD 3 = false ∧ Meets uS (.eret cZ, 0, []) :=
  ⟨⟨meets1 (by decide +kernel), meets1 (by decide +kernel), by decide +kernel⟩,
    ⟨meets1 (by decide +kernel), by decide +kernel, .inl (by decide +kernel)⟩, by decide +kernel, by decide +kernel,
    meets1 (by decide +kernel)⟩

theorem witness_TrapsFreezeWithRecord : Meets u1 (.trap cX, 0, []) ∧ Meets u1 (.brk cX, 0, []) ∧ recSupv u1.here.slot0.bind = false ∧ (u1.braid 0).cmds = [] ∧
    (u1.part (partOf u1.cur.1)).heldRecs = [] ∧ (u1.part 0).tail ≠ (u1.part 0).head + 256 :=
  ⟨meets1 (by decide +kernel), meets1 (by decide +kernel), by decide +kernel⟩

/-- Barrier 0 with an expected count and arrivals. -/
def uBar (arrived : Nat) : State := wBr u1 fun t => { t with bars := [(0, { launch := some 7, expected := 2, arrived := arrived })] }
def fBar : FmtCBar := { pred := 0, bar := 0 }
theorem witness_BarriersComplete :
    (∀ n ∈ [0, 1], ∀ c ∈ [(Instr.barArr fBar, (0 : BitVec 3), ([] : List Operand)), (.barWait fBar, 0, []), (.barSync fBar, 0, [])], Meets (uBar n) c) ∧
    dBarCfg (uBar 0).here.slot0.descr 0 ≠ 0 ∧ Store.has (uBar 0).here.c.barArr 0 = false ∧ (uBar 0).here.c.syncArr = false ∧
    (Store.get ((uBar 0).braid 0).bars 0 {}).arrived + 1 < (Store.get ((uBar 0).braid 0).bars 0 {}).expected ∧
    (Store.get ((uBar 1).braid 0).bars 0 {}).expected ≤ (Store.get ((uBar 1).braid 0).bars 0 {}).arrived + 1 ∧
    (let s := wCtl (uBar 1) fun c => { c with barArr := [(0, false)] }; Meets s (.barWait fBar, 0, []) ∧ Store.has s.here.c.barArr 0 = true) ∧
    (let s := wCtl (uBar 0) fun c => { c with syncArr := true }; Meets s (.barSync fBar, 0, []) ∧ s.here.c.syncArr = true) ∧
    dBarCfg u1.here.slot0.descr 1 = 0 := by
  refine ⟨?_, by decide +kernel, by decide +kernel, by decide +kernel, by decide +kernel, by decide +kernel,
    ⟨meets1 (by decide +kernel), by decide +kernel⟩,
    ⟨meets1 (by decide +kernel), by decide +kernel⟩, by decide +kernel⟩
  intro n hn
  simp only [List.mem_cons, List.not_mem_nil, or_false] at hn
  rcases hn with rfl | rfl <;> exact meets_of (by decide +kernel)


theorem witness_WritesChangeTheirBytesAlone : u1.Inv ∧ (u1.writeN 0x40000 [0, 1]).Inv := by unfold State.Inv; decide +kernel

/-- The base register s2 with a value; a ready slab 2 of 1 KiB in bank 6; bank 7 a FIFO of two rows. -/
def uA (v : Word) (s : State := u1) : State := wReg s fun r => { r with x := [(1, 7), (2, v)] }
def wWin : Word := 0xFE08000000000000
def uW (s : State := u1) : State := wBr (uA wWin s) fun t =>
  { t with slab := [(2, mkSlab 5 2 1 4 0 6)], bankMode := [(6, 1), (7, 2)], bankTag := [(6, 5), (7, 5)], fifo := [(7, [3, 4])] }
theorem reachesSlab_of {x : Ctx} {m : MemOp} (h : (decide (m.va % m.size = 0) && isWindow m.va && decide (slabWorld (x.br.slabOf (winSlab m.va)) = x.world) &&
      decide (slabState (x.br.slabOf (winSlab m.va)) = 2) && decide (winOff m.va + m.size ≤ slabSize (x.br.slabOf (winSlab m.va)) * 256) &&
      decide (x.st.dataBps m.va m.size m.acc.num = 0)) = true) : ReachesSlab x m := by
  simp only [Bool.and_eq_true, decide_eq_true_eq] at h
  obtain ⟨⟨⟨⟨⟨h1, h2⟩, h3⟩, h4⟩, h5⟩, h6⟩ := h
  exact ⟨h1, h2, h3, h4, h5, fun _ => h6⟩

def mLd : FmtML := { mL with base := .reg 2 }
theorem witness_LoadsComplete : (∀ s ∈ [u1, uW, uA 0x30011], ∀ c ∈ loads.map fun e => (e.1 mLd, (0 : BitVec 3), [.reg 2]), Meets s c) ∧
    (∀ n ∈ [1, 2, 4, 8], Reaches (u1.ctx (.ld64 mLd)) (mAccess 0x30010 n .load 0) p3 ∧ ReachesSlab (uW.ctx (.ld64 mLd)) (mAccess 0xFE08000000000000 n .load 0)) ∧
    eaOf (u1.ctx (.ld64 mLd)) (.reg 2) 0 8 none = 0x30010 ∧ eaOf (uW.ctx (.ld64 mLd)) (.reg 2) 0 8 none = 0xFE08000000000000 ∧ 0x30011 % 2 ≠ 0 ∧
    ((uA 0x30011).ctx (.ld64 mLd)).br.tlbHit 5 0x30011 = some p3 ∧ (uA 0x30011).xfers = [] := by
  refine ⟨?_, ?_, by decide +kernel, by decide +kernel, by decide, by decide +kernel, by decide +kernel⟩
  · intro s hs
    simp only [List.mem_cons, List.not_mem_nil, or_false] at hs
    rcases hs with rfl | rfl | rfl <;> exact meets_of (by decide +kernel)
  · intro n hn
    simp only [List.mem_cons, List.not_mem_nil, or_false] at hn
    rcases hn with rfl | rfl | rfl | rfl <;> exact ⟨reaches_of (by decide +kernel), reachesSlab_of (by decide +kernel)⟩

def mSt : FmtMS := { mS with base := .reg 2 }
theorem witness_StoresComplete : (∀ s ∈ [u1, uB, uW, uA 0x30011], ∀ c ∈ stores.map fun e => (e.1 mSt, (0 : BitVec 3), [r1, .reg 2]), Meets s c) ∧
    (∀ n ∈ [1, 2, 4, 8], Reaches (u1.ctx (.st64 mSt)) (mAccess 0x30010 n .store 0) p3 ∧ Reaches (uB.ctx (.st64 mSt)) (mAccess 0x30010 n .store 0) p3 ∧
      ReachesSlab (uW.ctx (.st64 mSt)) (mAccess 0xFE08000000000000 n .store 0)) ∧ recBuf u1.here.slot0.bind = false ∧ recBuf uB.here.slot0.bind = true := by
  refine ⟨?_, ?_, by decide +kernel, by decide +kernel⟩
  · intro s hs
    simp only [List.mem_cons, List.not_mem_nil, or_false] at hs
    rcases hs with rfl | rfl | rfl | rfl <;> exact meets_of (by decide +kernel)
  · intro n hn
    simp only [List.mem_cons, List.not_mem_nil, or_false] at hn
    rcases hn with rfl | rfl | rfl | rfl <;> exact ⟨reaches_of (by decide +kernel), reaches_of (by decide +kernel), reachesSlab_of (by decide +kernel)⟩

theorem witness_TileRowAccessesComplete : Meets (uA 0x30100) (.ldt { mT with base := .reg 2 }, 0, [.reg 2]) ∧ Meets (uA 0x30100) (.stt { mT with base := .reg 2 }, 0, [.reg 2]) ∧
    Reaches ((uA 0x30100).ctx (.ldt { mT with base := .reg 2 })) (mAccess 0x30100 256 .load 0) p3 ∧
    Reaches ((uA 0x30100).ctx (.stt { mT with base := .reg 2 })) (mAccess 0x30100 256 .store 0) p3 ∧ recBuf (uA 0x30100).here.slot0.bind = false :=
  ⟨meets1 (by decide +kernel), meets1 (by decide +kernel), reaches_of (by decide +kernel), reaches_of (by decide +kernel), by decide +kernel⟩

/-- The number of a FIFO bank in s2 and o0. -/
def uF (q : Word) (rows : List Row := [3, 4]) : State := wReg (wBr uW fun t => { t with fifo := [(7, rows)] }) fun r => { r with x := [(2, q), (48, q)] }
def fT : FmtMT := { mT with base := .reg 2, off := 0 }
theorem witness_FifoBanksComplete :
    (∀ c ∈ [(Instr.ldtf fT, (0 : BitVec 3), [.reg 2]), (.sttf fT, 0, [.reg 2]), (.vmovPop vE, 0, []), (.vmovPush vE, 0, [])], Meets (uF 7) c) ∧
    (7 < 24 ∧ ((uF 7).braid 0).bankModeOf 7 = 2 ∧ ((uF 7).braid 0).switching 7 = false ∧ Store.get ((uF 7).braid 0).bankTag 7 5 = 5 ∧ ((uF 7).braid 0).fifoOf 7 = 3 :: [4] ∧
      Store.has ((uF 7).braid 0).fifoBad 7 = false ∧ (∀ k < 4, ((uF 7).strand 0 k).fifoWait = none) ∧ (((uF 7).braid 0).fifoOf 7).length < 256) ∧
    eaOf ((uF 7).ctx (.ldtf fT)) (.reg 2) 0 0 none = 7 ∧ ((uF 7).here.r.getX 48).toNat = 7 ∧
    (Meets (uF 7 []) (.ldtf fT, 0, [.reg 2]) ∧ ((uF 7 []).braid 0).fifoOf 7 = []) ∧ (Meets (uF 24) (.ldtf fT, 0, [.reg 2]) ∧ 24 ≤ eaOf ((uF 24).ctx (.ldtf fT)) (.reg 2) 0 0 none) ∧
    (Meets (uF 6) (.ldtf fT, 0, [.reg 2]) ∧ ((uF 6).braid 0).bankModeOf 6 ≠ 2) :=
  ⟨meets_of (by decide +kernel), by decide +kernel, by decide +kernel, by decide +kernel, ⟨meets1 (by decide +kernel), by decide +kernel⟩,
    ⟨meets1 (by decide +kernel), by decide +kernel⟩, ⟨meets1 (by decide +kernel), by decide +kernel⟩⟩

def mAm : FmtMA := { mA with base := .reg 2 }
theorem witness_AtomicsComplete : (∀ c ∈ atomics.map fun e => (e.1 mAm, (0 : BitVec 3), [.reg 2]), Meets u1 c) ∧ (u1.ctx (.amoFadd mAm)).masked 6 = false ∧
    Reaches (u1.ctx (.amoAdd mAm)) (mAccess 0x30010 8 .amo 0) p3 ∧ Reaches (u1.ctx (.amoFadd mAm)) (mAccess 0x30010 4 .amo 0) p3 ∧
    (let s := wBr { u1 with tokens := [{ wTok with mode := 1, count := 1 }] } fun t => { t with held := [⟨wMe, 5, 1, 0x30000, 16⟩] }
     Meets s (.amoAdd mAm, 0, [.reg 2]) ∧ s.tokenAt 0x30010 = some { wTok with mode := 1, count := 1 } ∧ (s.braid 0).holds wMe 5 0x30000 16 1 = true ∧ fare s 0 5 0x30010 1 = .sent ∧
       boundaryFault s 5 p3 = false) :=
  ⟨meets_of (by decide +kernel), by decide +kernel, reaches_of (by decide +kernel), reaches_of (by decide +kernel),
    ⟨meets1 (by decide +kernel), by decide +kernel, by decide +kernel, by decide +kernel, by decide +kernel⟩⟩

/-- A copy the engine serves for the strand. -/
def wCmd : Cmd := { seq := 30, strand := 1, world := 5, op := 1, cls := 0, scope := 1, evt := 2, flags := 0, blk := [0x30000, 0x20000, 64], held := [(0x30000, 16, 0)], acc := true }
def uC : State := wBr u1 fun t => { t with cmds := [wCmd] }
def fx (m : BitVec 6) : FmtMFx := { pred := 0, paths := m }
theorem witness_FencesAndLocksComplete :
    (∀ c ∈ [(Instr.fenceC { pred := 0, msk := 5 }, (0 : BitVec 3), ([] : List Operand)), (.fenceX { pred := 0, paths := 3 }, 0, []), (.fenceE { pred := 0 }, 0, []),
      (.ilock { pred := 0, dst := 1, a := .reg 2, n := .reg 5 }, 0, [.reg 2, .reg 5]), (.iunlk { pred := 0, a := .reg 2, n := .reg 5 }, 0, [.reg 2, .reg 5])], Meets u1 c) ∧
    (∀ c ∈ (u1.braid 0).cmds, c.strand ≠ 1) ∧ (∀ n < 2, (Store.get (u1.braid 0).sbuf n {}).st ≠ 1 ∨ (Store.get (u1.braid 0).sbuf n {}).strand ≠ 1) ∧ u1.here.pendErr = [] ∧
    (Meets uC (.fenceX { pred := 0, paths := 6 }, 0, []) ∧ wCmd ∈ (uC.braid 0).cmds ∧ wCmd.path = 1 ∧ (6 : BitVec 6).getLsbD 1 = true ∧ ∃ q < 6, q ≠ 1 ∧ (6 : BitVec 6).getLsbD q = true) ∧
    (let s := wSt u1 fun t => { t with pendErr := [4, 9] }; Meets s (.fenceE { pred := 0 }, 0, []) ∧ s.here.pendErr = 4 :: [9]) ∧ Meets uC (.fenceE { pred := 0 }, 0, []) ∧
    min ((u1.ctx (.ilock { pred := 0, dst := 1, a := .reg 2, n := .reg 5 })).opnd (.reg 5)).toNat 65536 = 0 ∧
    (let s := wReg u1 fun r => { r with x := [(2, 0x40000), (5, 300)] }
     Meets s (.ilock { pred := 0, dst := 1, a := .reg 2, n := .reg 5 }, 0, [.reg 2, .reg 5]) ∧ (∀ l ∈ linesFrom 0x40000 300, fetchFault s 0 5 l = none) ∧
       (s.braid 0).lockedLines + (linesFrom 0x40000 300).length ≤ 512) :=
  ⟨meets_of (by decide +kernel), by decide +kernel, by decide +kernel, by decide +kernel, ⟨meets1 (by decide +kernel), by decide +kernel, by decide +kernel, by decide +kernel, 2, by decide, by decide⟩,
    ⟨meets1 (by decide +kernel), by decide +kernel⟩, meets1 (by decide +kernel), by decide +kernel, ⟨meets1 (by decide +kernel), by decide +kernel, by decide +kernel⟩⟩

/-- A slab word in s1: slab 3 of 2 KiB at 4 KiB of bank 6; the slab in states and of owners. -/
def uD (e : Word) : State := wReg (wBr uW fun t => { t with slab := [(2, e)] }) fun r => { r with x := [(1, 2)] }
def fSl : FmtMSl := { pred := 0, dst := 1, x := r1 }
theorem witness_SlabOperationsComplete :
    (let v : Word := 0xCC20080
     let s := wReg uW fun r => { r with x := [(1, v)] }
     Meets s (.slabDef fSl, 0, [r1]) ∧ bits v 32 32 = 0 ∧ bits v 0 4 = 0 ∧ bits v 26 6 = 3 ∧ bits v 21 5 = 6 ∧ bits v 13 8 = 16 ∧ bits v 4 9 = 8 ∧
       Store.get (s.braid 0).bankTag 6 5 = 5 ∧ slabSize ((s.braid 0).slabOf 3) = 0 ∧ (s.braid 0).switching 6 = false ∧ s.bankReserved 0 6 = false ∧ (s.braid 0).bankModeOf 6 = 1 ∧
       Store.get (s.braid 0).bankLast 6 5 = 5 ∧ ∀ i < 64, slabSize ((s.braid 0).slabOf i) ≠ 0 → slabBank ((s.braid 0).slabOf i) = 6 →
         16 + 8 ≤ slabOffset ((s.braid 0).slabOf i) ∨ slabOffset ((s.braid 0).slabOf i) + slabSize ((s.braid 0).slabOf i) ≤ 16) ∧
    (∀ e ∈ [mkSlab 5 2 1 4 0 6, mkSlab 5 0 1 4 0 6, mkSlab 6 2 1 4 0 6, mkSlab 5 2 0 4 0 6, mkSlab 5 1 1 4 0 6, 0],
      ∀ c ∈ [(Instr.slabQry fSl, (0 : BitVec 3), [r1]), (.slabRdy fSl, 0, [r1]), (.slabEmp fSl, 0, [r1]), (.slabRel fSl, 0, [r1])], Meets (uD e) c) ∧
    (slabSize (mkSlab 6 2 1 4 0 6) ≠ 0 ∧ slabWorld (mkSlab 6 2 1 4 0 6) ≠ 5 ∧ slabOwner (mkSlab 5 2 0 4 0 6) ≠ 1 ∧ slabState (mkSlab 5 1 1 4 0 6) ∉ [0, 2, 4] ∧
      slabState (mkSlab 5 2 1 4 0 6) ∈ [2, 4] ∧ slabState (mkSlab 5 0 1 4 0 6) ∈ [0] ∧ slabSize 0 = 0) := by
  refine ⟨⟨meets1 (by decide +kernel), by decide +kernel⟩, ?_, by decide +kernel⟩
  intro e he
  simp only [List.mem_cons, List.not_mem_nil, or_false] at he
  rcases he with rfl | rfl | rfl | rfl | rfl | rfl <;> exact meets_of (by decide +kernel)


theorem witness_MaskedRowWritesTheirLanesAlone : (15 : Nat) < 16 ∧ (8 : Nat) ∈ [8, 16, 32] ∧ 256 = 2048 / 8 ∧ (List.replicate 256 255).length = 256 ∧
    (∀ v ∈ List.replicate 256 255, v < 2 ^ 8) ∧ (15, 15) ≠ ((15, 14) : Nat × Nat) := by decide +kernel

theorem witness_ElementwiseOperationsComplete :
    ∀ c ∈ (vec2.map fun e => (e.1 vE, (0 : BitVec 3), ([] : List Operand))) ++ (vec3.map fun e => (e.1 vE, 0, [])) ++ vec1.map fun e => (e.1 { vE with ty := 7 }, 0, []), Meets u1 c :=
  meets_of (by decide +kernel)

/-- VMSK.FIRST of three lanes of 8 bits, a compare of equal rows of 32-bit lanes. -/
theorem witness_MaskOperationsComplete :
    (∀ c ∈ (vcompares.map fun e => (e.1 vE, (0 : BitVec 3), ([] : List Operand))) ++ (maskLogic.map fun e => (e.1 { vE with ta := 3, tb := 0 }, 0, [])) ++
      [(.vsel vE, 0, []), (.vmskFirst { vE with ty := 7 }, 0, []), (.vmcnt vE, 0, [])], Meets u1 c) ∧
    (let n := (u1.here.r.getX 48).toNat; ∀ j < 256, (7 : BitVec 256).getLsbD j = (decide (j < tyLanes 7) && decide (j < n))) ∧
    (∀ j < 256, (0xFFFFFFFFFFFFFFFF : BitVec 256).getLsbD j = if tyLanes 0 ≤ j then false else if (u1.here.r.maskOf 0).getLsbD j then
      (FFmt.eqv (tyFmt 0) ((vLanes u1 (.vcmpeq vE) vE 0).getD j 0) ((vLanes u1 (.vcmpeq vE) vE 0).getD j 0)) else (Store.get u1.here.r.mask 0 0).getLsbD j) ∧
    tyFloat 0 = true ∧ (3 : BitVec 4).toNat < 4 := by
  refine ⟨meets_of (by decide +kernel), by decide +kernel, by decide +kernel, by decide, by decide⟩

theorem witness_RowMovesComplete : (∀ c ∈ [(Instr.vsplat { vS with tb := 0 }, (0 : BitVec 3), ([] : List Operand)), (.vsplat { vS with lng := some 5 }, 0, []), (.viota { vE with ty := 4 }, 0, []),
      (.viota vE, 0, []), (.vrotr vE, 0, []), (.vbcr vE, 0, []), (.vrotc vE, 0, []), (.vbcc vE, 0, [])], Meets u1 c) ∧ tyFloat 4 = false ∧ tyFloat 0 = true :=
  ⟨meets_of (by decide +kernel), by decide, by decide⟩

theorem witness_ReductionsAndConversionsComplete : (∀ c ∈ (reductions.flatMap fun e => [(e.1 vE, (0 : BitVec 3), ([] : List Operand)), (e.2.1 vE, 0, [])]) ++
      [(.vcvt { vE with ty := 0, tb := 0 }, 0, []), (.vcvt { vE with ty := 1, tb := 8 }, 0, []), (.vcvt { vE with ty := 6, tb := 0 }, 0, [])], Meets u1 c) ∧
    tyLanes 0 = tyLanes 0 ∧ tyLanes 1 = 2 * tyLanes 0 ∧ 4 * tyLanes 0 = tyLanes 6 ∧
    (let s := wReg u1 fun r => { r with fmt := [(0, 0x780)] }
     (∀ c ∈ [(Instr.vcvtn { vE with ty := 5 }, (0 : BitVec 3), ([] : List Operand)), (.vcvtw { vE with ty := 5 }, 0, [])], Meets s c) ∧
       fmtValid 0x780 = true ∧ fmtKind 0x780 ∈ [0, 3, 4] ∧ (5 : BitVec 3).toNat / 4 = 1 ∧ (5 : BitVec 3).toNat % 4 < 2) :=
  ⟨meets_of (by decide +kernel), by decide, by decide, by decide, meets_of (by decide +kernel), by decide, by decide, by decide⟩

/-- The world's mask has every feature. -/
def uM : State := { u1 with worlds := [(5, { partAssign := 0x80, featMask := 0x3FF })] }
theorem witness_ShufflesAndPartitionsComplete : (∀ c ∈ [(Instr.vshuf { vF with idx := 63 }, (0 : BitVec 3), ([] : List Operand)), (.vpatld { vF with idx := 60 }, 0, []), (.vpatsw vE, 0, []),
      (.vpart vE, 0, []), (.vgath vE, 0, []), (.vscat vE, 0, [])], Meets u1 c) ∧ (u1.ctx (.vshuf vF)).masked 7 = false ∧ (u1.ctx (.vgath vE)).masked 8 = false ∧
    Quiet uM ∧ (uM.ctx (.vpatsw vE)).masked 7 = true ∧ recSupv uM.here.slot0.bind = false :=
  ⟨meets_of (by decide +kernel), by decide +kernel, by decide +kernel, quiet_of (by decide +kernel), by decide +kernel, by decide +kernel⟩

theorem witness_AccumulatorReadsAndRelease : (∀ c ∈ [(Instr.vacc { vE with ta := 5 }, (0 : BitVec 3), ([] : List Operand)), (.vfree { vE with td := 3 }, 0, [])], Meets u1 c) ∧
    u1.here.r.aUse.getLsbD 5 = false ∧
    (let s := wReg u1 fun r => { r with aUse := 0x20, aInt := 0x20 }
     Meets s (.vacc { vE with ta := 5 }, 0, []) ∧ ¬ (s.here.r.aUse.getLsbD 5 = false ∨ s.here.r.aInt.getLsbD 5 = !tyFloat 0)) :=
  ⟨meets_of (by decide +kernel), by decide +kernel, meets1 (by decide +kernel), by decide +kernel⟩

/-- The strand holds the lease; key slot 2 and a loaded stationary buffer of world 5; integer formats 4 and 3. -/
def uX (st : Nat := 2) : State := wCtl (wReg (wBr u1 fun t => { t with
      holder := some 1, left := 3, sbuf := [(0, { st := st, world := 5, slot := 2, region := 7, fmt := 3 + 8 * 16, set := 12345 })]
      keys := [(2, { valid := true, key := 99, region := 7, world := 5 })] }) fun r => { r with fmt := [(1, 4 + 8 * 16)], x := [(1, 2)] }) fun c => { c with leaseHas := true }
def fMm : FmtXM := { pred := 0, ta := 1, g := 1, sb := 0, fa := 1, za := 0 }
theorem hasRun_uX (st : Nat) : HasRun (uX st) := ⟨rfl, rfl, by show (3 : Nat) ≠ 0; decide⟩
theorem witness_MatrixMultiplyCompletes :
    (∀ c ∈ [(Instr.mma fMm, (0 : BitVec 3), ([] : List Operand)), (.mmaAcc fMm, 0, [])], ∀ st ∈ [0, 2, 3], Meets (uX st) c) ∧ MmaCase uX (.mma fMm) fMm false ∧ MmaCase uX (.mmaAcc fMm) fMm true ∧
    HasRun (uX 3) ∧ ((uX 3).braid 0).sbufOf 0 = { st := 3, world := 5, slot := 2, region := 7, fmt := 3 + 8 * 16, set := 12345 } ∧
    (∀ c < 3, (uX 3).here.r.aUse.getLsbD (3 * 1 + c) = false) ∧ CountersAdmit (uX 3) 5 7 0 16 ∧ ((uX 0).braid 0).sbufOf 0 = { st := 0, world := 5, slot := 2, region := 7, fmt := 3 + 8 * 16, set := 12345 } := by
  refine ⟨?_, ⟨hasRun_uX 2, ?_, by decide +kernel, by decide +kernel, by decide +kernel, by decide +kernel, ?_, by decide +kernel⟩,
    ⟨hasRun_uX 2, ?_, by decide +kernel, by decide +kernel, by decide +kernel, by decide +kernel, ?_, by decide +kernel⟩, hasRun_uX 3, by decide +kernel, by decide +kernel, ?_, by decide +kernel⟩
  · intro c hc st hst
    simp only [List.mem_cons, List.not_mem_nil, or_false] at hst
    rcases hst with rfl | rfl | rfl <;>
      exact meets_of (cs := [(Instr.mma fMm, (0 : BitVec 3), ([] : List Operand)), (.mmaAcc fMm, 0, [])]) (by decide +kernel) c hc
  all_goals first | exact fun h => absurd h (by decide +kernel) | exact ⟨by decide +kernel, by decide +kernel⟩

theorem witness_AccumulatorTransfersComplete :
    (∀ c ∈ [(Instr.macr { xR with bank := 5 }, (0 : BitVec 3), ([] : List Operand)), (.macw { xR with bank := 5 }, 0, []), (.macz { pred := 0, bank := 5 }, 0, []),
      (.mstat { pred := 0, dst := 1, bank := 5 }, 0, [])], Meets u1 c) ∧ (5 : BitVec 3).toNat < 6 ∧ u1.here.r.aUse.getLsbD 5 = false ∧
    (let s := wReg u1 fun r => { r with aUse := 0x20, aInt := 0x20 }
     (∀ c ∈ [(Instr.macr { xR with bank := 5 }, (0 : BitVec 3), ([] : List Operand)), (.macw { xR with bank := 5 }, 0, [])], Meets s c) ∧
       ¬ (s.here.r.aUse.getLsbD 5 = false ∨ s.here.r.aInt.getLsbD 5 = !tyFloat 0)) ∧
    (let r := u1.here.r; (0 : Word).toNat = 0 * 2 ^ 14 + 0 * 2 ^ 12 + (r.aUse.getLsbD 5 && r.aInt.getLsbD 5).toNat * 2 ^ 5 + (r.aDirty.getLsbD 5).toNat * 2 ^ 4 +
      (r.aUse.getLsbD 5).toNat * 2 ^ 3 + bits r.aFlag 15 3) :=
  ⟨meets_of (by decide +kernel), by decide, by decide +kernel, ⟨meets_of (by decide +kernel), by decide +kernel⟩, by decide +kernel⟩

theorem sbufs_uS : ∀ b n, n < 2 → ((uS.braid b).sbufOf n).st = 0 := by
  intro b
  rcases b with _ | b
  · decide +kernel
  · have h : (uS.braid (b + 1)).sbuf = [] := by
      rw [show uS.braid (b + 1) = State.reset.braid (b + 1) from State.braid_setBraid_ne _ (Nat.succ_ne_zero b) _]
      rfl
    intro n _
    simp only [Braid.sbufOf, h, Store.get]

theorem keyBusy_uS : ∀ b m, uS.keyBusy b m = false := by
  intro b m
  simp [State.keyBusy, sbufs_uS b 0 (by decide), sbufs_uS b 1 (by decide)]

theorem keys_uS : ∀ b, ((uS.braid b).keys.map Prod.fst).Nodup := by
  intro b
  rcases b with _ | b
  · decide +kernel
  · rw [show uS.braid (b + 1) = State.reset.braid (b + 1) from State.braid_setBraid_ne _ (Nat.succ_ne_zero b) _]
    exact (List.nodup_nil : ([] : List Nat).Nodup)

theorem witness_KeyAndCounterOperations :
    (∀ c ∈ [(Instr.mkz { pred := 0, key := 31 }, (0 : BitVec 3), ([] : List Operand)), (.mkzAll { pred := 0 }, 0, [])], Meets uS c) ∧ recSupv uS.here.slot0.bind = true ∧
    (∀ b m, uS.keyBusy b m = false) ∧ (∀ b, ((uS.braid b).keys.map Prod.fst).Nodup) ∧ (∀ c ∈ [(Instr.mcntLoads { pred := 0, dst := 1, reg := r1 }, (0 : BitVec 3), [r1]), (.mcntSteps { pred := 0, dst := 1, reg := r1 }, 0, [r1]),
      (.mkz { pred := 0, key := 0 }, 0, [])], Meets u1 c) ∧
    (u1.ctx (.mcntLoads { pred := 0, dst := 1, reg := r1 })).masked 9 = false ∧ ((u1.ctx (.mcntLoads { pred := 0, dst := 1, reg := r1 })).opnd r1).toNat < 4096 ∧
    (Meets (uT 4096) (.mcntLoads { pred := 0, dst := 1, reg := r1 }, 0, [r1]) ∧ 4096 ≤ (((uT 4096).ctx (.mcntLoads { pred := 0, dst := 1, reg := r1 })).opnd r1).toNat) ∧
    recSupv u1.here.slot0.bind = false :=
  ⟨meets_of (by decide +kernel), by decide +kernel, keyBusy_uS, keys_uS, meets_of (by decide +kernel), by decide +kernel, by decide +kernel, ⟨meets1 (by decide +kernel), by decide +kernel⟩, by decide +kernel⟩

def fL : FmtFL := { pred := 0, z := 3, base := .reg 2, cls := 0 }
theorem witness_AuxiliaryOperationsComplete :
    (Meets (uA 0x30100) (.scld fL, 0, [.reg 2]) ∧ Reaches ((uA 0x30100).ctx (.scld fL)) { slot := 7, va := 0x30100, size := 256, acc := .load, dbg := false, cls := 0 } p3) ∧
    (∀ c ∈ [(Instr.fmtw { pred := 0, f := 7, a := r1 }, (0 : BitVec 3), [r1]), (.fmtr { pred := 0, f := 7, dst := 1 }, 0, []), (.ttrd { pred := 0, dst := 1, a := r1 }, 0, [r1]),
      (.seedw { pred := 0, a := r1 }, 0, [r1])], Meets u1 c) ∧ ((u1.ctx (.ttrd { pred := 0, dst := 1, a := r1 })).opnd r1).toNat < 64 ∧
    (u1.ctx (.fmtr { pred := 0, f := 7, dst := 1 })).fmtRuns 0 ∧ fmtValid (Store.get u1.here.r.fmt 7 0) = false ∧ fmtValid (Store.get (uX).here.r.fmt 1 0) = true ∧
    Meets uX (.fmtr { pred := 0, f := 1, dst := 1 }, 0, []) ∧
    (Meets (uT 64) (.ttrd { pred := 0, dst := 1, a := r1 }, 0, [r1]) ∧ 64 ≤ (((uT 64).ctx (.ttrd { pred := 0, dst := 1, a := r1 })).opnd r1).toNat) :=
  ⟨⟨meets1 (by decide +kernel), reaches_of (by decide +kernel)⟩, meets_of (by decide +kernel), by decide +kernel, fun h => absurd h (by decide), by decide +kernel, by decide +kernel,
    meets1 (by decide +kernel), ⟨meets1 (by decide +kernel), by decide +kernel⟩⟩

/-- A converter of image 9 in the block that number 0 names. -/
def uCv : State :=
  { wBr u1 fun t => { t with blocks := [(6, BitVec.ofNat 32 (0x80 + 9 * 2 ^ 12 + 3 * 2 ^ 28))] } with
    flash := [{ id := 9, kind := 1, target := 0, blocks := 1, csrc := 0, cw := 8, timing := [], table := [], digest := 0, sig := (0, 0) }] }
def fFb (id : Nat) : FmtFB := { pred := 0, row := 0, td := 0, ta := 1, id := BitVec.ofNat _ id }
theorem witness_FunctionUnitsComplete :
    (∀ c ∈ (specials.map fun e => (e.1 fF, (0 : BitVec 3), ([] : List Operand))) ++ [(.fbx (fFb 0), 0, [])], Meets u1 c) ∧
    (u1.ctx (.fexp2 fF)).masked 1 = false ∧ (u1.ctx (.fbx (fFb 0))).masked 0 = false ∧ (u1.braid 0).converter 0 = none ∧
    (∀ id ∈ [0, 1], Meets uCv (.fbx (fFb id), 0, []) ∧ (uCv.ctx (.fbx (fFb id))).masked 0 = false ∧ (uCv.braid 0).converter id = some 9 ∧
      (uCv.flash.find? fun g => g.id == 9).isSome = true) := by
  refine ⟨meets_of (by decide +kernel), by decide +kernel, by decide +kernel, by decide +kernel, fun id h => ?_⟩
  obtain rfl | rfl : id = 0 ∨ id = 1 := by simpa using h
  all_goals exact ⟨meets1 (by decide +kernel), by decide +kernel, by decide +kernel, by decide +kernel⟩

theorem witness_LeaseAndLoadsComplete :
    (∀ c ∈ [(Instr.mlease { pred := 0, n := 0 }, (0 : BitVec 3), ([] : List Operand)), (.mrel { pred := 0 }, 0, []), (.mlds { xD with key := 2, fb := 1 }, 0, [r1])], Meets uX c) ∧
    uX.here.c.leaseAsked = false ∧ uX.here.c.leaseHas = true ∧
    (let s := wCtl uX fun c => { c with leaseAsked := true }; Meets s (.mlease { pred := 0, n := 63 }, 0, []) ∧ HasRun s ∧ s.here.c.leaseAsked = true) ∧
    (let s := wCtl u1 fun c => { c with leaseAsked := true }
     Meets s (.mlease { pred := 0, n := 63 }, 0, []) ∧ Meets s (.mrel { pred := 0 }, 0, []) ∧ (s.braid 0).holder ≠ some 1 ∧ s.here.c.leaseHas = false) ∧
    MldsCase uX { xD with key := 2, fb := 1 } ∧
    (let s := wReg u1 fun r => { r with fmt := [(1, 4 + 8 * 16)], x := [(1, 2)] }
     Meets s (.mlds { xD with fb := 1 }, 0, [r1]) ∧ mldsValid ((s.ctx (.mlds { xD with fb := 1 })).opnd r1) = true ∧ mldsFmt (4 + 8 * 16) = true ∧ s.here.c.leaseHas = false ∧
       ((s.braid 0).keyOf 0).valid = false) ∧
    (Meets uX (.mlds { xD with key := 3, fb := 1 }, 0, [r1]) ∧ (uX.braid 0).keyOf 3 = {}) ∧ mldsValid ((u1.ctx (.mlds { xD with fb := 1 })).opnd r1) = false := by
  refine ⟨meets_of (by decide +kernel), by decide +kernel, by decide +kernel, ⟨meets1 (by decide +kernel), ⟨by decide +kernel, by decide +kernel, by decide +kernel⟩, by decide +kernel⟩,
    ⟨meets1 (by decide +kernel), meets1 (by decide +kernel), by decide +kernel, by decide +kernel⟩,
    ⟨hasRun_uX 2, by decide +kernel, ⟨by decide +kernel, fun h => absurd h (by decide +kernel)⟩, by decide +kernel, ⟨by decide +kernel, by decide +kernel⟩, by decide +kernel, by decide +kernel, by decide +kernel⟩,
    ⟨meets1 (by decide +kernel), by decide +kernel, by decide +kernel, by decide +kernel, by decide +kernel⟩, ⟨meets1 (by decide +kernel), by decide +kernel⟩, by decide +kernel⟩

/-! Slot E. -/
def wK (s : State) (ws : List Word) : State := wReg s fun r => { r with k := (List.range ws.length).foldl (fun k i => Store.set k i (ws.getD i 0) 0) r.k }
def hi (a b : Nat) : Word := BitVec.ofNat 64 (a * 2 ^ 32 + b)

/-- A data command of its layout finds its engine free and its slabs as it needs them. -/
def CmdGoes (op n : Nat) (mk : FmtE → Instr) (f : FmtE) (s : State) : Prop :=
  Quiet s ∧ On s f.pred ∧ f.kb.toNat + n ≤ 16 ∧ (s.ctx (mk f)).engineFull ((s.ctx (mk f)).mkCmd op f n s.serial).engine = false ∧
    EngineIdle s ((s.ctx (mk f)).mkCmd op f n s.serial) ∧ SlabFree s ((s.ctx (mk f)).mkCmd op f n s.serial)

def slabOkB (s : State) (w id : Nat) : Bool :=
  let e := (s.braid s.cur.1).slabOf id
  slabSize e == 0 || slabWorld e != w || slabState e == 2 || slabState e == 4

def cmdGoesB (op n : Nat) (mk : FmtE → Instr) (f : FmtE) (s : State) : Bool :=
  let c := (s.ctx (mk f)).mkCmd op f n s.serial
  quietB s && s.here.r.pred f.pred.toNat && decide (f.kb.toNat + n ≤ 16) && !(s.ctx (mk f)).engineFull c.engine &&
    ((s.braid s.cur.1).cmds.all fun d => decide (d.seq < s.serial) && d.acc) && s.xfers.isEmpty && (c.op != 7 || (s.braid s.cur.1).bstOn) &&
    (c.slabIn.toList.all fun id => slabSize ((s.braid s.cur.1).slabOf id) == 0 || slabWorld ((s.braid s.cur.1).slabOf id) != c.world ||
      (slabState ((s.braid s.cur.1).slabOf id) != 1 && slabState ((s.braid s.cur.1).slabOf id) != 3)) && c.slabsOut.all (slabOkB s c.world)

theorem cmdGoes_of {op n : Nat} {mk : FmtE → Instr} {f : FmtE} {s : State} (h : cmdGoesB op n mk f s = true) : CmdGoes op n mk f s := by
  simp only [cmdGoesB, slabOkB, Bool.and_eq_true, Bool.or_eq_true, decide_eq_true_eq, beq_iff_eq, bne_iff_ne, Bool.not_eq_true', List.all_eq_true, List.isEmpty_iff,
    Option.mem_toList] at h
  obtain ⟨⟨⟨⟨⟨⟨⟨⟨h1, h2⟩, h3⟩, h4⟩, h5⟩, h6⟩, h7⟩, h8⟩, h9⟩ := h
  refine ⟨quiet_of h1, h2, h3, h4, ⟨h5, ?_, fun h => h7.resolve_left (· h)⟩, ⟨fun id hid ha hb => ?_, fun id hid => ?_⟩⟩
  · rw [h6]; exact fun t ht => nomatch ht
  · rcases h8 id hid with (h | h) | h
    · exact absurd h ha
    · exact absurd hb h
    · exact h
  · rcases h9 id hid with ((h | h) | h) | h
    · exact .inl h
    · exact .inr (.inl h)
    · exact .inr (.inr (.inl h))
    · exact .inr (.inr (.inr h))

/-- Slab 2 in a state, of the unit's strand. -/
def wSlab (s : State) (st : Nat) : State := wBr s fun t => { t with slab := [(2, mkSlab 5 st 1 2 0 2)] }
/-- The block of CPYS over slab 2. -/
def kSlab : List Word := [0x20000, hi 256 2]
def wEng (s : State) : State := wBr s fun t => { t with cmds := (List.range 16).map fun n => { wCmd with seq := n } }

/-- The unit is buffered, and the command writes no slab. -/
def uArm (s : State) (f : FmtE) (mk : FmtE → Instr) (op n : Nat) : Prop :=
  (s.ctx (mk f)).arm.isSome = true ∧ ((s.ctx (mk f)).mkCmd op f n s.serial).slabIn = none
def kCpy (s : State) : State := wK s [0x30000, 0x20000, 64]
def kList (s : State) : State := wK s [0x30000, 0x20000, 0x20400, hi 17 7]
def kScrub (s : State) : State := wK s [0x30000, 0x10000, 5]
def kBsld (s : State) : State := wK s [0x30000, 0x10000FFF]
def kRect (s : State) : State := wK s [0x30000, 0x20000, hi 3 100, hi 100 100]
def kSl (s : State) : State := wK s kSlab

theorem witness_DataCommandsComplete :
    (CmdGoes 1 3 .cpy eF (kCpy u1) ∧ cpyOk eF (((kCpy u1).ctx (.cpy eF)).kw eF)) ∧
    (CmdGoes 2 4 .cpy2d eF (kRect u1) ∧ cpy2dOk eF (((kRect u1).ctx (.cpy2d eF)).kw eF)) ∧
    (CmdGoes 3 2 .cpys eF (wSlab (kSl u1) 2) ∧ cpysOk eF (((wSlab (kSl u1) 2).ctx (.cpys eF)).kw eF)) ∧
    (CmdGoes 4 2 .cpyd { eF with flags := 1 } (wSlab (kSl u1) 2) ∧ cpydOk { eF with flags := 1 } (((wSlab (kSl u1) 2).ctx (.cpyd eF)).kw eF)) ∧
    (CmdGoes 5 4 .gath eF (kList u1) ∧ listOk eF (((kList u1).ctx (.gath eF)).kw eF)) ∧
    (CmdGoes 6 4 .scat eF (kList u1) ∧ listOk eF (((kList u1).ctx (.scat eF)).kw eF)) ∧
    (CmdGoes 7 2 .bsld eF (kBsld u1) ∧ bsldOk eF (((kBsld u1).ctx (.bsld eF)).kw eF)) ∧
    (CmdGoes 35 3 .scrub eF (kScrub uS) ∧ scrubOk eF (((kScrub uS).ctx (.scrub eF)).kw eF) ∧ recSupv (kScrub uS).here.slot0.bind = true) ∧
    (u1.ctx (.cpy eF)).arm = none ∧ uArm (kCpy uB) eF .cpy 1 3 ∧ CmdGoes 1 3 .cpy eF (kCpy uB) ∧
    (((wSlab (kSl uB) 2).ctx (.cpys eF)).ownSlab 2 = true ∧ CmdGoes 3 2 .cpys eF (wSlab (kSl uB) 2)) ∧
    (¬ SlabReadable (wSlab (kSl u1) 1) (((wSlab (kSl u1) 1).ctx (.cpyd eF)).mkCmd 4 eF 2 50) 2 ∧ Quiet (wSlab (kSl u1) 1)) ∧
    (((wEng (kCpy u1)).ctx (.cpy eF)).engineFull 0 = true ∧ Quiet (wEng (kCpy u1))) ∧
    ¬ (({ eF with kb := 14 } : FmtE).kb.toNat + 3 ≤ 16) ∧ ¬ cpyOk { eF with flags := 4 } (((kCpy u1).ctx (.cpy eF)).kw eF) := by
  refine ⟨⟨cmdGoes_of ?_, ?_⟩, ⟨cmdGoes_of ?_, ?_⟩, ⟨cmdGoes_of ?_, ?_⟩, ⟨cmdGoes_of ?_, ?_⟩, ⟨cmdGoes_of ?_, ?_⟩, ⟨cmdGoes_of ?_, ?_⟩, ⟨cmdGoes_of ?_, ?_⟩, ⟨cmdGoes_of ?_, ?_, ?_⟩,
    ?_, ⟨?_, ?_⟩, cmdGoes_of ?_, ⟨?_, cmdGoes_of ?_⟩, ⟨?_, quiet_of ?_⟩, ⟨?_, quiet_of ?_⟩, ?_, ?_⟩
  all_goals try unfold SlabReadable
  all_goals try simp only [cpyOk, cpy2dOk, cpysOk, cpydOk, listOk, bsldOk, scrubOk, slabWordOk]
  all_goals decide +kernel
def rEnt (dest : Nat) (more : Nat := 0) : RbEntry := { ctl := BitVec.ofNat 64 (dest * 2 ^ 48 + 0xFF * 2 ^ 40 + 2 ^ 39 + more), route := BitVec.ofNat 64 (2 ^ 58) }
/-- A route to braid 5, which may ask the roster or be suspended. -/
def wRt (s : State) (more : Nat := 0) (dest : Nat := 5) : State := wBr s fun t => { t with rb := Store.put t.rb 3 (rEnt dest more) }
def kMsg (s : State) (dest : Nat := 5) : State := wK s [0x30000, hi 4096 (dest + 7 * 2 ^ 16), 5, 0x400000000000000]
def wProt (s : State) (roster : Nat := 0) : State := { s with worlds := [(5, { partAssign := 0x80, tdisp := .run, roster := BitVec.ofNat 256 roster })] }

theorem witness_MessageCommandsComplete :
    (let s := wRt (kMsg u1)
     (CmdGoes 22 2 .send eF s ∧ sendOk eF ((s.ctx (.send eF)).kw eF) ∧ (s.ctx (.send eF)).masked 4 = false ∧ CanTell s 5 eF 5) ∧
     (CmdGoes 24 2 .coll eF s ∧ collOk eF ((s.ctx (.coll eF)).kw eF) ∧ (s.ctx (.coll eF)).masked 3 = false) ∧
     (CmdGoes 23 3 .recv { eF with flags := 1 } s ∧ recvOk { eF with flags := 1 } ((s.ctx (.recv eF)).kw eF)) ∧ (s.ctx (.send eF)).arm = none) ∧
    (let s := wProt (kMsg u1 0x305) 8
     CmdGoes 22 3 .send { eF with flags := 2 } s ∧ sendOk { eF with flags := 2 } ((s.ctx (.send eF)).kw eF) ∧ CanTell s 5 { eF with flags := 2 } 0x305) ∧
    (uArm (wRt (kMsg uB)) eF .send 22 2 ∧ CmdGoes 22 2 .send eF (wRt (kMsg uB))) ∧
    (let s := wProt (wRt (kMsg u1 0x305) (2 ^ 37) 0x305)
     CmdGoes 22 2 .send eF s ∧ sendOk eF ((s.ctx (.send eF)).kw eF) ∧ s.isProtected 5 = true ∧ s.onRoster 5 3 = false ∧ s.wayTo s.cur.1 0x305 5 = .offRoster ∧
       (s.ctx (.send eF)).masked 4 = false) ∧
    (¬ sendOk { eF with flags := 16 } (((kMsg u1).ctx (.send eF)).kw eF) ∧ Quiet (kMsg u1)) ∧ (Quiet uM ∧ (uM.ctx (.send eF)).masked 4 = true) := by
  refine ⟨⟨⟨cmdGoes_of ?_, ?_, ?_, ?_⟩, ⟨cmdGoes_of ?_, ?_, ?_⟩, ⟨cmdGoes_of ?_, ?_⟩, ?_⟩, ⟨cmdGoes_of ?_, ?_, ?_⟩, ⟨⟨?_, ?_⟩, cmdGoes_of ?_⟩, ⟨cmdGoes_of ?_, ?_, ?_, ?_, ?_, ?_⟩,
    ⟨?_, quiet_of ?_⟩, ⟨quiet_of ?_, ?_⟩⟩
  case refine_4 => exact ⟨3, false, [BitVec.ofNat 64 (2 ^ 58)], by decide +kernel⟩
  all_goals try simp only [sendOk, collOk, recvOk, msgWordOk]
  all_goals first | decide +kernel | (show State.onRoster _ _ _ = true; decide +kernel)

def wVf (s : State) (b v : Nat) (q : List (Nat × Row × Nat)) : State := s.modBraid b fun t => { t with vf := [(v, q)] }
theorem witness_VerticalFifosComplete :
    Quiet u1 ∧ u1.here.r.pred 0 = true ∧ (u1.ctx (.vfpush { eF with flags := 3 })).masked 2 = false ∧ (u1.braid (partner u1.cur.1)).status = 0 ∧
    (Quiet (wVf u1 0 3 (List.replicate 16 (5, 9, 0))) ∧ 16 ≤ (Store.get ((wVf u1 0 3 (List.replicate 16 (5, 9, 0))).braid 0).vf 3 []).length) ∧
    (∀ w ∈ [5, 6], ∀ sync ∈ [false, true], let s := (wVf u1 (partner 0) 3 [(w, 9, 40)]).modBraid 0 fun t => { t with sync := sync }
      Quiet s ∧ Store.get (s.braid (partner s.cur.1)).vf 3 [] = [(w, 9, 40)] ∧ (∀ k < 4, (s.strand s.cur.1 k).fifoWait = none) ∧
        40 + (s.braid s.cur.1).syncAt + 3 ≤ s.here.clk + (s.braid (partner s.cur.1)).syncAt) ∧
    (Store.get (u1.braid (partner u1.cur.1)).vf 3 [] = [] ∧ (u1.braid (partner u1.cur.1)).status ≠ 2) ∧ ({ eF with flags := 19 } : FmtE).flags.toNat / 4 % 4 = 0 := by
  refine ⟨quiet_of ?_, ?_, ?_, ?_, ⟨quiet_of ?_, ?_⟩, fun w hw y hy => ⟨quiet_of ?_, ?_, ?_, ?_⟩, ⟨?_, ?_⟩, ?_⟩
  case refine_7 | refine_8 | refine_9 | refine_10 => revert w y; decide +kernel
  all_goals decide +kernel

def eE (e : BitVec 4) (fl : BitVec 11) : FmtE := { eF with evt := e, flags := fl }
theorem witness_EventOperationsComplete :
    (∀ s ∈ [u1, wReg u1 fun r => { r with ecnt := [(15, 7)] }], Meets s (.ewait (eE 15 8), 0, [.reg 1]) ∧ Meets s (.eset (eE 15 8), 0, [.reg 1])) ∧ EventOperand (eE 15 8) (.reg 1) ∧
    2 ^ 31 ≤ (Store.get u1.here.r.ecnt 15 0 - ((u1.ctx (.ewait (eE 15 8))).opnd (.reg 1)).setWidth 32).toNat ∧
    (let s := wReg u1 fun r => { r with ecnt := [(15, 7)] }; (Store.get s.here.r.ecnt 15 0 - ((s.ctx (.ewait (eE 15 8))).opnd (.reg 1)).setWidth 32).toNat < 2 ^ 31) ∧
    (Meets u1 (.evr (eE 15 32), 0, []) ∧ (eE 15 32).flags.toNat % 32 = 0) := by
  refine ⟨fun s h => ?_, ⟨by decide +kernel, by decide +kernel, by decide +kernel, by decide +kernel⟩, by decide +kernel, by decide +kernel, meets1 (by decide +kernel), by decide +kernel⟩
  obtain rfl | rfl : s = _ ∨ s = _ := by simpa using h
  all_goals exact ⟨meets1 (by decide +kernel), meets1 (by decide +kernel)⟩

def kNot (s : State) (dev : Nat := 0) : State := wK s [BitVec.ofNat 64 (dev * 2 ^ 16 + 5 * 2 ^ 9 + 3 * 2 ^ 5)]
theorem witness_NotifyCompletes :
    (∀ s ∈ [kNot u1, wRt (kNot u1), wRt (kNot u1 3) (2 ^ 37) 0x305, wRt (kNot u1) (2 ^ 38), kNot uB], Quiet s ∧ On s 0 ∧ let w := (s.ctx (.notify eF)).kw eF 0
      w.toNat < 2 ^ 28 ∧ w.toNat / 2 ^ 9 % 2 ^ 7 < 96 ∧ w.toNat / 2 ^ 5 % 16 < 4 ∧ w.toNat % 32 = 0 ∧ w.toNat / 2 ^ 16 % 2 ^ 8 * 256 + w.toNat / 2 ^ 9 % 2 ^ 7 ∈ [5, 0x305]) ∧
    (∀ s ∈ [kNot u1, wRt (kNot u1), wRt (kNot u1 3) (2 ^ 37) 0x305, wRt (kNot u1) (2 ^ 38)], (s.ctx (.notify eF)).arm = none ∧ (s.braid s.cur.1).cmds = [] ∧ s.isProtected 5 = false) ∧
    (kNot u1).wayTo 0 5 5 = .noEntry ∧ (wRt (kNot u1 3) (2 ^ 37) 0x305).wayTo 0 0x305 5 = .offRoster ∧ (wRt (kNot u1)).wayTo 0 5 5 = .entry 3 false [BitVec.ofNat 64 (2 ^ 58)] ∧
    (wRt (kNot u1) (2 ^ 38)).wayTo 0 5 5 = .entry 3 true [BitVec.ofNat 64 (2 ^ 58)] ∧ ((kNot uB).ctx (.notify eF)).arm.isSome = true ∧ (kNot uB).isProtected 5 = false ∧
    ¬ ((wK u1 [1]).ctx (.notify eF)).kw eF 0 % 32 = 0 ∧ Quiet (wK u1 [1]) := by
  refine ⟨fun s h => ?_, ?_, ?_, ?_, ?_, ?_, ?_, ?_, ?_, quiet_of ?_⟩
  · have : ∀ s ∈ [kNot u1, wRt (kNot u1), wRt (kNot u1 3) (2 ^ 37) 0x305, wRt (kNot u1) (2 ^ 38), kNot uB], quietB s = true ∧ s.here.r.pred 0 = true := by decide +kernel
    refine ⟨quiet_of (this s h).1, (this s h).2, ?_⟩
    revert s; decide +kernel
  all_goals decide +kernel

/-- The unit's launch is the deciding launch of decision node 11. -/
def uDec (s : State) : State := s.modPart 0 fun t => { t with level := t.level ++ [(11, mkLevel 5 1 9 5 1 0 ||| BitVec.ofNat 256 (7 * 2 ^ 32))] }
theorem witness_LevelCommandsComplete :
    (Quiet (kCpy u1) ∧ (((kCpy u1).ctx (.launch eF)).kw eF 0).toNat % 64 = 0 ∧ ((kCpy u1).ctx (.launch eF)).arm = none ∧ ((kCpy uB).ctx (.launch eF)).arm.isSome = true ∧ Quiet (kCpy uB)) ∧
    (let s := wK (uDec u1) [11 + 2 ^ 12]
     Quiet s ∧ (s.ctx (.decide eF)).masked 5 = false ∧ (decideStatus s 0 7 11).1 = 0 ∧ ((s.ctx (.decide eF)).kw eF 0).toNat < 2 ^ 13 ∧ recLaunch s.here.slot0.bind = 7) ∧
    (let s := wK u1 [2 ^ 13 - 1]; Quiet s ∧ (s.ctx (.decide eF)).masked 5 = false ∧ (decideStatus s 0 7 4095).1 ≠ 0 ∧ ((s.ctx (.decide eF)).kw eF 0).toNat < 2 ^ 13) ∧
    (let s := wK uB [11]; Quiet s ∧ (s.ctx (.decide eF)).masked 5 = false ∧ (s.ctx (.decide eF)).arm.isSome = true) ∧
    (let s := wK u1 [7]; Quiet s ∧ (cancelStatus s 0 5 7 false).1 = 0 ∧ ((s.ctx (.cancel eF)).kw eF 0).toNat < 2 ^ 12) ∧
    (let s := wK u1 [4095]; Quiet s ∧ (cancelStatus s 0 5 4095 false).1 ≠ 0 ∧ ((s.ctx (.cancel eF)).kw eF 0).toNat < 2 ^ 12) := by
  refine ⟨⟨quiet_of ?_, ?_, ?_, ?_, quiet_of ?_⟩, ⟨quiet_of ?_, ?_⟩, ⟨quiet_of ?_, ?_⟩, ⟨quiet_of ?_, ?_⟩, ⟨quiet_of ?_, ?_⟩, ⟨quiet_of ?_, ?_⟩⟩
  all_goals decide +kernel

def kRts (s : State) (e : Nat := 0) : State := wK s [BitVec.ofNat 64 (5 * 2 ^ 48 + 2 ^ 40), BitVec.ofNat 64 (2 ^ 58 + e), BitVec.ofNat 64 e]
theorem witness_SupervisorCommandsComplete :
    (let s := wK uS [9, BitVec.ofNat 64 (2 ^ 30 + 95 * 2 ^ 16 + 3)]
     Quiet s ∧ recSupv s.here.slot0.bind = true ∧ let v := (s.ctx (.splreq eF)).kw eF 1
       ((s.ctx (.splreq eF)).kw eF 0).toNat < 2 ^ 16 ∧ v &&& 0xFFFFFFFF3F80FF00#64 = 0 ∧ v.toNat / 2 ^ 30 % 4 ≤ 1 ∧ v.toNat / 2 ^ 16 % 2 ^ 7 < 96) ∧
    (∀ s ∈ [kRts uS, kRts uS (2 ^ 57), wRt (kRts uS)], quietB s = true ∧ recSupv s.here.slot0.bind = true ∧ ((s.ctx (.rtset eF)).kw eF 0).toNat % 2 ^ 37 = 0) := by
  refine ⟨⟨quiet_of ?_, ?_⟩, ?_⟩
  all_goals decide +kernel
def u1k : State := wK u1 [0x30000, 16]
theorem witness_RouteWritesWait :
    (let s := wRt (kRts uS); s.outstanding 0 3 = false ∧ (s.braid 0).cmds = [] ∧ (eE 0 24).flags.toNat / 8 = 3 ∧ (eE 0 24).flags.toNat % 8 = 0) ∧
    (let s := wBr (wRt (kRts uS)) fun t => { t with cmds := [{ wCmd with op := 22, sent := true, entry := some 3 }] }
     Quiet s ∧ recSupv s.here.slot0.bind = true ∧ ((s.braid 0).rbOf 3).valid = true ∧ ((s.braid 0).rbOf 3).susp = false ∧
       ∃ c ∈ (s.braid 0).cmds, c.op ≠ 37 ∧ c.sent = true ∧ c.entry = some 3) ∧
    (Quiet u1k ∧ recSupv u1k.here.slot0.bind = false ∧ needsWalk (u1k.ctx (.tnew eF)) ((u1k.ctx (.tnew eF)).kw eF 0).toNat = false) := by
  refine ⟨?_, ⟨quiet_of ?_, ?_⟩, quiet_of ?_, ?_⟩
  all_goals decide +kernel

/-- A token block: a base, a log2 length and an agent. -/
def kTok (s : State) (va : Nat := 0x30000) (more : Nat := 0) : State := wK s [BitVec.ofNat 64 va, BitVec.ofNat 64 (16 + 2 ^ 8 * 0x102 + more), 5]
def kTok1 (s : State) : State := wK s [0x30000, 16]
theorem witness_TokenOperationsComplete :
    (∀ e ∈ tokenOps, let s := if e.2.2 then kTok uS else kTok1 uS
      quietB s = true ∧ s.here.r.pred 0 = true ∧ recSupv s.here.slot0.bind = true ∧
      (let k := (s.ctx (e.1 eF)).kw eF
       0 + (if e.2.1 = 8 then 3 else if e.2.1 = 21 then 4 else 2) ≤ 16 ∧ (k 1) &&& 0xFFFFFFFF000000C0#64 = 0 ∧ (e.2.2 = false → (k 1).toNat < 64) ∧ (e.2.1 = 8 → (k 2).toNat < 256)) ∧
      tlbFind (s.ctx (e.1 eF)).st.mtlb 5 0x30000 = none ∧ (s.ctx (e.1 eF)).br.tlbHit 5 0x30000 = some p3 ∧ fareHome s 0 5 (p3.pa 0x30000) = .sent) ∧
    (let s := wBr (kTok1 u1) fun t => { t with rb := [] }; Quiet s ∧ fareHome s 0 5 (p3.pa 0x30000) = .noEntry) ∧
    (let s := kTok u1 (2 ^ 48); Quiet s ∧ 2 ^ 48 ≤ ((s.ctx (.tgive eF)).kw eF 0).toNat) ∧
    (let s := kTok u1 0x30000 64; Quiet s ∧ ¬ (((s.ctx (.tgive eF)).kw eF 1) &&& 0xFFFFFFFF000000C0#64 = 0) ∧ needsWalk (s.ctx (.tgive eF)) 0x30000 = false) := by
  refine ⟨?_, ⟨quiet_of ?_, ?_⟩, ⟨quiet_of ?_, ?_⟩, ⟨quiet_of ?_, ?_⟩⟩
  all_goals decide +kernel

/-! Steps of the device: the hypotheses of each clause, at a state that meets them. -/

def errOf {A : Type} : Except Nat A → Option Nat
  | .ok _ => none
  | .error e => some e

/-- The machine with nothing on the unit's strand. -/
def d0 : State := wSt u1 fun t => { t with slot := [], c := {}, r := {} }
def wD : Rec := BitVec.ofNat 512 wDesc
def wWait (extra : Nat := 0) : Slot := { st := .waiting, bind := wRec extra, desc := some wD, cause := 3, refused := true }
/-- Three records on the strand, the first running. -/
def d3 : State := wSt u1 fun t => { t with slot := t.slot ++ [(1, wWait), (2, wWait (2 ^ 64))] }
def dFrz (cause : Nat) : State := wSt u1 fun t => { t with slot := [(0, { wRun with st := .frozen, cause := cause })], c := { t.c with leaseHas := false } }
/-- Another world's unit runs, so world 5 is switched out. -/
def dOut : State := d0.modStrand 0 0 fun t => { t with slot := [(0, { st := .running, bind := BitVec.ofNat 512 (6 * 2 ^ 100) })] }

theorem witness_SlotCommandsComplete :
    ((commitReason d0 0 wRec).toOption = some wD ∧ (d0.slotOf 0 1 0).st = .empty ∧ d0.switchedOut 0 5 = false ∧ (d0.world 5).tearing = false ∧ (d0.braid 0).status = 0) ∧
    (dOut.switchedOut 0 5 = true ∧ dOut.outTaken 0 1 5 0 = false ∧ (commitReason dOut 0 wRec).toOption = some wD) ∧
    ((d3.slotOf 0 1 3).st = .empty ∧ (∀ i < 3, (d3.slotOf 0 1 i).st ≠ .empty) ∧ d3.switchedOut 0 5 = false ∧ (commitReason d3 0 wRec).toOption = some wD) ∧
    ((d3.slotOf 0 1 0).st ≠ .empty ∧ (d0.slotOf 0 1 0).st = .empty ∧ (0 : Nat) < 3) ∧ errOf (commitReason d0 0 (BitVec.ofNat 512 (8 * 2 ^ 88 + 5 * 2 ^ 100 + 0x40000))) = some 1 ∧
    ((d3.slotOf 0 1 1).st ≠ .empty ∧ (d3.slotOf 0 1 2).st ≠ .empty) ∧
    ((dFrz 0).slotOf 0 1 0).st = .frozen ∧ (resumeAt (dFrz 0) 0 ((dFrz 0).strand 0 1)).isSome = true ∧ ((dFrz 0).strand 0 1).pendBrk = none ∧ ((dFrz 0).strand 0 1).savedCmds = [] ∧
    ((dFrz 0).strand 0 1).c.leaseHas = false ∧ ((dFrz 0).braid 0).cmds = [] ∧ ((dFrz 0).slotOf 0 1 0).cause = 0 ∧ (d3.slotOf 0 1 0).st = .running ∧
    (((dFrz 0x10).slotOf 0 1 0).cause ≠ 0 ∧ lvLive ((dFrz 0x10).lv 0 7) = true) := by
  repeat' apply And.intro
  all_goals decide +kernel

/-- The unit's record waits in slot 0, as it stands or with a start-time list of one lend. -/
def dWait (extra : Nat := 0) : State := wSt d0 fun t => { t with slot := [(0, wWait extra)], lastWorld := some 5 }
def wLender : BitVec 24 := agentId 1 3 2
def wList : Nat := 0x41000 * 2 ^ 128 + 2 ^ 176
def dLend : State :=
  let s := dWait wList
  { s with mem := memSetN s.mem 0x41000 (leBytes 16 (0x30000 + 16 * 2 ^ 48 + wLender.toNat * 2 ^ 64)), tokens := [{ wTok with holder := wLender }] }
/-- A record of the same launch with another count for barrier 0. -/
def dMis : State := d0.modStrand 0 2 fun t => { t with slot := [(0, { wRun with desc := some (BitVec.ofNat 512 (0x48000 + 3 * 2 ^ 264)) })] }
def dMisW : State := dMis.modStrand 0 1 fun t => { t with slot := [(0, wWait)] }
def dPad : State := wBr (wSt u1 fun t => { t with slot := t.slot ++ [(1, { wWait (6 * 2 ^ 116) with st := .preloading, desc := some (BitVec.ofNat 512 (wDesc + 0x42000 * 2 ^ 320 + 2 * 2 ^ 368)) })] })
  fun t => { t with bankMode := [(6, 1)] }

theorem witness_RecordsStart :
    ((d0.slotOf 0 1 0).st = .empty ∧ MayStart dWait 0 1 ∧ (dWait.strand 0 1).lastWorld = some 5) ∧
    (let s := wBr dWait fun t => { t with logicOn := false }; (s.slotOf 0 1 0).st = .waiting ∧ (s.braid 0).logicOn = false ∧ barTaken s 0 (s.slotOf 0 1 0) = false) ∧
    ((dLend.slotOf 0 1 0).st = .waiting ∧ (dLend.slotOf 0 1 0).xfers ≠ recTokCount (dLend.slotOf 0 1 0).bind) ∧
    ((dMisW.slotOf 0 1 0).st = .waiting ∧ barMismatch dMisW 0 1 (dMisW.slotOf 0 1 0) = true) ∧
    (tokenList dLend 0 (dLend.slotOf 0 1 0).bind = some [(0, wLender, 0x30000, 16)] ∧ slabList dLend 0 (dLend.slotOf 0 1 0).bind = some [] ∧
      (translate dLend 0 5 0x30000).toOption = some ⟨5, 3, 0x30000, 0, false, false, true⟩ ∧ fareHome dLend 0 5 0x30000 = .sent ∧ dLend.isLocal wLender = false ∧
      MayMove dLend (startArgs dLend 0 1 (dLend.slotOf 0 1 0).bind (0, wLender, 0x30000, 16) 0x30000) { wTok with holder := wLender }) ∧
    ((d3.slotOf 0 1 1).st = .waiting ∧ (d3.slotOf 0 1 1).blocked = false ∧ (d3.slotOf 0 1 1).predone = false ∧ (d3.slotOf 0 1 0).st = .running) ∧
    (let z := dPad.slotOf 0 1 1
     z.st = .preloading ∧ z.pad = false ∧ dPlen z.descr = 2 ∧ recPbank z.bind = 6 ∧ (dPad.braid 0).bankModeOf 6 = 1 ∧ (dPad.braid 0).slabsIn 6 = [] ∧ (dPad.braid 0).switching 6 = false ∧
       dPad.bankReserved 0 6 = false ∧ dPad.poison = [] ∧ dPad.deadChannels = [] ∧ (readVA dPad 0 5 (dPimage z.descr) (256 * dPlen z.descr)).toOption.isSome = true) ∧
    (let s := dPad.modSlot 0 1 1 fun z => { z with pad := true }; (s.slotOf 0 1 1).st = .preloading ∧ (s.slotOf 0 1 1).pad = true) := by
  repeat' apply And.intro
  all_goals first | decide +kernel | (constructor <;> decide +kernel)

theorem witness_UnitsEndAndStop :
    (let s := wSt d3 fun t => { t with haltWait := true }
     (s.strand 0 1).slot0.st = .running ∧ (s.strand 0 1).haltWait = true ∧ (s.strand 0 1).frz = none ∧ s.quiet 0 1 = true ∧ (s.strand 0 1).pendErr = [] ∧ (s.strand 0 1).preempt = none ∧
       (s.strand 0 1).awaitsLoad = false) ∧
    (let s := wSt d3 fun t => { t with haltWait := true, pendErr := [9, 8] }; s.quiet 0 1 = true ∧ (s.strand 0 1).pendErr = [9, 8]) ∧
    ((d3.strand 0 1).slot0.st = .running ∧ (d3.strand 0 1).haltWait = false ∧ (d3.strand 0 1).hold = none ∧ (d3.strand 0 1).stalled = false ∧ (d3.strand 0 1).frz = none ∧
      (d3.strand 0 1).preempt = none) ∧
    (let s := (d3.modPart 0 fun t => { t with budget := [(0, 1)] }).modStrand 0 1 fun t => { t with runCyc := 65536 }
     (Store.get (s.part 0).budget (recQclass (s.strand 0 1).slot0.bind) 0).toNat * 65536 = (s.strand 0 1).runCyc) ∧
    (let s := wSt d3 fun t => { t with preempt := some (0, 4096) }; (s.strand 0 1).preempt = some (0, 4096) ∧ (s.strand 0 1).awaitsLoad = false) ∧
    (d3.strand 0 2).slot0.st ≠ .running := by
  repeat' apply And.intro
  all_goals decide +kernel

def shr (s : State) : State := s.modPart 0 fun t => { t with share := true }
/-- No unit runs, and it is the turn of another world. -/
def dTurn : State := (dFrz 0).modPart 0 fun t => { t with quantum := [(0, 0x05000010), (1, 0x06000010)], turn := 0 }
def dLease (y : List Nat := []) : State := wSt (wBr u1 fun t => { t with leaseReqs := [{ strand := 1, n := 5, seq := 3 }] }) fun t => { t with yielded := y }
def dCmd (op : Nat) (f : Cmd → Cmd := id) : Cmd := f { seq := 30, strand := 1, world := 5, op := op, cls := 0, scope := 1, evt := 2, flags := 0, blk := [0x40000, 0x30000, 16], held := [(0x30000, 16, 0)], acc := true }
def dCm (c : Cmd) : State := wBr u1 fun t => { t with cmds := [c] }
def dCopy : Cmd := dCmd 1 fun c => { c with begun := true }
def dSb (v : Sbd) : State := wSt u1 fun t => { t with sbd := [v] }
def wSb : Sbd := { dests := [.x 3], effs := [.x 3 77], tok := none, req := none, due := none }
def dMl (due : Nat) : State := wBr u1 fun t => { t with sbuf := [(1, { st := 1, good := true, world := 5, region := 3, due := due, strand := 1 })] }

theorem witness_SharedResourcesComplete :
    ((1 : Word).getLsbD 0 = ((shr d3).part 0).share ∧ (∃ e ∈ (d3.strand 0 1).slot, e.2.st ≠ .empty) ∧ (0 : Nat) ∈ braidsOf 0 ∧ (1 : Word).getLsbD 0 ≠ (d3.part 0).share) ∧
    ((d3.part 0).share = false ∧ ((everyStrand 0 (fun s b k => preempt s b k 0) d3).slotOf 0 1 0).st = .running) ∧
    ((∀ b ∈ braidsOf 0, ∀ k < 4, (dTurn.slotOf b k 0).st ≠ .running) ∧ (Part.nextTurn dTurn 0).isSome = true) ∧
    ((∀ b ∈ braidsOf 0, ∀ k < 4, (d0.strand b k).slot = []) ∧ d0.images = []) ∧
    (let s := wSt d3 fun t => { t with slot := t.slot.filter (·.1 != 0) }; (s.slotOf 0 1 0).st = .empty ∧ (s.slotOf 0 1 2).st ≠ .empty) ∧
    ((∀ y ∈ [[], [2, 0]], ((dLease y).braid 0).holder = none ∧ (∀ n < 2, (((dLease y).braid 0).sbufOf n).st ≠ 1) ∧ ((dLease y).braid 0).leaseReqs = [{ strand := 1, n := 5, seq := 3 }]) ∧
      0 ∉ ((dLease).strand 0 1).yielded ∧ 0 ∈ ((dLease [2, 0]).strand 0 1).yielded) ∧
    (let s := wBr u1 fun t => { t with holder := some 2, left := 1 }; (s.braid 0).leaseFree = false) ∧
    ((dCmd 7).op = 7 ∧ (dCmd 7).acc = true ∧ (dCmd 7).begun = false ∧ (dCmd 7).sent = false ∧ (dCmd 7).entry = none ∧ ((dCm (dCmd 7)).braid 0).cmds = [dCmd 7] ∧
      1 ∉ ((dCm (dCmd 1)).strand 0 (dCmd 1).strand).yielded) ∧
    ((((dCm dCopy).braid 0).cmds.find? fun c => c.engine == 0 && (0 : Nat) != 2 && c.begun && c.entry.isNone && !c.sent) = some dCopy ∧ dCopy.done < dCopy.total ∧
      (match portionOf (dCm dCopy) 0 dCopy with | .ok (_, m) => decide (dCopy.total ≤ dCopy.done + m) | .error _ => false) = true ∧ (runCmd false dCopy.fuel (dCm dCopy) 0 dCopy).2 = none) ∧
    (let c := { dCopy with done := 16 }; c.total ≤ c.done) ∧
    (((dSb wSb).strand 0 1).sbd[0]? = some wSb ∧ wSb.early ≤ ((dSb wSb).strand 0 1).clk ∧ ((dSb wSb).strand 0 1).frz = none) ∧
    (let v := { wSb with early := 101 }; ((dSb v).strand 0 1).sbd[0]? = some v ∧ ((dSb v).strand 0 1).clk < v.early) ∧
    ((((dMl 100).braid 0).sbufOf 1).st = 1 ∧ (((dMl 100).braid 0).sbufOf 1).due ≤ braidClk (dMl 100) 0) ∧ braidClk (dMl 101) 0 < (((dMl 101).braid 0).sbufOf 1).due := by
  repeat' apply And.intro
  all_goals decide +kernel

def gateW (t r : Nat) : Word := BitVec.ofNat 64 (t * 2 ^ 32 + r * 2 ^ 4)
def bankW (n r : Nat) : Word := BitVec.ofNat 64 (n * 2 ^ 59 + r * 2 ^ 57)
def dBank (m : Nat) : State := wBr u1 fun t => { t with bankMode := [(23, m)] }
def dInv : State := u1.modPart 0 fun t => { t with tlbInv := 0x1100000000020000, tlbRun := 0x1100000000020000 }
def dWr (m : List Host.Cell) (a v : Nat) : List Host.Cell := memSetN m a (leBytes 8 v)
/-- Tables for world 5: pages 2 and 3 writable, 4 executable, 5 sealed, by the root 0x2000000. -/
def dTab (s : State) : State :=
  let m := dWr (dWr (dWr s.mem 0x2000000 (0x2001000 + 1)) 0x2001000 (0x2002000 + 1)) 0x2002000 (0x2003000 + 1)
  { s with mem := dWr (dWr (dWr (dWr m 0x2003010 (0x20000 + 3 + 16)) 0x2003018 (0x30000 + 3 + 16)) 0x2003020 (0x40000 + 3 + 64)) 0x2003028 (0x50000 + 3 + 64 + 32) }.modWorld 5 fun t =>
    { t with ctx := (1 <<< 63) ||| BitVec.ofNat 64 (0x2000 * 2 ^ 12) }
def dHold (h : Hold) : State := wSt (dTab u1) fun t => { t with hold := some h }
def dSw : State := wBr u1 fun t => { t with bankSw := [{ bank := 6, mode := 2, evt := none }], cache := [{ line := 0x30000, bank := 6, dirty := true }] }

theorem witness_RegistersOfTheDevice :
    ((u1.strand 0 1).slot.any (fun e => e.2.st != .empty) = true ∧ (1 : Word).getLsbD 0 ≠ (u1.braid 0).sync ∧ (0 : Word).getLsbD 0 = (u1.braid 0).sync) ∧
    (d0.anyRecord 0 = false ∧ d0.anyRecord (partner 0) = false ∧ ∀ f < 4, (d0.braid 0).vfOf f = [] ∧ (d0.braid (partner 0)).vfOf f = []) ∧
    (∀ q ∈ [(96, 0xFF), (95, 0xFF), (0, 0xFE), (1, 0xFF), (1, 0)], ((gateW q.1 q.2).toNat / 2 ^ 32) % 2 ^ 7 = q.1 ∧ ((gateW q.1 q.2).extractLsb' 4 8).toNat = q.2) ∧
    (partOf 95 ≠ 0 ∧ partOf 1 = 0 ∧ u1.logicInUse 0 = true ∧ (u1.braid 0).logicOn = true ∧ u1.logicInUse 1 = false ∧ ∀ g < 6, (u1.braid 1).groupUsed g = false) ∧
    (let s := u1.modBraid 1 fun t => { t with logicOn := false, logicWaking := true, bstOn := false, bstWaking := true, fabOn := 1, fabWaking := 62 }
     (s.braid 1).logicWaking = true ∧ (s.braid 1).bstWaking = true ∧ (s.braid 1).fabWaking.getLsbD 5 = true) ∧
    (∀ q ∈ [(24, 1), (23, 1), (23, 2), (23, 0)], ((bankW q.1 q.2).toNat / 2 ^ 59) % 2 ^ 5 = q.1 ∧ ((bankW q.1 q.2).toNat / 2 ^ 57) % 2 ^ 2 = q.2) ∧
    (∀ m ∈ [0, 1, 2], ((dBank m).braid 0).bankModeOf 23 = m ∧ 2 < ((dBank m).braid 0).cacheBanks ∧ ((dBank m).braid 0).switching 23 = false ∧ (dBank m).bankReserved 0 23 = false ∧
      ((dBank m).braid 0).slabsIn 23 = [] ∧ ((dBank m).braid 0).fifoOf 23 = [] ∧ (dBank m).fifoBusy 0 23 = false) ∧
    (((dSw.braid 0).bankSw.find? (·.bank == 6)) = some { bank := 6, mode := 2, evt := none } ∧
      ∀ c ∈ (dSw.braid 0).cache, c.bank = 6 → c.arm = none ∧ (c.dirty = true → fare dSw 0 (dSw.lineWorld c.line) c.line 1 = .sent)) ∧
    ((u1.part 0).tlbInv.getLsbD 63 = true ∧ (dInv.part 0).tlbInv.getLsbD 63 = false) ∧
    (((dHold (.walk 0x53210)).strand 0 1).hold = some (.walk 0x53210) ∧ (walk (dHold (.walk 0x53210)) 0 5 0x53210).toOption.isSome = true ∧
      errOf (walk (dHold (.walk 0x63210)) 0 5 0x63210) ≠ none ∧ ((dHold (.fetch 0x48000)).strand 0 1).hold = some (.fetch 0x48000)) ∧
    (u1.braid 0).sync = false ∧ ((wBr u1 fun t => { t with sync := true }).braid 0).sync = true ∧ (u1.slotOf (383 / 4) (383 % 4) 0).st = .empty ∧ u1.locked 5 = false ∧
    (u1.modWorld 5 fun t => { t with tdisp := .run }).locked 5 = true ∧ lvKind (u1.lv 0 7) ≠ 0 := by
  repeat' apply And.intro
  all_goals decide +kernel

def wXf (op : Nat) (f : Xfer → Xfer := id) : Xfer :=
  f { id := 40, op := op, braid := 0, strand := 1, world := 5, base := 0x30000, log2 := 16, agent := agentId 0 1 2, evt := 1, tworld := 5, badAlign := false, dst := 3, latchGen := 0, kb := 0
      started := false, arm := none }
/-- A transfer in progress, its recipient running another unit of the launch. -/
def dXf (x : Xfer) : State := { u1.modStrand 1 2 fun t => { t with slot := [(0, wRun)] } with xfers := [x] }
def wReq : Req := { kind := 1, op := 3, addr := 0x30010, slab := false, size := 8, data := 5, cmp := 0, cell := 64, tile := 0, row := 0, slot := 3, gen := 0, arm := none, va := 0x30010, cls := 0, seq := 30 }
/-- A store of the unit is held on a suspended route. -/
def dHeld (s : State) (lost : Bool := false) : State := wSt s fun t => { t with sbd := [{ dests := [.x 4], effs := [], tok := none, req := some (0, wReq), due := none, lost := lost }] }
def dErr (dirty : Bool) : State := { wBr u1 fun t => { t with cache := [{ line := 0x30000, dirty := dirty }] } with slices := [(homeSlice 0x30010, [{ line := 0x30000, dirty := dirty }])] }

theorem witness_TransfersAndErrorsComplete :
    (∀ op ∈ [10, 11], let s := dXf (wXf op); s.xferBehind (wXf op) = false ∧ s.xferReady (wXf op) = true ∧ fareHome s 0 5 0x30000 = .sent) ∧
    MayMove (dXf (wXf 10)) ((wXf 10).args 0) wTok ∧ MayMove (dXf (wXf 11)) ((wXf 11).args 0) wTok ∧
    (let s := dHeld (dXf (wXf 11)); s.xferBehind (wXf 11) = false ∧ s.xferReady (wXf 11) = false ∧ fareHome s 0 5 0x30000 = .sent ∧ s.tokenBusy ((wXf 11).args s.device) = false) ∧
    (∀ x ∈ [wXf 10 fun x => { x with arm := some 3 }, wXf 10 fun x => { x with entry := some 3 }], (dXf x).xfers[0]? = some x ∧ (x.arm.isSome = true ∨ x.entry.isSome = true)) ∧
    ((∀ c ∈ Store.get (dErr false).slices (homeSlice 0x30010) [], c.line = lineOf 0x30010 → c.dirty = false ∧ c.arm = none) ∧
      (∀ c ∈ ((dErr false).braid 0).cache, c.line = lineOf 0x30010 → c.dirty = false ∧ c.arm = none)) ∧
    ((∃ c ∈ Store.get (dErr true).slices (homeSlice 0x3007F) [], c.line = lineOf 0x3007F ∧ c.dirty = true) ∧ ∃ c ∈ ((dErr true).braid 0).cache, c.line = lineOf 0x3007F ∧ c.dirty = true) ∧
    (isDevMem 0x30010 = true ∧ 32 * hbmStack 0x30010 + hbmChannel 0x30010 ∉ u1.deadChannels ∧
      (swapLane (Store.get u1.lanes (32 * hbmStack 0x30010 + hbmChannel 0x30010) 0) 527).isSome = true) ∧
    ((u1.slotOf 0 1 0).live = true ∧ u1.isLocal (agentId u1.device 0 1) = true) ∧
    (slabSize (((wSlab u1 2).braid 0).slabOf 2) ≠ 0 ∧ ((wBr u1 fun t => { t with fifo := [(23, [5])] }).braid 0).fifoOf 23 ≠ []) ∧
    ((u1.tokens.filter fun t => homeSlice t.base == homeSlice 0x30000)[0]? = some wTok ∧ homeSlice 0x30000 < 96) ∧ ((u1.modBraid 2 fun t => { t with status := 1 }).braid 2).status ≠ 0 := by
  repeat' apply And.intro
  all_goals first | decide +kernel | (constructor <;> decide +kernel)

def wWords : List Word := [0x080000000000002e]
def wPk (kind : Nat) (route : List Word) (f : Packet → Packet := id) : Packet := f { mkPacket u1 0 kind route 96 5 1 0 with tag := 9 }
def dNet (ps : List Packet) : State := { u1 with packets := ps }
/-- The packet after n hops of its route. -/
def hops : Nat → State → Packet → Packet
  | 0, _, p => p
  | n + 1, s, p => match hopOf s p with
    | .ok q => hops n s q
    | .error _ => p
def okHop (s : State) (p : Packet) (f : Packet → Bool) : Bool := match hopOf s p with | .ok q => f q | .error _ => false
def wRead (n : Nat) : Packet := hops n (dNet []) (wPk 0 wWords fun p => { p with addr := 0x300000, len := 8 })
def wFault : Packet := wPk 5 [BitVec.ofNat 64 (2 ^ 58 + 7)] fun p => { p with arrived := 3 }
def wMsg (kind : Nat) : Packet := wPk kind [] fun p => { p with delivered := true, data := [1, 2, 3], channel := 10, strand := 1, counter := 3, ret := wWords }
def wRet : Packet := wPk 8 [] fun p => { p with delivered := true, owner := some (0, 30), fault := 3, faultHop := 4 }
def dSent (e : Option Nat) (ps : List Packet := []) : State := wBr (dNet ps) fun t => { t with cmds := [dCmd 22 fun c => { c with entry := e, sent := true, begun := true }] }
def dRecv : State := wBr (dNet [wMsg 5]) fun t => { t with recvs := [dCmd 23 fun c => { c with blk := [0x30000, 0x20000AFFFF#64 ||| (3 <<< 36)] }] }
def goesB (q : Packet) : Bool := !q.delivered || (5 ≤ q.kind && (q.kind != 8 || q.owner.isSome))

theorem goesOn_of {q : Packet} (h : goesB q = true) : GoesOn q := by
  simp only [goesB, Bool.or_eq_true, Bool.and_eq_true, Bool.not_eq_true', decide_eq_true_eq, bne_iff_ne] at h
  rcases h with h | ⟨h, g⟩
  · exact .inl h
  · exact .inr ⟨h, fun e => g.resolve_left (· e)⟩

def wAt (nd : Node) (a : Nat) (c : Nat) : Packet := wPk 5 [BitVec.ofNat 64 (2 * 2 ^ 58 + c)] fun p => { p with at_ := nd, arrived := a }

theorem witness_NetworkStepsComplete :
    (let p := wAt (.router 0) 3 2; okHop (dNet [p]) p goesB = true ∧ p.waits 0 = false ∧ At (dNet [p]) 0 p) ∧
    (let p := wRead 0; p.waits 0 = true ∧ (injectNext (dNet [p]) 0).1 = some 0 ∧ okHop (injectNext (dNet [p]) 0).2 p goesB = true ∧ At (dNet [p]) 0 p ∧ ((dNet [p]).part 0).share = false ∧
      (dNet [p]).ownerCmd p = none ∧ 4 ∉ ((dNet [p]).strand 0 0).yielded) ∧
    (At (dNet [wFault]) 0 wFault ∧ wFault.at_ = .router 0 ∧ wFault.waits 0 = false ∧ wFault.kind ≠ 8 ∧ okHop (dNet [wFault]) wFault (fun _ => true) = false) ∧
    (let p := { wFault with kind := 8 }; At (dNet [p]) 0 p ∧ p.waits 0 = false ∧ okHop (dNet [p]) p (fun _ => true) = false) ∧
    (let p := wAt .hub 0 61; At (dNet [p]) 0 p ∧ okHop (dNet [p]) p goesB = true) ∧
    (let p := wAt (.slice 0) 0 5; At (dNet [p]) 0 p ∧ okHop (dNet [p]) p goesB = true) ∧
    (let p := wRead 1; At (dNet [p]) 0 p ∧ p.at_ = .slice 0 ∧ okHop (dNet [p]) p (fun q => q.delivered && q.kind == 0 && ((dNet [p]).deadLines false q.addr q.len).isEmpty) = true) ∧ ((dNet []).link (303 + 15)).down = false ∧
    (Stands (dSent none [wRet]) 0 wRet ∧ (({ dSent none [wRet] with packets := [] }.ownerCmd wRet).map fun (q : Nat × Cmd) => (q.1, q.2.seq)) = some (0, 30)) ∧
    (Stands (dSent (some 0) [wRet]) 0 wRet ∧ ∀ d ∈ ((dSent (some 0) [wRet]).braid 0).cmds, d.op ≠ 37) ∧
    (Stands dRecv 0 (wMsg 5) ∧ dRecv.behindMessage 0 (wMsg 5) = false ∧ (match (dRecv.braid 0).recvs.find? (recvMatches (wMsg 5)) with
      | some c => c.slabIn == none && !c.drained && (match deliverData dRecv 0 c (wMsg 5) with | (_, 0, 0, none) => true | _ => false)
      | none => false) = true) ∧
    (∀ k ∈ [5, 6], (dNet [wMsg k]).behindMessage 0 (wMsg k) = false ∧ ((dNet [wMsg k]).braid 0).recvs = []) ∧ Stands (dNet [wMsg 6]) 0 (wMsg 6) ∧ Stands (dNet [wMsg 7]) 0 (wMsg 7) ∧
    (((dSent (some 0)).braid 0).cmds.all (fun c => c.sent && c.op != 37 && c.entry == some 0) = true ∧ (∀ k < 4, ((dSent (some 0)).strand 0 k).lostOn 0 = false) ∧ (dSent (some 0)).images = [] ∧
      (dSent (some 0)).xfers = [] ∧ (dSent (some 0)).packets = []) ∧
    (let s := dHeld (dNet []) true; (s.strand 0 1).lostOn 0 = true ∧ (s.braid 0).cmds = []) ∧
    (let s := suspendEntry (dHeld (dNet [])) 0 0 3 1; ((s.braid 0).rbOf 0).susp = true ∧ (s.braid 0).cmds = [] ∧ (∀ k < 4, (s.strand 0 k).frz = none) ∧
      ((s.strand 0 1).sbd.any fun v => v.req.any fun r => r.1 == 0) = true ∧ (s.strand 0 1).slot0.live = true) ∧
    (let s := suspendEntry (dCm (dCmd 22 fun c => { c with entry := some 0 })) 0 0 3 1; ((s.braid 0).rbOf 0).susp = true ∧ (∀ k < 4, (s.strand 0 k).sbd = [] ∧ (s.strand 0 k).frz = none) ∧ s.xfers = []) ∧
    (((dSent none).braid 0).cmds.all (fun c => c.sent && c.op != 37 && c.op != 64 && c.entry.isNone) = true ∧ (dSent none).packets = []) ∧
    (((dNet []).link 318).down = false ∧ ((dNet []).link 318).crcAB < 7 ∧ ({ dNet [] with links := [(318, { linkReset 318 with crcAB := 7 })] }.link 318).crcAB = 7 ∧
      ({ dNet [] with links := [(318, { linkReset 318 with down := true })] }.link 318).down = true) := by
  repeat' apply And.intro
  all_goals decide +kernel

def qHead (h t : Nat) : State := u1.modPart 0 fun p => { p with head := BitVec.ofNat 9 h, tail := BitVec.ofNat 9 t }
/-- A frozen unit with a handler, its trap record in the ring, a free sealed page at 0x50000. -/
def dHan : State :=
  let s := dTab ((wSt u1 fun t => { t with slot := [(0, { wRun with st := .frozen, cause := 2, desc := some (BitVec.ofNat 512 (wDesc + 0x41000 * 2 ^ 192)) })] }).modPart 0 fun t =>
    { t with ring := [(0, BitVec.ofNat 512 (wMe.toNat * 2 ^ 456))], head := 0, tail := 1 })
  { s with mem := memSetN s.mem 0x41000 (leBytes 64 (0x40000 + 2 ^ 64)) }
def dKey : State := (dFrz 0).modWorld 5 fun w => { w with tdisp := .run, ctxKey := some 77 }
def dSaved (s : State) : State := match execStreamingSave 0 1 s with | .next t => t | _ => s

theorem witness_SavesAndDebugComplete :
    (((qHead 510 3).part 0).heldRecs = [] ∧ (((5 : Word).setWidth 9 - ((qHead 510 5).part 0).head).toNat = (((qHead 510 5).part 0).tail - ((qHead 510 5).part 0).head).toNat) ∧
      (((qHead 510 3).part 0).tail - ((qHead 510 3).part 0).head).toNat < ((4 : Word).setWidth 9 - ((qHead 510 3).part 0).head).toNat) ∧
    (u1.slotOf 0 1 0).st ≠ .frozen ∧ ((dHan.slotOf 0 1 0).st = .frozen ∧ (dHan.slotOf 0 1 0).cause ≠ 0 ∧ dHandler (dHan.slotOf 0 1 0).descr = 0x41000 ∧ (dHan.slotOf 0 2 0).st = .empty ∧
      (match readVALE dHan 0 5 0x41000 64 with | .ok d => !launchBad d | .error _ => false) = true ∧ ((dHan.part 0).recordOf (agentId dHan.device 0 1)).isSome = true ∧
      (dHan.part 0).freeLevels 1 ≠ [] ∧ (match translate dHan 0 5 0x50000 with | .ok e => e.isSealed | .error _ => false) = true) ∧
    ((∀ s ∈ [dFrz 0, dKey], (s.slotOf 0 1 0).st = .frozen ∧ (s.slotOf 0 1 0).saved = false ∧ (resumeAt s 0 (s.strand 0 1)).isSome = true) ∧ (dKey.world 5).ctxKey.isSome = true) ∧
    (∀ s ∈ [dFrz 0, dKey], ((dSaved s).images.all fun i => !i.evicted && i.slotNo == 0 && i.braid == 0 && i.strand == 1 && i.part == 0 && i.verifies (dSaved s) && i.locks.isEmpty &&
      i.body.savedCmds.isEmpty && !i.body.c.leaseHas && i.body.pendBrk.isNone && (imageResume (dSaved s) 0 1 i).isSome) = true ∧ (dSaved s).images.length = 1 ∧ ((dSaved s).braid 0).cmds = []) ∧
    (let s := (dSaved dKey).modWorld 5 fun w => { w with ctxKey := some 78 }; s.images.length = 1 ∧ s.images.all (fun i => !i.verifies s) = true) ∧ (d3.strand 0 1).frz = none := by
  repeat' apply And.intro
  all_goals decide +kernel

def dTd (x : Tdisp) (ph : Nat := 0) : State := u1.modWorld 5 fun t => { t with tdisp := x, phase := ph }
theorem witness_WorldStepsComplete :
    ((∀ x ∈ [Tdisp.unlocked, .locked, .run, .error], ((dTd x).world 5).tdisp = x ∧ ((dTd x).world 5).tearing = false) ∧ u1.finalReports = [] ∧ Vf 1 ∧ Vf 192) ∧
    ((dTd .error 1).world 5).tearing = true ∧ (dTd .locked).locked 5 = true ∧ assignRefused State.reset 5 0xF2 = false ∧
    (let s := dTd .run; s.partitionOf 5 = some (partOf 0) ∧ (s.braid 0).logicOn = true ∧ (s.braid 0).freeKey = some 0 ∧ (∀ i < 32, ((s.braid 0).keyOf i).valid = false) ∧ s.pair 5 4095 = none ∧
      s.pairs.length < 16384) ∧ (0x40000000 % 2 ^ 30 = 0 ∧ u1.declass.length < 4096 ∧ (5, 0x40000000, 30) ∉ u1.declass) := by
  repeat' apply And.intro
  all_goals decide +kernel

def qCfg (a : Nat) : Word := BitVec.ofNat 64 (a * 65536)
/-- The host holds world 5's pages 2 and 3, its queue in the one and its journal in the other. -/
def dHost : State := { dTab u1 with tokens := [{ wTok with holder := hostAgent 0 }, { wTok with holder := hostAgent 0, base := 0x20000 }] }.modWorld 5 fun t =>
  { t with qcfg := qCfg 2, jcfg := qCfg 3, qtail := 1 }
def wHc (op w a0 a1 a2 : Nat) (r : Option (Nat × Nat) := none) (begun : Bool := false) : HostCmd :=
  { seq := 60, entry := BitVec.ofNat 512 (op + w * 65536 + a0 * 2 ^ 64 + a1 * 2 ^ 128 + a2 * 2 ^ 192), qindex := 0, begun := begun, result := r }
def dHc (c : HostCmd) : State := { dHost.modWorld 5 fun t => { t with cmds := [c] } with mem := memSetN dHost.mem 0x30000 (leBytes 64 (0x20000 + 2 ^ 64)) }

theorem witness_HostStepsComplete :
    ((match hostRange dHost 5 0x30010 3 true with | .ok ps => ps.all fun p => hostReaches dHost 5 p.1 | .error _ => false) = true ∧
      (hostRange dHost 5 0x30010 3 false).toOption.isSome = true ∧ (hostRange dHost 5 0x60010 3 false).toOption = none) ∧
    (let s := dHost.modWorld 5 fun t => { t with qtail := 0 }; (s.world 5).qhead = (s.world 5).qtail ∧ s.locked 5 = false) ∧ (dHost.world 5).qhead ≠ (dHost.world 5).qtail ∧
    ((dHost.world 5).qerr = false ∧ 15 < qSize (dHost.world 5).qcfg ∧ (let u := dHost.setWorld 5 { dHost.world 5 with qtail := 15 }; ringHeld u 5 (dHost.world 5).qcfg = true ∧
      ringHeld u 5 (dHost.world 5).jcfg = true) ∧ ringHeld dHost 5 (qCfg 9) = false) ∧
    (∀ op ∈ [1, 2, 3, 4, 5, 6], let c := wHc op 6 0 0 0; mayBegin (dHc c) 5 op 60 = some c ∧ cmdDenied (dHc c) 5 c.entry = true) ∧
    (∀ op ∈ [1, 2, 3, 4, 5, 6], let c := wHc op 5 0x30000 7 0; mayBegin (dHc c) 5 op 60 = some c ∧ cmdDenied (dHc c) 5 c.entry = false) ∧
    (let c := wHc 1 5 0x30000 7 0; let s := dHc c; (match hostRange s 5 (cmdArg c.entry 0) 64 false with
      | .ok ps => let d := s.readLE (ps.headD (0, 0)).1 64; !launchBad d && d / 2 ^ 64 % 2 ^ 24 == 1
      | .error _ => false) = true ∧ ((s.part 0).freeLevels 4).length = 4 ∧ s.partitionOf 5 = some 0) ∧
    (let c := wHc 1 5 0 0 0 (some (3, 4)) true; (((dHc c).world 5).cmds.find? (·.seq == 60)) = some c ∧ c.result = some (3, 4)) ∧
    (let c := wHc 3 5 0xFFF 0 0 none true; let s := wSt (dHc c) fun t => { t with slot := [] }; quiesceDone s c.entry = true ∧ ((s.world 5).cmds.find? (·.seq == 60)) = some c ∧ cmdOp c.entry = 3) := by
  repeat' apply And.intro
  all_goals decide +kernel

def dTear (ph : Nat) (u : Bool) : State := { d0 with strands := [], tokens := [wTok] }.modWorld 5 fun w => { w with phase := ph, byUnit := u, boundOn := [3], listBraids := [3], doneBraids := [3] }
def dNt : State := { dTab u1 with mem := memSetN (dTab u1).mem 0x50000 (leBytes 64 ((u1.braid 0).sig.toNat + 2046 * 2 ^ 128 + 0x48000 * 2 ^ 192)) }
def dGr : State := u1.modPart 0 fun t => { t with level := [(3, mkLevel 3 1 9 5 1 0), (9, mkLevel 4 1 9 5 1 0)] }
theorem witness_TeardownsAndResetsComplete :
    ((5 <<< 56 : Word).toNat / 2 ^ 56 = 5 ∧ u1.assigned 5 0 = true ∧ (u1.world 5).tearing = false) ∧
    (((dTear 1 true).world 5).phase = 1 ∧ (∀ p < 12, (dTear 1 true).worldInPart p 5 = false) ∧ (∀ b < 96, ∀ m < 32, (((dTear 1 true).braid b).keyOf m).valid = false) ∧ (dTear 1 true).pairs = []) ∧
    (((dTear 2 true).world 5).phase = 2 ∧ ((dTear 2 true).world 5).scrubbed = true) ∧ ((dTear 2 false).world 5).byUnit = false ∧
    (match walkPlain dNt 5 0x50000, readVALE dNt 0 5 0x50000 64 with
      | .ok e, .ok h => e.isSealed && e.x && h / 2 ^ 192 % 2 ^ 48 == 0x48000 && h / 2 ^ 128 % 65536 == 2046 && (dNt.compute 0).any fun c => (dNt.braid c).sig == BitVec.ofNat 64 h
      | _, _ => false) = true ∧
    (lvKind (dGr.lv 0 3) = 3 ∧ lvState (dGr.lv 0 3) = 1 ∧ ((dGr.part 0).freeLevels 2).length = 2 ∧ 3 ∉ (dGr.part 0).freeLevels 2 ∧ ((dGr.part 0).freeLevels 2).Nodup ∧ lvKind (dGr.lv 0 9) ≠ 3) := by
  repeat' apply And.intro
  all_goals decide +kernel

def wSpl (a : Nat) : SpliceReq := { braid := 0, strand := 1, evt := 2, world := 5, image := 3, action := a, target := 0, unit := 1 }
def dRel (f : Braid → Braid := id) : State := { wBr u1 f with strands := [] }
theorem witness_ReliabilityStepsComplete :
    (∀ a ∈ [0, 1], { u1 with spliceReqs := [wSpl a] }.spliceReqs[0]? = some (wSpl a)) ∧
    (let s := dRel; let u := (s.braid 0).iftNextUnit.toNat; unitOk u = true ∧ inGap s 0 u = true ∧ u ∉ (s.braid 0).condemned ∧ u ∉ (s.braid 0).noms ∧ (s.braid 0).iftIndex < 47999 ∧
      (256 + 95) ∉ (s.braid 0).condemned ∧ (256 + 95) ∉ (s.braid 0).noms ∧ ∀ k < 4, (s.slotOf 0 k 0).st ≠ .running) ∧
    (let s := dRel fun t => { t with noms := [t.iftNextUnit.toNat, 7] }; let u := (s.braid 0).iftNextUnit.toNat; inGap s 0 u = true ∧ u ∈ (s.braid 0).noms) ∧
    (let s := wBr (wSt u1 fun t => { t with sbd := [{ dests := [.x 4], effs := [], tok := none, req := some (0, { wReq with kind := 0 }), due := none }] }) fun t => { t with iftNextUnit := 2 }
     (s.slotOf 0 1 0).st = .running ∧ repairHolds 1 (s.braid 0).iftNextUnit.toNat = true ∧ (s.braid 0).iftNextUnit.toNat < 0x40 ∧ (s.strand 0 1).awaitsLoad = true) ∧ (unitOk 3 = true ∧ (Store.get (u1.braid 0).shCount 3 []).length < 63 ∧ (u1.braid 0).shTotal ≠ BitVec.allOnes 32) ∧
    (let s := wBr u1 fun t => { t with mhz := 1225 }; (s.braid 0).mhz = 1225 ∧ (s.braid 0).sync = false) := by
  repeat' apply And.intro
  all_goals decide +kernel

/-! The machine as a whole. -/
theorem witness_FalsePredicateDoesNothing : ∀ i ∈ [Instr.add { aR with pred := 3 }, .st64 { mS with pred := 3 }, .send { eF with pred := 3 }, .halt { pred := 3 }, .mma { fMm with pred := 3 }],
    i.slot.isSome = true ∧ readsPredicate i = false ∧ predField i = 3 ∧ u1.here.r.pred (predField i) = false ∧
      (match i.slot, slotOp i with | some _, some op => (op (u1.ctx i)).early.isEmpty | _, _ => false) = true := by
  decide +kernel

theorem witness_EveryInstructionGoesOn : State.reset.heldInReset = false ∧ ({ u1 with heldInReset := true, agenda := [] } : State).agenda = [] ∧
    ({ u1 with heldInReset := true, agenda := [.strand 0 1] } : State).agenda ≠ [] := by decide +kernel

/-- A dense block of one ADDI at 0x48008, and its native bundle at 0x48040, their lines held. -/
def uF2 (pc : Word) : State :=
  let s := wBr (wCtl u1 fun c => { c with pc := pc }) fun t => { t with icLines := [(0x48000, 5), (0x48080, 5)] }
  { s with agenda := [.strand 0 1], mem := s.mem ++ [(0x48008, 1), (0x4800C, 1), (0x4800D, 5), (0x4800E, 5), (0x4800F, 8), (0x48044, 2), (0x48045, 0xC0), (0x48046, 0x1E), (0x48047, 8)] }
def uDense : State := uF2 0x48008
def uNative : State := uF2 0x48041
theorem witness_StepRunsTheDecodedInstruction :
    (uDense.heldInReset = false ∧ (uDense.strand 0 1).ready = true ∧ (uDense.strand 0 1).rtTimeout = none ∧ (uDense.strand 0 1).instrBps 0x48008 = 0) ∧
    (uNative.heldInReset = false ∧ (uNative.strand 0 1).ready = true ∧ (uNative.strand 0 1).rtTimeout = none ∧ (uNative.strand 0 1).instrBps 0x48041 = 0) ∧
    fetchN uNative 0 5 0x48040 32 = .bytes (0x081EC002 * 2 ^ 32) ∧
    (match decodeNative (BitVec.ofNat 256 (0x081EC002 * 2 ^ 32)) with
      | .ok bd => decide (bd.ops.filter (!isNop ·) = [.addi { aI with dst := 30, a := .zero, imm := 2 }])
      | _ => false) = true ∧
    fetchN uDense 0 5 0x48008 4 = .bytes 1 ∧ tagCount (BitVec.ofNat 32 1) = 1 ∧ fetchN uDense 0 5 0x4800C 4 = .bytes 0x08050501 ∧
    (match decodeDense (BitVec.ofNat 32 1) (wordsOf 0x08050501 1) with
      | .ok bd => decide (bd = Bundle.single (.addi { aI with dst := 5, a := .reg 5, imm := 1 }))
      | _ => false) = true := by
  repeat' apply And.intro
  all_goals decide +kernel

theorem witness_DecodeOfEncode : ∀ i ∈ [Instr.addi { aI with imm := 63, dst := 63 }, .send { eF with kb := 15, flags := 2047 }, .br { pred := 7, off := 0x7FFF }], i.slot.isSome = true ∧ i.wf = true := by
  decide +kernel

theorem witness_InvalidLatchesTrap : Quiet u1 ∧ u1.here.r.pred 0 = true ∧ ∀ i ∈ [Instr.add aR, .addi aI, .shli aS, .shl aX, .clz aU], (u1.ctx i).badLatch (.latch 7) = true ∧ (u1.ctx i).badLatch (.latch 1) = false := by
  refine ⟨quiet_of ?_, ?_⟩ <;> decide +kernel

/-! Single steps: what is expected is worked out from the rules, or from the tables of the commentary, never from the model. -/

/-- s<dst> of the unit after one operation and its latency, its operands s1 and s3. -/
def resX (i : Instr) (a b : Word) (s : State) (n : Nat := 5) : Option Word :=
  match exec i (wReg s fun r => { r with x := [(1, a), (3, b)] }) with
  | .next t => some ((t.here.landUpTo 1000).r.getX n)
  | _ => none
def rr (mk : FmtAR → Instr) (a b : Word) : Option Word := resX (mk { sl := .A, pred := 0, ws := false, dst := 5, a := .reg 1, b := .reg 3, lng := none }) a b u1
def xx (mk : FmtAX → Instr) (a b : Word) : Option Word := resX (mk { sl := .A, pred := 0, ws := false, dst := 5, a := .reg 1, b := .reg 3 }) a b u1

/-- Sums wrap, products keep their high halves by sign (R234). -/
theorem test_add_mul : rr .add (BitVec.allOnes 64) 1 = some 0 ∧ rr .mulhI (BitVec.allOnes 64) 2 = some (BitVec.allOnes 64) ∧ rr .mulhW (BitVec.allOnes 64) 2 = some 1 := by decide +kernel
/-- The edge results of 16_control_scalar_commentary (R235, R236, R239). -/
theorem test_div_rem : rr .divI 7 0 = some (BitVec.allOnes 64) ∧ rr .remI 7 0 = some 7 ∧ rr .divI (1 <<< 63) (BitVec.allOnes 64) = some (1 <<< 63) ∧
    rr .remI (1 <<< 63) (BitVec.allOnes 64) = some 0 ∧ rr .divI (-7) 2 = some (-3) ∧ rr .remI (-7) 2 = some (-1) ∧ rr .divI 7 (-2) = some (-3) ∧ rr .remI 7 (-2) = some 1 := by decide +kernel
theorem test_shift_field : xx .shl 9 64 = some 9 ∧ xx .sar (1 <<< 63) 63 = some (BitVec.allOnes 64) ∧ xx .extW 0xA000000000000000 (60 + 7 * 64) = some 0xA ∧
    xx .extI 0xF0 (4 + 3 * 64) = some (BitVec.allOnes 64) ∧ resX (.clz { sl := .A, pred := 0, ws := false, dst := 5, a := .reg 1 }) 0 0 u1 = some 64 := by decide +kernel
/-- 1 + 2^-24 lies halfway and goes to the even 1, its neighbour's tie to the even above (R139, R152, R153); 2 times 3 is 6. -/
theorem test_float : rr .fadd 0x3F800000 0x33800000 = some 0x3F800000 ∧ rr .fadd 0x3F800001 0x33800000 = some 0x3F800002 ∧ rr .fmul 0x40000000 0x40400000 = some 0x40C00000 := by
  decide +kernel
/-- FCVT f32 to i32 saturates and takes NaN to 0 (R140, R243). -/
theorem test_fcvt : (let c := fun a => resX (.fcvt { sl := .A, pred := 0, ws := false, dst := 5, a := .reg 1, cvTo := 3, cvFrom := 0 }) a 0 u1
    c 0x4F32D05E = some 0x7FFFFFFF ∧ c 0x7FC00000 = some 0 ∧ c 0xC0200000 = some (-2)) := by decide +kernel
/-- WS keeps the register (R234). -/
theorem test_ws : resX (.add { sl := .A, pred := 0, ws := true, dst := 5, a := .reg 1, b := .reg 3, lng := none }) 4 5 u1 = some 0 := by decide +kernel

/-- What a load of the token's page gives: bytes lowest first, sign-extended or not (R254). -/
def dPage : State := { u1 with mem := u1.mem.takeWhile (·.1 < 0x30000) ++ [(0x30010, 0x80), (0x30011, 0xFF), (0x30017, 0x12)] ++ u1.mem.dropWhile (·.1 < 0x30000) }
/-- The strand once its awaited values have come. -/
def come (t : Strand) : Strand := t.sbd.foldl (fun u v => v.effs.foldl Strand.landEff u) (t.landUpTo 1000)
def ldAt (mk : FmtML → Instr) : Option Word := match exec (mk { pred := 0, cls := 0, dst := 5, base := .reg 3, off := 0, lng := none }) (wReg dPage fun r => { r with x := [(3, 0x30010)] }) with
  | .next t => some ((come t.here).r.getX 5)
  | _ => none
theorem test_loads : ldAt .ldI8 = some 0xFFFFFFFFFFFFFF80 ∧ ldAt .ldW8 = some 0x80 ∧ ldAt .ldI16 = some 0xFFFFFFFFFFFFFF80 ∧ ldAt .ldW16 = some 0xFF80 ∧ ldAt .ld64 = some 0x120000000000FF80 := by
  decide +kernel
/-- A store writes its bytes and no others (R255). -/
theorem test_store : (match exec (.st16 { pred := 0, cls := 0, data := .reg 1, base := .reg 3, off := 1, lng := none }) (wReg u1 fun r => { r with x := [(1, 0xABCD), (3, 0x3000E)] }) with
    | .next t => (List.range 6).map fun i => (t.byte (0x3000E + i)).toNat
    | _ => []) = [0, 0, 0xCD, 0xAB, 0, 0] := by decide +kernel
/-- An atomic gives what was there and adds (R258). -/
theorem test_amo : (match exec (.amoAdd { pred := 0, cls := 0, dst := 5, base := .reg 3, data := 1 }) (wReg dPage fun r => { r with x := [(1, 0x100), (3, 0x30010)] }) with
    | .next t => ((come t.here).r.getX 5, (t.readN 0x30010 2).map (·.toNat))
    | _ => (0, [])) = (0x120000000000FF80, [0x80, 0]) := by decide +kernel

/-- The words the rules write out as examples (R166, R226, R255, R276, R290, R295, R314, R315, R323, R324, R326, R329, R335, R338). -/
theorem test_examples : reads 0 [(0x0028190C, none, .loopr { pred := 0, cnt := .reg 50, len := 12 })] = true ∧
    reads 1 [(0x04030100, some 0x000186A0, .add { sl := .A, pred := 0, ws := false, dst := 3, a := .reg 1, b := .reg 0, lng := some 100000 })] = true ∧
    reads 3 [(0x50105032, none, .st32 { pred := 0, cls := 1, data := .reg 5, base := .reg 3, off := 2, lng := none })] = true ∧
    reads 4 [(0x1040C482, none, .vfma { pred := 0, row := 16, td := 3, ta := 1, tb := 2, ty := 0, msk := 1 }),
      (0x940180E4, none, .vpart { pred := 0, row := 0, td := 6, ta := 0, tb := 3, ty := 4, msk := 2 }), (0x88091589, none, .vshuf { pred := 0, row := 2, td := 4, ta := 5, tb := 6, idx := 9 })] = true ∧
    reads 5 [(0x08400000, none, .mlease { pred := 0, n := 16 }), (0x18343A80, none, .mlds { pred := 0, off := .reg 52, key := 7, fb := 2, sb := 1 }),
      (0x20349000, none, .mmaAcc { pred := 0, ta := 3, g := 0, sb := 1, fa := 1, za := 0 }), (0x282E4A00, none, .macr { pred := 0, bank := 1, brow := 7, tile := 2, trow := 5, ty := 0 })] = true ∧
    reads 6 [(0x28028120, none, .tlend { pred := 0, cls := 0, evt := 5, kb := 0, flags := 9 * 32 }), (0x90012000, none, .splreq { pred := 0, cls := 0, evt := 2, kb := 4, flags := 0 })] = true ∧
    reads 7 [(0x10410800, none, .scld { pred := 0, z := 1, base := .reg 4, cls := 2 }), (0x3082A000, none, .fexp2 { pred := 0, row := 16, td := 5, ta := 4 })] = true := by decide +kernel

/-- The dense block after R201: tag 0x02000011, the ADD and its long immediate. -/
theorem test_dense_block : (match decodeDense 0x02000011 [0x04030100, 0x000186A0] with
    | .ok bd => decide (bd = Bundle.single (.add { sl := .A, pred := 0, ws := false, dst := 3, a := .reg 1, b := .reg 0, lng := some 100000 }))
    | _ => false) = true := by decide +kernel

/-- The route to the home slice after R138: three hops, and the return word it leaves. -/
def routed (n : Nat) : Packet := hops n { u1 with packets := [] } { mkPacket u1 5 0 [0x0C00000000000170] 96 5 1 0 with addr := 0x300000, len := 8 }
theorem test_route : (routed 3).at_ = .slice 0 ∧ (routed 3).delivered = true ∧ (routed 3).ret = [0x1000000000000A88] := by decide +kernel

/-- The chain of the example after R102: S lends to A, A to B, A's unit halts, B returns. -/
def chainS : BitVec 24 := 0x005000
def chainA : BitVec 24 := 0x000A00
def chainB : BitVec 24 := 0x001240
def chainTok (s : State) : Option (BitVec 24 × List (BitVec 24) × Bool) := (s.tokenExact 0x40000 12).map fun t => (t.holder, t.lend, t.orph)
def chainOp (op : Nat) (a : BitVec 24) (agent : BitVec 24) (s : State) : State := (tokenTransfer s { op := op, issuer := a, world := 5, base := 0x40000, log2 := 12, agent := agent }).2
/-- Units of world 5 on the three strands, the token held by S. -/
def chain0 : State :=
  let run := fun (s : State) (q : Nat × Nat) => s.modStrand q.1 q.2 fun t => { t with slot := [(0, wRun)] }
  { ([(40, 0), (5, 0), (9, 2)].foldl run u1).modBraid 40 fun t => { t with held := [⟨chainS, 5, 0, 0x40000, 12⟩] } with tokens := [{ wTok with holder := chainS, base := 0x40000, log2 := 12 }] }
def chain2 : State := chainOp 10 chainA chainB (chainOp 10 chainS chainA chain0)
def chain3 : State := match chain2.tokenExact 0x40000 12 with | some t => orphanToken chain2 t chainA chainS | none => chain2
theorem test_chain : chainTok (chainOp 10 chainS chainA chain0) = some (chainA, [chainS], false) ∧ chainTok chain2 = some (chainB, [chainA, chainS], false) ∧
    chainTok chain3 = some (chainB, [chainS], true) ∧ chainTok (chainOp 12 chainB 0 chain3) = some (chainS, [], false) := by decide +kernel

/-- A user unit's TRAP freezes it with cause 0x11 and writes one record (R230, R231, R344). -/
theorem test_trap_entry : (match exec (.trap { pred := 0, code := 5 }) u1 with
    | .next t => ((t.strand 0 1).slot0.st, (t.strand 0 1).slot0.cause, (t.part 0).tail.toNat)
    | _ => (.empty, 0, 0)) = (.frozen, 0x11, 1) := by decide +kernel

/-- The example of R315: of lanes 1, 4 and 5 set the indices come first, then those of the clear ones, and their number in o3. -/
theorem test_vpart : (match exec (.vpart { pred := 0, row := 0, td := 6, ta := 0, tb := 3, ty := 4, msk := 2 }) (wReg u1 fun r => { r with mask := [(2, 0x32)] }) with
    | .next t => (((lanesOf 8 ((come t.here).r.tileRow 6 0)).take 10), ((lanesOf 8 ((come t.here).r.tileRow 6 0)).drop 63).take 3, (come t.here).r.getX 51)
    | _ => ([], [], 0)) = ([1, 4, 5, 0, 2, 3, 6, 7, 8, 9], [63, 0, 0], 3) := by decide +kernel

/-- A load of a line behind a dead channel damages its token and leaves a pending error (R414, R415): stack 0, channel 6 of 0x30010. -/
theorem test_dead_channel : (match exec (.ld64 { pred := 0, cls := 0, dst := 5, base := .reg 3, off := 0, lng := none })
      { wReg dPage fun r => { r with x := [(3, 0x30010)] } with deadChannels := [6] } with
    | .next t => ((t.tokenAt 0x30010).map (·.dmg), t.here.pendErr.length, (come t.here).r.getX 5)
    | _ => (none, 0, 1)) = (some true, 1, 0) := by decide +kernel

end Sys2Proof.Tests
end

section
/-!
One operation on a strand that nothing delays: where it traps, where it waits, where it completes with an effect on the machine (R161, R184).
-/

namespace Sys2Proof.Machine.Organisation

/-! The proofs here are elaborated one after another: the bound on memory leaves no thread for them beside those that the tests above hold. -/
set_option deprecated.oldSectionVars true

/-! Writing twice. -/

theorem Store.put_put {V : Type} (m : Store V) (k : Nat) (v w : V) : Store.put (Store.put m k v) k w = Store.put m k w := by
  induction m with
  | nil => simp [Store.put]
  | cons e t ih =>
    obtain ⟨j, u⟩ := e
    by_cases hj : j = k
    · simp [Store.put, hj]
    · by_cases hk : k < j
      · simp [Store.put, hj, hk]
      · simp [Store.put, hj, hk, ih]

@[simp] theorem setStrand_setStrand (s : State) (b k : Nat) (t u : Strand) : (s.setStrand b k t).setStrand b k u = s.setStrand b k u := by
  simp [State.setStrand, Store.put_put]

@[simp] theorem setBraid_setBraid (s : State) (b : Nat) (t u : Braid) : (s.setBraid b t).setBraid b u = s.setBraid b u := by
  simp [State.setBraid, Store.put_put]

@[simp] theorem modStrand_modStrand (s : State) (b k : Nat) (f g : Strand → Strand) :
    (s.modStrand b k f).modStrand b k g = s.modStrand b k fun t => g (f t) := by
  unfold State.modStrand
  rw [setStrand_setStrand, State.strand_setStrand]

@[simp] theorem modBraid_modBraid (s : State) (b : Nat) (f g : Braid → Braid) :
    (s.modBraid b f).modBraid b g = s.modBraid b fun t => g (f t) := by
  unfold State.modBraid
  rw [setBraid_setBraid, State.braid_setBraid]

theorem modStrand_congr (s : State) (b k : Nat) {f g : Strand → Strand} (h : f (s.strand b k) = g (s.strand b k)) :
    s.modStrand b k f = s.modStrand b k g := by
  unfold State.modStrand
  rw [h]

theorem modStrand_modBraid (s : State) (b k c : Nat) (f : Strand → Strand) (g : Braid → Braid) :
    (s.modStrand b k f).modBraid c g = (s.modBraid c g).modStrand b k f := rfl

/-! The stages of R184 on a strand that nothing delays. -/

section Stages
variable {s : State} {words : Nat} {scope : Option Nat}

theorem guardWait_quiet (q : Quiet s) (ops : List SlotOp) : guardWait (Ctx.of s words scope) ops = false := by
  have h : ∀ a b, (Ctx.of s words scope).st.denseBusy a b = false := q.denseBusy
  simp [guardWait, h]

theorem denseWait_quiet (q : Quiet s) (ops : List SlotOp) : denseWait (Ctx.of s words scope) ops = false := by
  have h : ∀ a b, (Ctx.of s words scope).st.denseBusy a b = false := q.denseBusy
  simp [denseWait, h]

theorem stage1Busy_quiet (q : Quiet s) {ops : List SlotOp} (h : ∀ o ∈ ops, o.stage1 = false) : stage1Busy (Ctx.of s words scope) ops = false := by
  have hb : ∀ r, (Ctx.of s words scope).st.busyWith r = false := q.busyWith
  simpa [stage1Busy, hb] using h

theorem tooSoon_quiet (q : Quiet s) {o : SlotOp} (h : o.soon = false) : (Ctx.of s words scope).tooSoon o = false := by
  have hn : ∀ key, ¬ (Ctx.of s words scope).st.clk < Store.get (Ctx.of s words scope).st.nextIss key 0 := fun key => Nat.not_lt.mpr (q.intervals key)
  unfold Ctx.tooSoon
  cases o.cls <;> simp [h, hn]

end Stages

/-- A stall of a strand that nothing else delays: one cycle passes (R184). -/
theorem stall_quiet {s : State} (q : Quiet s) (b : Bool) (w : Option FifoWait) :
    stall (s.modStrand s.cur.1 s.cur.2 fun t => { t with fifoWait := w }) s.cur.1 s.cur.2 b =
      (s.modStrand s.cur.1 s.cur.2 fun t => { t with fifoWait := w }).modStrand s.cur.1 s.cur.2 fun t =>
        { t with clk := t.clk + 1, runCyc := t.runCyc + 1, landed := false, stalled := b } := by
  have hp : (s.strand s.cur.1 s.cur.2).pend = [] := q.landed
  have hr : (s.strand s.cur.1 s.cur.2).preempt = none := q.noRequest
  have key : ((s.modStrand s.cur.1 s.cur.2 fun t => { t with fifoWait := w }).modStrand s.cur.1 s.cur.2 fun t => { t.tick with stalled := b }) =
      (s.modStrand s.cur.1 s.cur.2 fun t => { t with fifoWait := w }).modStrand s.cur.1 s.cur.2 fun t =>
        { t with clk := t.clk + 1, runCyc := t.runCyc + 1, landed := false, stalled := b } := by
    apply modStrand_congr
    simp only [State.strand_modStrand, Strand.tick, hp, List.any_nil]
    rw [Strand.landUpTo_nil _ _ (by rfl)]
  unfold stall
  rw [key]
  simp [hr]

/-- The operation has nothing to wait for before its traps are looked for: no transfer of its own, no page walk. -/
def Unhindered (x : Ctx) (o : SlotOp) : Prop :=
  (∀ va ∈ o.walks, needsWalk x va = false) ∧ o.stage1 = false

/-- What issue does with one operation once nothing of stage 1 holds it back: its traps, its FIFO, its other waits, its effect (R184). -/
def Ctx.checked (x : Ctx) (o : SlotOp) (s : State) : State :=
  match bundleTrap [o] with
  | some u => takeTrap s x.b x.k u
  | none =>
    let live := [o].filter (·.runs)
    let s := live.foldl (fun s o => o.pre s) s
    match (fifoShort x live).orElse (fun _ => fifoBehind x live) with
    | some n => stall (s.modStrand x.b x.k (·.waitFifo n)) x.b x.k true
    | none =>
      if live.any (·.wait) then stall (s.modStrand x.b x.k fun t => { t with fifoWait := none }) x.b x.k true
      else if live.any x.tooSoon then stall s x.b x.k false
      else commit x [o] s

section One
variable {i : Instr} {op : Ctx → SlotOp} {s : State}

theorem issueOne_checked (q : Quiet s) (h : Unhindered (s.ctx i) (op (s.ctx i))) :
    issueOne i op s = .next (Ctx.checked (s.ctx i) (op (s.ctx i)) s) := by
  have hx : Ctx.of s (Bundle.single i).words none = s.ctx i := rfl
  have hst : (s.ctx i).st = s.here := rfl
  have hg : guardWait (s.ctx i) [op (s.ctx i)] = false := guardWait_quiet q _
  have hd : ∀ l, denseWait (s.ctx i) l = false := fun l => denseWait_quiet q l
  have known : ∀ o ∈ ([op (s.ctx i)].filter (·.runs)).filter (!·.undef), o = op (s.ctx i) := by
    intro o ho
    simpa using (List.mem_filter.mp (List.mem_filter.mp ho).1).1
  have h1 : stage1Busy (s.ctx i) (([op (s.ctx i)].filter (·.runs)).filter (!·.undef)) = false :=
    stage1Busy_quiet q fun o ho => by rw [known o ho]; exact h.2
  have hw : (((([op (s.ctx i)].filter (·.runs)).filter (!·.undef)).flatMap (·.walks)).find? (needsWalk (s.ctx i))) = none := by
    rw [List.find?_eq_none]
    intro va hva
    obtain ⟨o, ho, hm⟩ := List.mem_flatMap.mp hva
    rw [known o ho] at hm
    simp [h.1 va hm]
  have hops : ([op (s.ctx i)].filter fun o => !((s.ctx i).st.skip0 && o.slot == 0) && !((s.ctx i).st.skipRest && o.slot != 0)) = [op (s.ctx i)] := by
    simp [hst, q.whole.1, q.whole.2]
  unfold issueOne issue
  simp only [hx, List.map_cons, List.map_nil, hops]
  simp only [hg, h1, hd, hw, hst, q.overdue, q.runs, q.noHalt, q.noFreeze, q.noTimeout]
  rfl

/-- A bundle of one operation that has a cause traps, whether or not its predicate lets it run (R184). -/
theorem issueOne_traps (q : Quiet s) (h : Unhindered (s.ctx i) (op (s.ctx i))) {u : Trap} (hu : bundleTrap [op (s.ctx i)] = some u) :
    issueOne i op s = .next (takeTrap s s.cur.1 s.cur.2 u) := by
  rw [issueOne_checked q h]
  simp only [Ctx.checked, hu]
  rfl

/-- One operation alone that runs and has no cause: it names no destination twice. -/
theorem bundleTrap_one {o : SlotOp} (he : o.early = []) (ht : o.traps = []) : bundleTrap [o] = none := by
  cases hr : o.runs <;> simp [bundleTrap, he, ht, hr, sameDest, trapIf, firstTrap]

/-- An operation that stalls on its FIFO: it is empty for a pop, full for a push (R257, R284). -/
theorem issueOne_short (q : Quiet s) (h : Unhindered (s.ctx i) (op (s.ctx i))) (hr : (op (s.ctx i)).runs = true) (he : (op (s.ctx i)).early = [])
    (ht : (op (s.ctx i)).traps = []) (hpre : (op (s.ctx i)).pre = id) {n : Nat × Bool} (hf : fifoShort (s.ctx i) [op (s.ctx i)] = some n) :
    issueOne i op s = .next (stall (s.modStrand s.cur.1 s.cur.2 (·.waitFifo n)) s.cur.1 s.cur.2 true) := by
  rw [issueOne_checked q h]
  simp only [Ctx.checked, bundleTrap_one he ht, List.filter_cons, hr, List.filter_nil, ↓reduceIte, List.foldl_cons, List.foldl_nil, hpre, id_eq, hf]
  rfl

/-- An operation that waits on a condition of its own (stage 3 of R184). -/
theorem issueOne_waits (q : Quiet s) (h : Unhindered (s.ctx i) (op (s.ctx i))) (hr : (op (s.ctx i)).runs = true) (he : (op (s.ctx i)).early = [])
    (ht : (op (s.ctx i)).traps = []) (hpre : (op (s.ctx i)).pre = id) (hf : (op (s.ctx i)).fifo = none) (hw : (op (s.ctx i)).wait = true) :
    issueOne i op s = .next (stall (s.modStrand s.cur.1 s.cur.2 fun t => { t with fifoWait := none }) s.cur.1 s.cur.2 true) := by
  have hs : fifoShort (s.ctx i) [op (s.ctx i)] = none := by simp [fifoShort, hf]
  have hb : fifoBehind (s.ctx i) [op (s.ctx i)] = none := by simp [fifoBehind, hf]
  rw [issueOne_checked q h]
  simp only [Ctx.checked, bundleTrap_one he ht, List.filter_cons, hr, List.filter_nil, ↓reduceIte, List.foldl_cons, List.foldl_nil, hpre, id_eq, hs, hb,
    List.any_cons, hw, Bool.true_or]
  rfl

/-- An operation whose FIFO, if it names one, can be taken, and that waits on nothing else: it commits (R161). -/
theorem issueOne_commits (q : Quiet s) (h : Unhindered (s.ctx i) (op (s.ctx i))) (hr : (op (s.ctx i)).runs = true) (he : (op (s.ctx i)).early = [])
    (ht : (op (s.ctx i)).traps = []) (hpre : (op (s.ctx i)).pre = id) (hw : (op (s.ctx i)).wait = false) (hsoon : (op (s.ctx i)).soon = false)
    (hf : fifoShort (s.ctx i) [op (s.ctx i)] = none) (hb : fifoBehind (s.ctx i) [op (s.ctx i)] = none) :
    issueOne i op s = .next (commit (s.ctx i) [op (s.ctx i)] s) := by
  have hsn : (s.ctx i).tooSoon (op (s.ctx i)) = false := tooSoon_quiet q hsoon
  rw [issueOne_checked q h]
  simp only [Ctx.checked, bundleTrap_one he ht, List.filter_cons, hr, List.filter_nil, ↓reduceIte, List.foldl_cons, List.foldl_nil, hpre, id_eq, hf, hb,
    List.any_cons, List.any_nil, hw, hsn, Bool.or_self]
  rfl

/-! The end of a bundle that leaves nothing in flight. -/

/-- The back-edges see the loop stack and the call depth alone (R224). -/
theorem backEdges_same (q : Quiet s) {c : Ctl} (hl : c.loops = s.here.c.loops) (hd : c.callDepth = s.here.c.callDepth) (n nxt : Nat) (r : Regs) (l : Bool) :
    backEdges s.here.c.pc.toNat n c r nxt l = (c, r, nxt, l) := by
  cases n with
  | zero => rfl
  | succ n =>
    have h := q.inBody
    unfold backEdges
    rw [hl, hd]
    cases hls : s.here.c.loops with
    | nil => rfl
    | cons e rest =>
      simp only [hls, List.head?_cons, Option.mem_def, Option.some.injEq, forall_eq'] at h
      simp only [h, ↓reduceIte]

/-- A strand at the end of a bundle that falls through, its operation having changed registers and control state, and what is awaited, alone. -/
theorem endBundle_still (q : Quiet s) (o : SlotOp) {r : Regs} {c : Ctl} (b : List Sbd) (hl : c.loops = s.here.c.loops) (hd : c.callDepth = s.here.c.callDepth) :
    (s.ctx i).endBundle [o] .seq false { s.here with r := r, c := c, sbd := b } =
      { s.here.after (s.ctx i).cycles r { c with pc := BitVec.ofNat 64 (s.ctx i).next } ((s.ctx i).issOf o.slot o.cls) with sbd := b } := by
  have hback : backEdges (s.ctx i).pc 7 c r (s.ctx i).next false = (c, r, (s.ctx i).next, false) := backEdges_same q hl hd _ _ _ _
  have hiss : (s.ctx i).issAfter o { s.here with r := r, c := c, sbd := b } = (s.ctx i).issOf o.slot o.cls := by
    unfold Ctx.issAfter Ctx.issOf
    cases o.cls <;> rfl
  rw [Ctx.endBundle_one _ _ _ _ (by exact q.noRequest)]
  simp only [Strand.go, hback, Bool.or_self, Bool.false_eq_true, ↓reduceIte, hiss]
  refine (Strand.ticks_nil _ _ (by exact q.landed)).trans ?_
  simp only [Strand.after, q.whole.1, q.whole.2, q.landed, Ctx.cycles_pos, Bool.and_false]

/-- An operation that ends its bundle in order, no step of a debugger being asked for. -/
def Straight (o : SlotOp) : Prop :=
  o.runs = true ∧ o.post = id ∧ o.safe = none ∧ o.flow = .seq

/-- THE EFFECT OF ONE OPERATION: it changes the machine to u, its strand in registers, control state and what is awaited alone, and its bundle is over. -/
theorem commit_effect (q : Quiet s) {o : SlotOp} (ho : Straight o) {u : State} (hu : o.eff s = u) {r : Regs} {c : Ctl} {b : List Sbd}
    (hh : u.strand s.cur.1 s.cur.2 = { s.here with r := r, c := c, sbd := b }) (hl : c.loops = s.here.c.loops) (hd : c.callDepth = s.here.c.callDepth) :
    commit (s.ctx i) [o] s = u.modStrand s.cur.1 s.cur.2 fun t =>
      { t.after (s.ctx i).cycles r { c with pc := BitVec.ofNat 64 (s.ctx i).next } ((s.ctx i).issOf o.slot o.cls) with sbd := b } := by
  obtain ⟨runs, post, safe, flow⟩ := ho
  have hstep : (o.eff s |>.strand (s.ctx i).b (s.ctx i).k).stepOnce = false := by
    have : (o.eff s).strand (s.ctx i).b (s.ctx i).k = { s.here with r := r, c := c, sbd := b } := by rw [hu]; exact hh
    rw [this]; exact q.noStep
  rw [commit_one _ _ _ runs safe post (by rw [Ctx.endBundle_stepOnce]; exact hstep), flow, hu]
  refine modStrand_congr _ _ _ ?_
  show (s.ctx i).endBundle [o] .seq false (u.strand s.cur.1 s.cur.2) =
    { (u.strand s.cur.1 s.cur.2).after (s.ctx i).cycles r { c with pc := BitVec.ofNat 64 (s.ctx i).next } ((s.ctx i).issOf o.slot o.cls) with sbd := b }
  rw [hh, endBundle_still q o b hl hd]
  rfl

/-- An operation that changes the machine to u, but for what its strand's place in the file is overwritten with, and leaves its strand as it was. -/
theorem commit_effects (q : Quiet s) {o : SlotOp} (ho : Straight o) {u : State}
    (hu : ∀ g, (o.eff s).modStrand s.cur.1 s.cur.2 g = u.modStrand s.cur.1 s.cur.2 g) (hh : u.strand s.cur.1 s.cur.2 = s.here) :
    commit (s.ctx i) [o] s = u.modStrand s.cur.1 s.cur.2 fun t =>
      t.after (s.ctx i).cycles (u.strand s.cur.1 s.cur.2).r { (u.strand s.cur.1 s.cur.2).c with pc := BitVec.ofNat 64 (s.ctx i).next }
        ((s.ctx i).issOf o.slot o.cls) := by
  have he : (o.eff s).strand s.cur.1 s.cur.2 = s.here := by
    have := congrArg (fun z => State.strand z s.cur.1 s.cur.2) (hu id)
    simpa [hh] using this
  rw [commit_effect q ho rfl (r := s.here.r) (c := s.here.c) (b := s.here.sbd) he rfl rfl, hu, hh]
  exact modStrand_congr _ _ _ (by rw [hh]; rfl)

end One

end Sys2Proof.Machine.Organisation
end

section
/-!
Settles O7: SSR (R245), the registers of the strand and those beyond it (R24, R26, R69, R384, R405, R416 to R418).
-/

namespace Sys2Proof.Machine.Organisation

/-! The proofs here are elaborated one after another: the bound on memory leaves no thread for them beside those that the tests above hold. -/
set_option deprecated.oldSectionVars true

/-! Fields of a word. -/

theorem toNat_extract (v : Word) (lo n : Nat) : bits v lo n = (v.extractLsb' lo n).toNat := by
  simp [bits, Nat.shiftRight_eq_div_pow]

theorem ofNat_bits (v : Word) (lo n : Nat) : BitVec.ofNat n (bits v lo n) = v.extractLsb' lo n := by
  rw [toNat_extract, BitVec.ofNat_toNat, BitVec.setWidth_eq]

/-- A field left in its place is the word under the field's mask. -/
theorem bits_mul_eq_and (v : Word) (lo n : Nat) : BitVec.ofNat 64 (bits v lo n * 2 ^ lo) = v &&& BitVec.ofNat 64 ((2 ^ n - 1) * 2 ^ lo) := by
  apply BitVec.eq_of_getLsbD_eq
  intro i hi
  unfold bits
  rw [BitVec.getLsbD_and, BitVec.getLsbD_ofNat, BitVec.getLsbD_ofNat, Nat.testBit_mul_two_pow, Nat.testBit_mul_two_pow, Nat.testBit_mod_two_pow,
    Nat.testBit_div_two_pow, Nat.testBit_two_pow_sub_one]
  by_cases h : lo ≤ i
  · simp [hi, h, BitVec.getLsbD, Bool.and_comm]
  · simp [h]

/-! Requests of BANK_MODE (R69). -/

section BankMode
variable {s : State} {b n req : Nat}

theorem bankOutcome_same (hn : n < 24) (hr : req ≠ 3) (hm : (s.braid b).bankModeOf n = req) (hw : (s.braid b).switching n = false)
    (hv : s.bankReserved b n = false) : bankOutcome s b n req = 4 := by
  have hn' : ¬ 23 < n := by omega
  by_cases h0 : req = 0 <;> simp [bankOutcome, hn', hr, hm, hw, hv, h0]

theorem bankOutcome_cache (hn : n < 24) (hr : req = 1 ∨ req = 2) (hm : (s.braid b).bankModeOf n = 0) (hc : 2 < (s.braid b).cacheBanks)
    (hw : (s.braid b).switching n = false) (hv : s.bankReserved b n = false) : bankOutcome s b n req = 1 := by
  have hn' : ¬ 23 < n := by omega
  have hc' : ¬ (s.braid b).cacheBanks ≤ 2 := by omega
  rcases hr with rfl | rfl <;> simp [bankOutcome, hn', hm, hw, hv, hc']

end BankMode

/-- A request as BANK_MODE holds it, with its RESULT (R68). -/
def bankAnswer (v : Word) (res : Nat) : Word := BitVec.ofNat 64 (v.toNat / 2 ^ 53 * 2 ^ 53 + res * 2 ^ 50)

section WriteBank
variable {s : State} {b who : Nat} {v : Word}

theorem writeBank_same (hl : (s.braid b).logicOn = true) (ho : bankOutcome s b (bits v 59 5) (bits v 57 2) = 4) :
    writeBank s b who v = s.modBraid b fun t => { t with bmReq := Store.put t.bmReq who (bankAnswer v 0) } := by
  simp only [writeBank, hl, ho]
  rfl

theorem writeBank_pending (hl : (s.braid b).logicOn = true) (ho : bankOutcome s b (bits v 59 5) (bits v 57 2) = 1) :
    writeBank s b who v = s.modBraid b fun t =>
      { t with bmReq := Store.put t.bmReq who (bankAnswer v 1)
               bankSw := t.bankSw ++ [{ bank := bits v 59 5, mode := bits v 57 2, evt := if who < 4 then some (who, bits v 53 4) else none }] } := by
  simp only [writeBank, hl, ho, modBraid_modBraid]
  rfl

end WriteBank

/-! A strand written back as it is: nothing reads otherwise. -/

theorem strand_modStrand_id (s : State) (b k c j : Nat) : (s.modStrand b k id).strand c j = s.strand c j := by
  by_cases h : 4 * c + j = 4 * b + k
  · simp only [State.strand, State.modStrand, State.setStrand, h, Store.get_put_self, id_eq]
  · simp only [State.strand, State.modStrand, State.setStrand, Store.get_put_ne _ h]

theorem bankReserved_modStrand_id (s : State) (b k c n : Nat) : (s.modStrand b k id).bankReserved c n = s.bankReserved c n := by
  simp only [State.bankReserved, strand_modStrand_id]

theorem fifoBusy_modStrand_id (s : State) (b k c n : Nat) : (s.modStrand b k id).fifoBusy c n = s.fifoBusy c n := by
  simp only [State.fifoBusy, strand_modStrand_id]

theorem bankOutcome_modStrand_id (s : State) (b k c n req : Nat) : bankOutcome (s.modStrand b k id) c n req = bankOutcome s c n req := by
  unfold bankOutcome
  rw [bankReserved_modStrand_id, fifoBusy_modStrand_id]
  rfl

/-! Requests of PAIR_SYNC (R24). -/

theorem writePair_same {s : State} {b : Nat} {v : Word} (w : Option (Nat × Nat)) (h : v.getLsbD 0 = (s.braid b).sync) :
    writePair s b v w = s.modBraid b fun t => { t with syncRefused := false } := by
  simp only [writePair, h, ↓reduceIte]

/-- A pair one of whose vertical FIFOs holds an entry does not switch (R24). -/
theorem writePair_full {s : State} {b : Nat} {v : Word} (w : Option (Nat × Nat)) (h : v.getLsbD 0 ≠ (s.braid b).sync)
    (hf : ∃ i < 4, Store.get (s.braid b).vf i [] ≠ []) : writePair s b v w = s.modBraid b fun t => { t with syncRefused := true } := by
  obtain ⟨i, hi, hne⟩ := hf
  have full : ([b, partner b].any fun c => (List.range 4).any fun f => !(Store.get (s.braid c).vf f ([] : List (Nat × Row × Nat))).isEmpty) = true :=
    List.any_eq_true.mpr ⟨b, by simp, List.any_eq_true.mpr ⟨i, List.mem_range.mpr hi, by simpa [List.isEmpty_iff] using hne⟩⟩
  simp only [writePair, h, full, ↓reduceIte, Bool.true_or]

/-! SSR (R245). -/

/-- The numbers of the registers that the strand holds, or that ignore a write. -/
def ownNumber (n : Nat) : Bool := n ≤ 0x0A || n == 0x20 || n == 0x24 || 0x2A ≤ n

theorem writeSys_own (x : Ctx) {n : Nat} (h : ownNumber n = true) (v : Word) (s : State) : x.writeSys n v s = x.mod (fun t => t.writeOwn n v) s := by
  have hn : n ≠ 0x25 := by rintro rfl; simp [ownNumber] at h
  unfold Ctx.writeSys
  rw [if_neg hn]
  unfold writeBraidReg
  split
  case h_8 => rfl
  all_goals exact absurd h Bool.false_ne_true

theorem writeOwn_frame (t : Strand) (n : Nat) (v : Word) :
    t.writeOwn n v = { t with r := (t.writeOwn n v).r, c := (t.writeOwn n v).c } ∧ (t.writeOwn n v).c.loops = t.c.loops ∧
      (t.writeOwn n v).c.callDepth = t.c.callDepth := by
  unfold Strand.writeOwn
  repeat' split
  all_goals exact ⟨rfl, rfl, rfl⟩

theorem linkField_eq (v : Word) : linkField v = v &&& 0xFFFFFFFFFFF8 := bits_mul_eq_and v 3 45

/-- TRAP_CTL: bits 2 to 0 as written, above them INHANDLER as it stands (R231). -/
theorem trapCtl_keeps (c : BitVec 4) (v : Word) : BitVec.ofNat 4 (c.toNat / 8 * 8 + bits v 0 3) = c.extractLsb' 3 1 ++ v.setWidth 3 := by
  have hv : v.toNat % 2 ^ 3 < 2 ^ 3 := Nat.mod_lt _ (Nat.two_pow_pos 3)
  apply BitVec.eq_of_toNat_eq
  rw [BitVec.toNat_append, BitVec.toNat_setWidth, ← Nat.shiftLeft_add_eq_or_of_lt hv]
  simp [bits, Nat.shiftRight_eq_div_pow, Nat.shiftLeft_eq]
  omega

theorem bits_low3 (v : Word) : bits v 0 3 = (v &&& 7).toNat := by
  rw [BitVec.toNat_and, bits, pow_zero, Nat.div_one]
  exact (Nat.and_two_pow_sub_one_eq_mod v.toNat 3).symm

/-- What a write of a register of the strand leaves is what the statement lists for its number. -/
theorem writeOwn_ssrOwn (t : Strand) (p v : Word) : ∀ e ∈ Claims.ssrOwn t.r { t.c with pc := p } v,
    (t.writeOwn e.1 v).r = e.2.1 ∧ { (t.writeOwn e.1 v).c with pc := p } = e.2.2 := by
  unfold Claims.ssrOwn
  refine List.forall_mem_cons.mpr ⟨?frm, List.forall_mem_cons.mpr ⟨⟨rfl, rfl⟩, List.forall_mem_cons.mpr ⟨?base, List.forall_mem_cons.mpr ⟨?limit, ?_⟩⟩⟩⟩
  case frm =>
    simp only [Strand.writeOwn, bits_low3]
    split <;> exact ⟨rfl, rfl⟩
  case base =>
    simp only [Strand.writeOwn, linkField_eq]
    split <;> exact ⟨rfl, rfl⟩
  case limit =>
    simp only [Strand.writeOwn, linkField_eq]
    split <;> exact ⟨rfl, rfl⟩
  intro e he
  simp only [List.mem_cons, List.not_mem_nil, or_false] at he
  rcases he with rfl | rfl | rfl | rfl | rfl | rfl | rfl | rfl | rfl | rfl | rfl | rfl | rfl <;> simp only [Strand.writeOwn, trapCtl_keeps, and_self]

theorem ssrOwn_number (r : Regs) (c : Ctl) (v : Word) : ∀ e ∈ Claims.ssrOwn r c v, ownNumber e.1 = true ∧ sysAssigned e.1 = true := by
  simp [Claims.ssrOwn, ownNumber, sysAssigned]

section Ssr
variable {f : FmtBS} {s : State}

theorem latchTraps_nil {x : Ctx} {slot : Nat} {os : List Operand} (h : ∀ o ∈ os, x.badLatch o = false) : x.latchTraps slot os = [] := by
  have : os.any x.badLatch = false := by simpa using h
  simp [Ctx.latchTraps, this, trapIf]

theorem sysEarly_nil {x : Ctx} {n : Nat} (ha : sysAssigned n = true) (hs : sysSupv n = true → x.supv = true) : x.sysEarly n = [] := by
  by_cases h : sysSupv n = true
  · simp [Ctx.sysEarly, ha, h, Ctx.privTrap, hs h, trapIf]
  · simp [Ctx.sysEarly, ha, h]

theorem ssr_unhindered (x : Ctx) : Unhindered x (ssrOp f x) := ⟨by simp [ssrOp], rfl⟩

theorem ssr_free (rd : (s.ctx (.ssr f)).ready f.pred [f.b]) (ha : sysAssigned f.num.toNat = true)
    (hs : sysSupv f.num.toNat = true → (s.ctx (.ssr f)).supv = true) : (ssrOp f (s.ctx (.ssr f))).Free (s.ctx (.ssr f)) where
  runs := rd.1
  early := sysEarly_nil ha hs
  traps := latchTraps_nil rd.2
  walks := by simp [ssrOp]
  stage1 := rfl
  wait := rfl
  soon := rfl
  fifo := rfl

/-- SSR of a register of the strand completes on the strand alone (R245). -/
theorem ssr_own (q : Quiet s) (rd : (s.ctx (.ssr f)).ready f.pred [f.b]) (hs : sysSupv f.num.toNat = true → (s.ctx (.ssr f)).supv = true)
    {e : Nat × Regs × Ctl} (he : e ∈ Claims.ssrOwn s.here.r (s.ctx (.ssr f)).stepped ((s.ctx (.ssr f)).opnd f.b)) (hn : e.1 = f.num.toNat) :
    Completes (.ssr f) s 0 2 0 e.2.1 e.2.2 := by
  obtain ⟨hown, hass⟩ := ssrOwn_number _ _ _ e he
  obtain ⟨hr, hc⟩ := writeOwn_ssrOwn s.here (BitVec.ofNat 64 (s.ctx (.ssr f)).next) ((s.ctx (.ssr f)).opnd f.b) e he
  obtain ⟨hw, hl, hd⟩ := writeOwn_frame s.here e.1 ((s.ctx (.ssr f)).opnd f.b)
  rw [hn] at hown hass hr hc hw hl hd
  have hp : s.here.pend = pendsAt (s.here.clk + 0) s.here.clk [] := q.landed
  obtain ⟨t, ht, ho, hu⟩ := issueOne_own (.ssr f) (ssrOp f) s q 0 [] (fun t => t.writeOwn f.num.toNat ((s.ctx (.ssr f)).opnd f.b)) _ _
    (by simp) (ssr_free rd hass hs) rfl rfl rfl rfl (writeSys_own _ hown _ s) (by rw [hw, ← hp]) (backEdges_same q hl hd _ _ _ _)
  refine ⟨t, ht, ho, hu.trans ?_⟩
  rw [List.foldl_nil, List.foldl_nil, hr, hc]
  rfl

/-- Of several causes the first by R184 is taken: an undefined register number comes before anything else SSR may meet. -/
theorem ssr_unassigned (q : Quiet s) (ha : sysAssigned f.num.toNat = false) : Traps (.ssr f) s { cause := 0x02, step := 2, slot := 2 } := by
  refine issueOne_traps (i := .ssr f) q (ssr_unhindered _) ?_
  have he : (ssrOp f (s.ctx (.ssr f))).early = [{ cause := 0x02, step := 2, slot := 2 }] := by simp [ssrOp, Ctx.sysEarly, ha]
  have ht : (ssrOp f (s.ctx (.ssr f))).traps = trapIf ([f.b].any (s.ctx (.ssr f)).badLatch) { cause := 0x01, step := 3, slot := 2 } := rfl
  cases hr : (ssrOp f (s.ctx (.ssr f))).runs <;> cases hb : [f.b].any (s.ctx (.ssr f)).badLatch <;>
    simp [bundleTrap, sameDest, trapIf, firstTrap, Trap.key, he, ht, hr, hb]

theorem ssr_privileged (q : Quiet s) (hb : (s.ctx (.ssr f)).badLatch f.b = false) (ha : sysAssigned f.num.toNat = true) (hv : sysSupv f.num.toNat = true)
    (hs : (s.ctx (.ssr f)).supv = false) : Traps (.ssr f) s { cause := 0x03, step := 4, slot := 2 } := by
  refine issueOne_traps (i := .ssr f) q (ssr_unhindered _) ?_
  have he : (ssrOp f (s.ctx (.ssr f))).early = [{ cause := 0x03, step := 4, slot := 2 }] := by simp [ssrOp, Ctx.sysEarly, ha, hv, Ctx.privTrap, hs, trapIf]
  have ht : (ssrOp f (s.ctx (.ssr f))).traps = [] := latchTraps_nil (by simpa using hb)
  cases hr : (ssrOp f (s.ctx (.ssr f))).runs <;> simp [bundleTrap, sameDest, trapIf, firstTrap, he, ht, hr]

theorem ssrWritesOwnOrTraps : Claims.SsrWritesOwnOrTraps :=
  ⟨fun _ _ q rd hs _ he hn => ssr_own q rd hs he hn, fun _ _ q ha => ssr_unassigned q ha, fun _ _ q hb ha hv hs => ssr_privileged q hb ha hv hs⟩

/-- SSR of a register beyond the strand: the machine it leaves, its strand as it was (R245). -/
theorem ssr_shared (q : Quiet s) (rd : (s.ctx (.ssr f)).ready f.pred [f.b]) (hs : (s.ctx (.ssr f)).supv = true) (ha : sysAssigned f.num.toNat = true) {u : State}
    (hu : ∀ g, ((s.ctx (.ssr f)).writeSys f.num.toNat ((s.ctx (.ssr f)).opnd f.b) s).modStrand s.cur.1 s.cur.2 g = u.modStrand s.cur.1 s.cur.2 g)
    (hh : u.strand s.cur.1 s.cur.2 = s.here) : Effects (.ssr f) s 2 (some 0) u := by
  have hf := ssr_free rd ha fun _ => hs
  refine (issueOne_quiet (.ssr f) (ssrOp f) s q hf).trans ?_
  exact congrArg _ (commit_effects (o := ssrOp f (s.ctx (.ssr f))) q ⟨hf.runs, rfl, rfl, rfl⟩ hu hh)

/-- The same of a write that writes the strand's own place back as it was. -/
theorem ssr_effects (q : Quiet s) (rd : (s.ctx (.ssr f)).ready f.pred [f.b]) (hs : (s.ctx (.ssr f)).supv = true) {n : BitVec 8} (hn : f.num = n)
    (ha : sysAssigned n.toNat = true) {u : State}
    (hw : (s.ctx (.ssr f)).writeSys n.toNat ((s.ctx (.ssr f)).opnd f.b) s = u.modStrand s.cur.1 s.cur.2 id) (hh : u.strand s.cur.1 s.cur.2 = s.here) :
    Effects (.ssr f) s 2 (some 0) u := by
  subst hn
  exact ssr_shared q rd hs ha (fun g => by rw [hw, modStrand_modStrand]; rfl) hh

end Ssr

/-! What the registers beyond the strand hold after a write, the strand's place in the file written back as it was. -/

theorem writeScrub_starts {s : State} {p : Nat} {v : Word} (h0 : v.getLsbD 0 = true) (ha : s.assigned (bits v 56 8) p = true)
    (hp : (s.world (bits v 56 8)).phase ∉ [1, 2]) :
    writeScrub s p v (v.getLsbD 0) = (s.modPart p fun t => { t with scrubSel := bits v 56 8 }).modWorld (bits v 56 8) (·.beginTeardown true) := by
  have hw : ((s.modPart p fun t => { t with scrubSel := bits v 56 8 }).world (bits v 56 8)).tearing = false := by
    simpa [World.tearing] using hp
  have ha' : (s.modPart p fun t => { t with scrubSel := bits v 56 8 }).assigned (bits v 56 8) p = true := ha
  simp only [writeScrub, h0, ha', hw]
  rfl

section Shared
variable (x : Ctx) (v : Word) (s : State)

theorem writeSys_pwrGate (h : v.getLsbD 0 = false) : x.writeSys 0x21 v s = (s.modBraid x.b fun t =>
    { t with pwrTarget := some (bits v 32 7), pwrReq := BitVec.ofNat 8 (bits v 4 8) }).modStrand x.b x.k id := by
  show writePwr (s.modStrand x.b x.k id) x.b v (v.getLsbD 0) = _
  rw [h]
  rfl

theorem writeSys_shadowCnt (h : v.getLsbD 0 = true) : x.writeSys 0x26 v s = (s.modBraid x.b fun t => { t with shTotal := 0 }).modStrand x.b x.k id := if_pos h

theorem writeSys_errCell (h : v.getLsbD 0 = true) : x.writeSys 0x27 v s = { s with errCell := 0 }.modStrand x.b x.k id := if_pos h

theorem writeSys_errXfer (h : v.getLsbD 0 = true) : x.writeSys 0x28 v s = { s with errXfer := 0 }.modStrand x.b x.k id := if_pos h

theorem writeSys_laneMap : x.writeSys 0x29 v s = (s.modBraid x.b fun t => { t with laneSel := v.extractLsb' 56 8 }).modStrand x.b x.k id := by
  rw [← ofNat_bits]
  rfl

end Shared

theorem ssrWritesSharedRegisters : Claims.SsrWritesSharedRegisters := by
  intro f s q rd hs b k v br bank req hl ask
  refine ⟨?pwrGate, ?bankSame, ?bankPending, ?pairSame, ?pairFull, ?scrub, ?shadow, ?cell, ?xfer, ?lane⟩
  case pwrGate => exact fun hn h0 => ssr_effects q rd hs hn rfl (writeSys_pwrGate _ _ s h0) rfl
  case bankSame =>
    intro hn hb h3 hm hw hv
    have ho : bankOutcome (s.modStrand b k id) b bank req = 4 := by rw [bankOutcome_modStrand_id]; exact bankOutcome_same hb h3 hm hw hv
    exact ssr_effects q rd hs hn rfl (writeBank_same hl ho) rfl
  case bankPending =>
    intro hn hb hr hm hc hw hv
    have ho : bankOutcome (s.modStrand b k id) b bank req = 1 := by rw [bankOutcome_modStrand_id]; exact bankOutcome_cache hb hr hm hc hw hv
    have hwr := writeBank_pending (s := s.modStrand b k id) (who := k) (v := v) hl ho
    rw [if_pos (show k < 4 from q.strand)] at hwr
    exact ssr_effects q rd hs hn rfl hwr rfl
  case pairSame => exact fun hn h0 => ssr_effects q rd hs hn rfl (writePair_same _ h0) rfl
  case pairFull => exact fun hn h0 hf => ssr_effects q rd hs hn rfl (writePair_full _ h0 hf) rfl
  case scrub =>
    intro hn h0 ha hp
    refine ssr_shared q rd hs (by rw [hn]; rfl) (fun g => ?_) rfl
    rw [hn]
    exact congrArg (fun u => State.modStrand u b k g) (writeScrub_starts h0 ha hp)
  case shadow => exact fun hn h0 => ssr_effects q rd hs hn rfl (writeSys_shadowCnt _ _ s h0) rfl
  case cell => exact fun hn h0 => ssr_effects q rd hs hn rfl (writeSys_errCell _ _ s h0) rfl
  case xfer => exact fun hn h0 => ssr_effects q rd hs hn rfl (writeSys_errXfer _ _ s h0) rfl
  case lane => exact fun hn => ssr_effects q rd hs hn rfl (writeSys_laneMap _ _ s) rfl

/-- Settles O7: SSR writes the strand's own registers or traps, and beyond them the registers of the braid, the partition and the device. -/
theorem systemWritesComplete : Obligations.SystemWritesComplete := ⟨ssrWritesOwnOrTraps, ssrWritesSharedRegisters⟩

end Sys2Proof.Machine.Organisation
end

section
/-!
Settles O42: vertical FIFOs (R23, R257, R284) and event counters (R62, R285).
-/

namespace Sys2Proof.Machine.Organisation

theorem badParam_nil {c : Bool} (h : c = false) : badParam c = [] := by rw [h]; rfl
theorem featTrap_nil {x : Ctx} {slot bit : Nat} (h : x.masked bit = false) : x.featTrap slot bit = [] := by simp [Ctx.featTrap, h, trapIf]

/-! One operation and its FIFO (R257, R284). -/

theorem fifoShort_one {x : Ctx} {o : SlotOp} {n : Nat} (h : o.fifo = some n) :
    fifoShort x [o] = if (if o.pop then (x.fifoLen n).1 == 0 else decide ((x.fifoLen n).2 ≤ (x.fifoLen n).1)) then some (n, o.pop) else none := by
  simp [fifoShort, h]

theorem fifoBehind_push {x : Ctx} {o : SlotOp} (h : o.pop = false) : fifoBehind x [o] = none := by simp [fifoBehind, h]

/-- A pop is behind no other strand of the braid where none stalls on a FIFO. -/
theorem fifoBehind_alone {x : Ctx} (o : SlotOp) (h : ∀ k < 4, (x.s.strand x.b k).fifoWait = none) : fifoBehind x [o] = none := by
  simp only [fifoBehind, Option.map_eq_none_iff, List.find?_eq_none]
  intro n _
  simp only [Bool.not_eq_true, List.any_eq_false]
  intro k hk
  simp [h k (List.mem_range.mp hk)]

/-! Stalls (R63, R184). -/

section Stalls
variable {i : Instr} {op : Ctx → SlotOp} {s : State}

/-- A strand that waits on no FIFO begins to. -/
theorem waitFifo_new (q : Quiet s) (n : Nat × Bool) : s.modStrand s.cur.1 s.cur.2 (·.waitFifo n) =
    s.modStrand s.cur.1 s.cur.2 fun t => { t with fifoWait := some ⟨n.1, n.2, s.here.clk⟩ } := by
  refine modStrand_congr _ _ _ ?_
  have : (s.strand s.cur.1 s.cur.2).fifoWait = none := q.noFifo
  simp only [Strand.waitFifo, this]
  rfl

theorem stalls_fifo (q : Quiet s) (n : Nat × Bool) :
    stall (s.modStrand s.cur.1 s.cur.2 (·.waitFifo n)) s.cur.1 s.cur.2 true =
      (s.modStrand s.cur.1 s.cur.2 (·.waitFifo n)).modStrand s.cur.1 s.cur.2 fun t =>
        { t with clk := t.clk + 1, runCyc := t.runCyc + 1, landed := false, stalled := true } := by
  rw [waitFifo_new q]
  exact stall_quiet q true _

/-- A strand that waits on no FIFO and stalls on a condition: one cycle passes and nothing else happens. -/
theorem stalls_condition (q : Quiet s) :
    stall (s.modStrand s.cur.1 s.cur.2 fun t => { t with fifoWait := none }) s.cur.1 s.cur.2 true =
      s.modStrand s.cur.1 s.cur.2 fun t => { t with clk := t.clk + 1, runCyc := t.runCyc + 1, landed := false, stalled := true } := by
  have : (s.strand s.cur.1 s.cur.2).fifoWait = none := q.noFifo
  rw [stall_quiet q true none, modStrand_modStrand]
  refine modStrand_congr _ _ _ ?_
  rw [← this]

end Stalls

/-! VFPUSH. -/

section Push
variable {f : FmtE} {s : State}

theorem vfpush_traps (hm : (s.ctx (.vfpush f)).masked 2 = false) (hk : f.kb = 0) (he : f.evt = 0) (hp : (s.braid (partner s.cur.1)).status = 0) :
    (vfpushOp f (s.ctx (.vfpush f))).early = [] ∧ (vfpushOp f (s.ctx (.vfpush f))).traps = [] := by
  refine ⟨featTrap_nil hm, ?_⟩
  have hp' : ((s.ctx (.vfpush f)).s.braid (partner (s.ctx (.vfpush f)).b)).status = 0 := hp
  simp [vfpushOp, badParam_nil, hk, he, vfTrap, hp', trapIf]

theorem fifoLen_outbound (x : Ctx) (v : Nat) (hv : v < 4) : x.fifoLen (64 + v) = ((x.br.vfOf v).length, 16) := by
  have h1 : ¬ 64 + v < 64 := by omega
  have h2 : 64 + v < 96 := by omega
  simp [Ctx.fifoLen, h2, Braid.vfOf]

theorem bits_low2 (v : BitVec 11) : bits v 0 2 = v.toNat % 4 := by simp [bits]

theorem vfpush_unhindered (x : Ctx) : Unhindered x (vfpushOp f x) := ⟨by simp [vfpushOp], rfl⟩

theorem vfpush_effects (q : Quiet s) (on : Claims.On s f.pred) (hm : (s.ctx (.vfpush f)).masked 2 = false) (hk : f.kb = 0) (he : f.evt = 0)
    (hp : (s.braid (partner s.cur.1)).status = 0) (hl : (Store.get (s.braid s.cur.1).vf (f.flags.toNat % 4) []).length < 16) :
    let v := f.flags.toNat % 4
    let row := s.here.r.tileRow f.vtile.toNat ((s.ctx (.vfpush f)).rowIndex f.vrow)
    Effects (.vfpush f) s 6 none (s.modBraid s.cur.1 fun t =>
      { t with vf := Store.put t.vf v (Store.get (s.braid s.cur.1).vf v [] ++ [((s.ctx (.vfpush f)).world, row, s.here.clk)]) }) := by
  intro v row
  obtain ⟨hearly, htraps⟩ := vfpush_traps hm hk he hp
  have hroom : fifoShort (s.ctx (.vfpush f)) [vfpushOp f (s.ctx (.vfpush f))] = none := by
    rw [fifoShort_one (n := 64 + bits f.flags 0 2) rfl, bits_low2, fifoLen_outbound _ _ (Nat.mod_lt _ (Nat.succ_pos 3))]
    exact if_neg fun h => absurd (of_decide_eq_true h) (Nat.not_le.mpr hl)
  refine (issueOne_commits (i := .vfpush f) (op := vfpushOp f) q (vfpush_unhindered _) on hearly htraps rfl rfl rfl hroom (fifoBehind_push rfl)).trans ?_
  refine congrArg _ (commit_effects (o := vfpushOp f (s.ctx (.vfpush f))) q ⟨on, rfl, rfl, rfl⟩ (fun g => ?_) rfl)
  simp only [v, ← bits_low2]
  rfl

theorem vfpush_stalls (q : Quiet s) (on : Claims.On s f.pred) (hm : (s.ctx (.vfpush f)).masked 2 = false) (hk : f.kb = 0) (he : f.evt = 0)
    (hp : (s.braid (partner s.cur.1)).status = 0) (hl : 16 ≤ (Store.get (s.braid s.cur.1).vf (f.flags.toNat % 4) []).length) :
    Stalls (.vfpush f) s (s.modStrand s.cur.1 s.cur.2 (·.waitFifo (64 + f.flags.toNat % 4, false))) := by
  obtain ⟨hearly, htraps⟩ := vfpush_traps hm hk he hp
  have hfull : fifoShort (s.ctx (.vfpush f)) [vfpushOp f (s.ctx (.vfpush f))] = some (64 + f.flags.toNat % 4, false) := by
    rw [fifoShort_one (n := 64 + bits f.flags 0 2) rfl, bits_low2, fifoLen_outbound _ _ (Nat.mod_lt _ (Nat.succ_pos 3))]
    exact if_pos (decide_eq_true hl)
  exact (issueOne_short (i := .vfpush f) (op := vfpushOp f) q (vfpush_unhindered _) on hearly htraps rfl hfull).trans (congrArg _ (stalls_fifo q _))

end Push

/-! VFPOP. -/

section Pop
variable {f : FmtE} {s : State}

theorem vfpop_unhindered (x : Ctx) : Unhindered x (vfpopOp f x) := ⟨by simp [vfpopOp], rfl⟩

/-- The causes of a VFPOP that is well formed and not masked: its partner removed, or an entry of another world at the head. -/
theorem vfpop_traps {x : Ctx} (hm : x.masked 2 = false) (hk : f.kb = 0) (he : f.evt = 0) {q : List (Nat × Row × Nat)}
    (hq : Store.get (x.s.braid (partner x.b)).vf (f.flags.toNat % 4) [] = q) (hp : q = [] → (x.s.braid (partner x.b)).status ≠ 2) :
    (vfpopOp f x).early = [] ∧
      (vfpopOp f x).traps = (q.head?.map fun e => trapIf (e.1 != x.world) { cause := 0x0A, step := 7, sub := 2, slot := 6 }).getD [] := by
  refine ⟨featTrap_nil hm, ?_⟩
  have hi : x.inbound (bits f.flags 0 2) = q := by rw [bits_low2]; exact hq
  simp only [vfpopOp, hk, he, hi]
  cases q with
  | nil => simp [badParam_nil, vfTrap, trapIf, hp rfl]
  | cons e rest => simp [badParam_nil, vfTrap, trapIf]

/-- The entries that VFPOP may take: in synchronised mode those whose third cycle after the push has come (R23). -/
theorem fifoLen_inbound_nil {x : Ctx} {v : Nat} (h : Store.get (x.s.braid (partner x.b)).vf v [] = []) : (x.fifoLen (96 + v)).1 = 0 := by
  have h1 : ¬ 96 + v < 64 := by omega
  have h2 : ¬ 96 + v < 96 := by omega
  simp [Ctx.fifoLen, h1, h2, h]

theorem fifoLen_inbound_pos {x : Ctx} {v : Nat} {e : Nat × Row × Nat} {rest : List (Nat × Row × Nat)}
    (h : Store.get (x.s.braid (partner x.b)).vf v [] = e :: rest)
    (hs : x.br.sync = true → e.2.2 + x.br.syncAt + 3 ≤ x.st.clk + (x.s.braid (partner x.b)).syncAt) : (x.fifoLen (96 + v)).1 ≠ 0 := by
  have h1 : ¬ 96 + v < 64 := by omega
  have h2 : ¬ 96 + v < 96 := by omega
  have here : (!(x.br.sync && decide (x.st.clk + (x.s.braid (partner x.b)).syncAt < e.2.2 + x.br.syncAt + 3))) = true := by
    cases hb : x.br.sync
    · rfl
    · have := hs hb
      simpa using this
  simp only [Ctx.fifoLen, h1, h2, ↓reduceIte, Nat.add_sub_cancel_left, h, List.takeWhile_cons, here, List.length_cons]
  omega

/-- What a strand awaits of a popped entry: one row, its value there (R75). -/
def poppedRow (tile i : Nat) (row : Row) : Sbd :=
  { dests := [.row tile i], effs := [.tile tile i row rowOnes], tok := none, req := none, due := none }

theorem arrived_popped {t : Strand} (h : t.sbd = []) (n : Nat) (r : Regs) (c : Ctl) (iss : Store Nat) (tile i : Nat) (row : Row) :
    ({ t.after n r c iss with sbd := [poppedRow tile i row] } : Strand).arrived = t.after n (r.setTileRow tile i row rowOnes) c iss := by
  have : t.after n (r.setTileRow tile i row rowOnes) c iss = { t.after n (r.setTileRow tile i row rowOnes) c iss with sbd := t.sbd } := rfl
  rw [this, h]
  rfl

theorem vfpop_arrives (q : Quiet s) (on : Claims.On s f.pred) (hm : (s.ctx (.vfpop f)).masked 2 = false) (hk : f.kb = 0) (he : f.evt = 0)
    {row : Row} {at_ : Nat} {rest : List (Nat × Row × Nat)}
    (hq : Store.get (s.braid (partner s.cur.1)).vf (f.flags.toNat % 4) [] = ((s.ctx (.vfpop f)).world, row, at_) :: rest)
    (hother : ∀ k < 4, (s.strand s.cur.1 k).fifoWait = none)
    (hs : (s.braid s.cur.1).sync = true → at_ + (s.braid s.cur.1).syncAt + 3 ≤ s.here.clk + (s.braid (partner s.cur.1)).syncAt) :
    Arrives (.vfpop f) s 6 none (s.modBraid (partner s.cur.1) fun t => { t with vf := Store.set t.vf (f.flags.toNat % 4) rest [] })
      (s.here.r.setTileRow f.vtile.toNat ((s.ctx (.vfpop f)).rowIndex f.vrow) row rowOnes) (s.ctx (.vfpop f)).stepped := by
  obtain ⟨hearly, htraps⟩ := vfpop_traps (x := s.ctx (.vfpop f)) hm hk he hq (fun h => by cases h)
  have htraps : (vfpopOp f (s.ctx (.vfpop f))).traps = [] := by rw [htraps]; simp [trapIf]
  have htake : fifoShort (s.ctx (.vfpop f)) [vfpopOp f (s.ctx (.vfpop f))] = none := by
    rw [fifoShort_one (n := 96 + bits f.flags 0 2) rfl, bits_low2]
    exact if_neg (by simpa [vfpopOp] using fifoLen_inbound_pos (x := s.ctx (.vfpop f)) hq hs)
  have hi : (s.ctx (.vfpop f)).inbound (f.flags.toNat % 4) = ((s.ctx (.vfpop f)).world, row, at_) :: rest := hq
  have heff : (vfpopOp f (s.ctx (.vfpop f))).eff s =
      (s.modBraid (partner s.cur.1) fun t => { t with vf := Store.set t.vf (f.flags.toNat % 4) rest [] }).modStrand s.cur.1 s.cur.2
        (·.addSbd (poppedRow f.vtile.toNat ((s.ctx (.vfpop f)).rowIndex f.vrow) row)) := by
    simp only [vfpopOp, bits_low2, hi]
    rfl
  have hh : ((vfpopOp f (s.ctx (.vfpop f))).eff s).strand s.cur.1 s.cur.2 =
      { s.here with r := s.here.r, c := s.here.c, sbd := [poppedRow f.vtile.toNat ((s.ctx (.vfpop f)).rowIndex f.vrow) row] } := by
    rw [heff]
    refine (State.strand_modStrand _ _ _ _).trans ?_
    show s.here.addSbd _ = _
    rw [Strand.addSbd, q.arrived]
    rfl
  refine ⟨_, (issueOne_commits (i := .vfpop f) (op := vfpopOp f) q (vfpop_unhindered _) on hearly htraps rfl rfl rfl htake (fifoBehind_alone _ hother)).trans
    (congrArg _ (commit_effect (o := vfpopOp f (s.ctx (.vfpop f))) q ⟨on, rfl, rfl, rfl⟩ heff (heff ▸ hh) rfl rfl)), ?_⟩
  rw [modStrand_modStrand, modStrand_modStrand]
  exact modStrand_congr _ _ _ (arrived_popped q.arrived _ _ _ _ _ _ _)

theorem vfpop_foreign (q : Quiet s) (on : Claims.On s f.pred) (hm : (s.ctx (.vfpop f)).masked 2 = false) (hk : f.kb = 0) (he : f.evt = 0)
    {e : Nat × Row × Nat} {rest : List (Nat × Row × Nat)} (hq : Store.get (s.braid (partner s.cur.1)).vf (f.flags.toNat % 4) [] = e :: rest)
    (hw : e.1 ≠ (s.ctx (.vfpop f)).world) : Traps (.vfpop f) s { cause := 0x0A, step := 7, sub := 2, slot := 6 } := by
  obtain ⟨hearly, htraps⟩ := vfpop_traps (x := s.ctx (.vfpop f)) hm hk he hq (fun h => by cases h)
  have hr : (vfpopOp f (s.ctx (.vfpop f))).runs = true := on
  refine issueOne_traps (i := .vfpop f) (op := vfpopOp f) q (vfpop_unhindered _) ?_
  simp [bundleTrap, sameDest, hearly, htraps, hr, trapIf, hw, firstTrap]

theorem vfpop_stalls (q : Quiet s) (on : Claims.On s f.pred) (hm : (s.ctx (.vfpop f)).masked 2 = false) (hk : f.kb = 0) (he : f.evt = 0)
    (hq : Store.get (s.braid (partner s.cur.1)).vf (f.flags.toNat % 4) [] = []) (hp : (s.braid (partner s.cur.1)).status ≠ 2) :
    Stalls (.vfpop f) s (s.modStrand s.cur.1 s.cur.2 (·.waitFifo (96 + f.flags.toNat % 4, true))) := by
  obtain ⟨hearly, htraps⟩ := vfpop_traps (x := s.ctx (.vfpop f)) hm hk he hq (fun _ => hp)
  have hempty : fifoShort (s.ctx (.vfpop f)) [vfpopOp f (s.ctx (.vfpop f))] = some (96 + f.flags.toNat % 4, true) := by
    rw [fifoShort_one (n := 96 + bits f.flags 0 2) rfl, bits_low2]
    exact if_pos (by simpa [vfpopOp] using fifoLen_inbound_nil (x := s.ctx (.vfpop f)) hq)
  exact (issueOne_short (i := .vfpop f) (op := vfpopOp f) q (vfpop_unhindered _) on hearly htraps rfl hempty).trans (congrArg _ (stalls_fifo q _))

end Pop

/-! Results of slot E after one cycle (log 30): VFCNT and EVR. -/

section Scalar
variable {i : Instr} {op : Ctx → SlotOp} {s : State}

/-- An operation whose whole effect is a scalar of slot E, one cycle later, with its latch. -/
theorem issueOne_putE (q : Quiet s) (hf : (op (s.ctx i)).Free (s.ctx i)) (hpre : (op (s.ctx i)).pre = id) (hpost : (op (s.ctx i)).post = id)
    (hsafe : (op (s.ctx i)).safe = none) (hflow : (op (s.ctx i)).flow = .seq) (hcls : (op (s.ctx i)).cls = none)
    {d : BitVec 6} {v : Word} (heff : (op (s.ctx i)).eff = (s.ctx i).putE d.toNat v) (hexec : exec i s = issueOne i op s) :
    Settles i s 1 6 none (s.here.r.withX false d v) ((s.ctx i).stepped.latched 6 v) := by
  obtain ⟨t, ht, ho, hu⟩ := issueOne_results i op s q 1 [.x ((s.ctx i).r.cellX d.toNat) v, .latch 6 v (s.ctx i).st.c.gen]
    (by simp [Eff.plain]) hf hpre hpost hsafe hflow heff
  refine ⟨t, hexec.trans ht, ho, hu.trans ?_⟩
  have hiss : (s.ctx i).issAfter (op (s.ctx i)) s.here = (s.ctx i).issOf 6 none := by simp only [Ctx.issAfter, hcls]; rfl
  have hlatch : Ctl.land (s.ctx i).stepped (.latch 6 v (s.ctx i).st.c.gen) = (s.ctx i).stepped.latched 6 v := if_pos rfl
  rw [hiss]
  simp only [List.foldl_cons, List.foldl_nil]
  exact congrArg (fun c => s.here.after _ _ c _) hlatch

end Scalar

section Fifos
variable {f : FmtE} {s : State}

theorem vfcnt_settles (q : Quiet s) (on : Claims.On s f.pred) (hm : (s.ctx (.vfcnt f)).masked 2 = false) (hk : f.kb = 0) (he : f.evt = 0) (hc : f.cls = 0)
    (hz : f.flags.toNat / 4 % 4 = 0) :
    let v := f.flags.toNat % 4
    let n := if f.flags.getLsbD 4 then (Store.get (s.braid (partner s.cur.1)).vf v []).length else 16 - (Store.get (s.braid s.cur.1).vf v []).length
    Settles (.vfcnt f) s 1 6 none (s.here.r.withX false f.dst (BitVec.ofNat 64 n)) ((s.ctx (.vfcnt f)).stepped.latched 6 (BitVec.ofNat 64 n)) := by
  intro v n
  have hz' : bits f.flags 2 2 = 0 := hz
  have hf : (vfcntOp f (s.ctx (.vfcnt f))).Free (s.ctx (.vfcnt f)) :=
    { runs := on, early := featTrap_nil hm, traps := badParam_nil (by simp [hk, he, hc, hz']), walks := by simp [vfcntOp], stage1 := rfl, wait := rfl
      soon := rfl, fifo := rfl }
  refine issueOne_putE (op := vfcntOp f) q hf rfl rfl rfl rfl rfl ?_ rfl
  simp only [vfcntOp, bits_low2]
  rfl

end Fifos

theorem verticalFifosComplete : Claims.VerticalFifosComplete := by
  refine ⟨?push, ?pop, ?wait, ?count⟩
  case push =>
    intro f s q on hm hk he hp
    exact ⟨vfpush_effects q on hm hk he hp, vfpush_stalls q on hm hk he hp⟩
  case pop =>
    intro f s w row at_ rest q on hm hk he hq hother
    refine ⟨?_, vfpop_foreign q on hm hk he hq⟩
    rintro rfl hs
    exact vfpop_arrives q on hm hk he hq hother hs
  case wait => exact fun f s q on hm hk he hq hp => vfpop_stalls q on hm hk he hq hp
  case count => exact fun f s q on hm hk he hc hz => vfcnt_settles q on hm hk he hc hz

/-! Event counters. -/

section Events
variable {f : FmtE} {s : State} {o : Operand}

/-- An operation that reads its operand through FLAGS: the operand, its value, and no cause to trap. -/
theorem eventOperand_read {x : Ctx} (ho : Claims.EventOperand f o) (rd : x.ready f.pred [o]) :
    x.valE f = (x.opnd o).setWidth 32 ∧ valTraps x f ++ badParam (f.kb != 0 || f.cls != 0 || bits f.flags 0 3 != 0) = [] := by
  obtain ⟨hop, hz, hk, hc⟩ := ho
  have hop' : opndE f = some o := hop
  have hz' : bits f.flags 0 3 = 0 := by simpa [bits] using hz
  refine ⟨by simp [Ctx.valE, hop'], ?_⟩
  have hv : valTraps x f = [] := by simp only [valTraps, hop']; exact latchTraps_nil rd.2
  rw [hv, badParam_nil (by simp [hk, hc, hz'])]
  rfl

theorem getLsbD_31 (d : BitVec 32) : d.getLsbD 31 = decide (2 ^ 31 ≤ d.toNat) := BitVec.msb_eq_decide d

/-- The counter is behind the value where their difference, modulo 2^32, has its top bit set (R285). -/
theorem ewait_wait {x : Ctx} (hv : x.valE f = (x.opnd o).setWidth 32) :
    (ewaitOp f x).wait = decide (2 ^ 31 ≤ (Store.get x.r.ecnt f.evt.toNat 0 - (x.opnd o).setWidth 32).toNat) := by
  rw [← hv]
  exact getLsbD_31 _

theorem ewait_unhindered (x : Ctx) : Unhindered x (ewaitOp f x) := ⟨by simp [ewaitOp], rfl⟩

theorem ewait_goesOn (q : Quiet s) (rd : (s.ctx (.ewait f)).ready f.pred [o]) (ho : Claims.EventOperand f o)
    (hd : (Store.get s.here.r.ecnt f.evt.toNat 0 - ((s.ctx (.ewait f)).opnd o).setWidth 32).toNat < 2 ^ 31) : Effects (.ewait f) s 6 none s := by
  obtain ⟨hv, ht⟩ := eventOperand_read ho rd
  have hw : (ewaitOp f (s.ctx (.ewait f))).wait = false := (ewait_wait hv).trans (decide_eq_false (Nat.not_le.mpr hd))
  have hf : (ewaitOp f (s.ctx (.ewait f))).Free (s.ctx (.ewait f)) :=
    { runs := rd.1, early := rfl, traps := ht, walks := by simp [ewaitOp], stage1 := rfl, wait := hw, soon := rfl, fifo := rfl }
  exact (issueOne_quiet (.ewait f) (ewaitOp f) s q hf).trans
    (congrArg _ (commit_effects (o := ewaitOp f (s.ctx (.ewait f))) q ⟨rd.1, rfl, rfl, rfl⟩ (fun _ => rfl) rfl))

theorem ewait_stalls (q : Quiet s) (rd : (s.ctx (.ewait f)).ready f.pred [o]) (ho : Claims.EventOperand f o)
    (hd : 2 ^ 31 ≤ (Store.get s.here.r.ecnt f.evt.toNat 0 - ((s.ctx (.ewait f)).opnd o).setWidth 32).toNat) : Stalls (.ewait f) s s := by
  obtain ⟨hv, ht⟩ := eventOperand_read ho rd
  have hw : (ewaitOp f (s.ctx (.ewait f))).wait = true := (ewait_wait hv).trans (decide_eq_true hd)
  exact (issueOne_waits (i := .ewait f) (op := ewaitOp f) q (ewait_unhindered _) rd.1 rfl ht rfl rfl hw).trans (congrArg _ (stalls_condition q))

/-- Status over count as one doubleword (R285). -/
theorem status_append_count (a b : BitVec 32) : BitVec.ofNat 64 (a.toNat * 2 ^ 32 + b.toNat) = a ++ b := by
  apply BitVec.eq_of_toNat_eq
  rw [BitVec.toNat_append, ← Nat.shiftLeft_add_eq_or_of_lt b.isLt, Nat.shiftLeft_eq, BitVec.toNat_ofNat]
  exact Nat.mod_eq_of_lt (by have := a.isLt; have := b.isLt; omega)

theorem evr_settles (q : Quiet s) (on : Claims.On s f.pred) (hk : f.kb = 0) (hc : f.cls = 0) (hz : f.flags.toNat % 32 = 0) :
    let v : Word := Store.get s.here.r.estat f.evt.toNat 0 ++ Store.get s.here.r.ecnt f.evt.toNat 0
    Settles (.evr f) s 1 6 none (s.here.r.withX false f.dst v) ((s.ctx (.evr f)).stepped.latched 6 v) := by
  intro v
  have hz' : bits f.flags 0 5 = 0 := by simpa [bits] using hz
  have hf : (evrOp f (s.ctx (.evr f))).Free (s.ctx (.evr f)) :=
    { runs := on, early := rfl, traps := badParam_nil (by simp [hk, hc, hz']), walks := by simp [evrOp], stage1 := rfl, wait := rfl, soon := rfl, fifo := rfl }
  refine issueOne_putE (op := evrOp f) q hf rfl rfl rfl rfl rfl ?_ rfl
  simp only [evrOp, status_append_count]
  rfl

/-- An event counter set to a value, its status cleared (R285). -/
def Regs.counterSet (r : Regs) (e : Nat) (v : BitVec 32) : Regs :=
  { r with ecnt := Store.set r.ecnt e v 0, estat := Store.set r.estat e 0 0 }

theorem eset_did (q : Quiet s) (rd : (s.ctx (.eset f)).ready f.pred [o]) (ho : Claims.EventOperand f o) :
    Did (.eset f) s 6 none s { s.here.r with
      ecnt := Store.set s.here.r.ecnt f.evt.toNat (((s.ctx (.eset f)).opnd o).setWidth 32) 0
      estat := Store.set s.here.r.estat f.evt.toNat 0 0 } (s.ctx (.eset f)).stepped := by
  obtain ⟨hv, ht⟩ := eventOperand_read ho rd
  have hf : (esetOp f (s.ctx (.eset f))).Free (s.ctx (.eset f)) :=
    { runs := rd.1, early := rfl, traps := ht, walks := by simp [esetOp], stage1 := rfl, wait := rfl, soon := rfl, fifo := rfl }
  refine (issueOne_quiet (.eset f) (esetOp f) s q hf).trans (congrArg _ ?_)
  have heff : (esetOp f (s.ctx (.eset f))).eff s =
      s.modStrand s.cur.1 s.cur.2 fun t => { t with r := Regs.counterSet t.r f.evt.toNat ((s.ctx (.eset f)).valE f) } := rfl
  refine (commit_effect (o := esetOp f (s.ctx (.eset f))) q ⟨rd.1, rfl, rfl, rfl⟩ heff (c := s.here.c) (b := s.here.sbd) (State.strand_modStrand _ _ _ _) rfl rfl).trans ?_
  rw [modStrand_modStrand, hv]
  exact modStrand_congr _ _ _ rfl

end Events

theorem eventOperationsComplete : Claims.EventOperationsComplete :=
  ⟨fun _ _ _ q rd ho => ⟨ewait_goesOn q rd ho, ewait_stalls q rd ho⟩, fun _ _ q on hk hc hz => evr_settles q on hk hc hz,
    fun _ _ _ q rd ho => eset_did q rd ho⟩

/-- Settles O42: the vertical FIFOs by what issue does with one operation that names a FIFO, the event counters by its waits and results. -/
theorem fifosAndEventsComplete : Obligations.FifosAndEventsComplete := ⟨verticalFifosComplete, eventOperationsComplete⟩

end Sys2Proof.Machine.Organisation
end

section
/-!
PAIR_SYNC and PWR_GATE (R23 to R28): pairs that switch, domains that are gated and wake, the logic's contents that go.
-/

namespace Sys2Proof.Machine.Organisation

/-- A step of the device whose operands name what the machine has. -/
theorem device_next {ok : Bool} {s t u : State} (h : ok = true) (e : t = u) : device ok s t = .next u := by rw [h, e]; rfl

theorem onDie_eq {b k : Nat} (h : Claims.OnDie b k) : (decide (b < 96) && decide (k < 4)) = true := by simp [h.1, h.2]

/-! PAIR_SYNC (R23, R24). -/

section Pairs
variable {s : State} {b : Nat} {v : Word}

theorem otherRecord_none (s : State) (b : Nat) : s.otherRecord b none = s.anyRecord b := by simp [State.otherRecord, State.anyRecord]

theorem writePair_inUse (h : v.getLsbD 0 ≠ (s.braid b).sync) (hr : s.anyRecord b = true) :
    writePair s b v none = s.modBraid b fun t => { t with syncRefused := true } := by
  simp only [writePair, h, otherRecord_none, hr, Bool.or_true, Bool.true_or, ↓reduceIte]

/-- A braid whose pair enters or leaves same-frequency mode. -/
def Braid.paired (want : Bool) (m c : Nat) (t : Braid) : Braid := { t with sync := want, mhz := if want then m else t.mhz, syncAt := c }

theorem writePair_switches (h : v.getLsbD 0 ≠ (s.braid b).sync) (hb : s.anyRecord b = false) (hp : s.anyRecord (partner b) = false)
    (hf : ∀ f < 4, (s.braid b).vfOf f = [] ∧ (s.braid (partner b)).vfOf f = []) :
    writePair s b v none =
      ((s.modBraid b (Braid.paired (v.getLsbD 0) (min (s.braid b).mhz (s.braid (partner b)).mhz) (braidClk s b))).modBraid (partner b)
        (Braid.paired (v.getLsbD 0) (min (s.braid b).mhz (s.braid (partner b)).mhz) (braidClk s (partner b)))).modBraid b
          fun t => { t with syncRefused := false } := by
  have empty : ([b, partner b].any fun c => (List.range 4).any fun f => !(Store.get (s.braid c).vf f ([] : List (Nat × Row × Nat))).isEmpty) = false := by
    simp only [List.any_eq_false, List.mem_cons, List.not_mem_nil, or_false, List.mem_range, Bool.not_eq_true, Bool.not_eq_false', List.isEmpty_iff]
    rintro c (rfl | rfl) f hlt
    · exact (hf f hlt).1
    · exact (hf f hlt).2
  simp only [writePair, h, otherRecord_none, hb, hp, empty, Bool.or_false, Bool.false_eq_true, ↓reduceIte]
  rfl

theorem partner_ne (b : Nat) : partner b ≠ b := by
  unfold partner
  split <;> omega

end Pairs

theorem pairSync_switches {b : Nat} {v : Word} {s : State} (hlt : b < 96) (h : v.getLsbD 0 ≠ (s.braid b).sync) (hb : s.anyRecord b = false)
    (hp : s.anyRecord (partner b) = false) (hf : ∀ f < 4, (s.braid b).vfOf f = [] ∧ (s.braid (partner b)).vfOf f = []) :
    ∃ t, exec (.pairSyncWrite b v) s = .next t ∧
      (t.braid b).sync = v.getLsbD 0 ∧ (t.braid (partner b)).sync = v.getLsbD 0 ∧ (t.braid b).syncRefused = false ∧
      (v.getLsbD 0 = true → (t.braid b).mhz = min (s.braid b).mhz (s.braid (partner b)).mhz ∧ (t.braid (partner b)).mhz = (t.braid b).mhz) ∧
      t.mem = s.mem ∧ t.strands = s.strands := by
  have hne := partner_ne b
  refine ⟨_, device_next (decide_eq_true hlt) (writePair_switches h hb hp hf), ?_⟩
  simp only [State.braid_modBraid, State.braid_modBraid_ne _ hne, State.braid_modBraid_ne _ hne.symm, Braid.paired]
  exact ⟨trivial, trivial, trivial, fun hv => by simp [hv], rfl, rfl⟩

/-! PWR_GATE (R25 to R28). -/

/-- The request as PWR_GATE holds it (R26). -/
def Braid.asked (v : Word) (t : Braid) : Braid := { t with pwrTarget := some (bits v 32 7), pwrReq := v.extractLsb' 4 8 }

theorem writePwr_select (s : State) (b : Nat) (v : Word) : writePwr s b v false = s.modBraid b (Braid.asked v) := by
  unfold Braid.asked
  rw [← ofNat_bits]
  rfl

theorem writePwr_apply (s : State) (b : Nat) (v : Word) (c : Nat) (h : pwrRefusal (s.modBraid b (Braid.asked v)) b (bits v 32 7) (bits v 4 8) = c) :
    writePwr s b v true = (if c = 0 then pwrApply (s.modBraid b (Braid.asked v)) (bits v 32 7) (bits v 4 8) else s.modBraid b (Braid.asked v)).modBraid b
      fun t => { t with pwrResult := c } := by
  subst h
  unfold Braid.asked
  rw [← ofNat_bits]
  rfl

/-- A request that is refused changes PWR_GATE alone (R27). -/
theorem writePwr_refused {s : State} {b c : Nat} {v : Word} (h : pwrRefusal (s.modBraid b (Braid.asked v)) b (bits v 32 7) (bits v 4 8) = c) (hc : c ≠ 0) :
    writePwr s b v true = s.modBraid b fun t => { t with pwrTarget := some (bits v 32 7), pwrReq := v.extractLsb' 4 8, pwrResult := c } := by
  rw [writePwr_apply s b v c h, if_neg hc, modBraid_modBraid]
  rfl

/-- A request leaves every braid as it was but for PWR_GATE. -/
theorem braid_asked (s : State) (b c : Nat) (v : Word) :
    ∃ tg rq, (s.modBraid b (Braid.asked v)).braid c = { s.braid c with pwrTarget := tg, pwrReq := rq } := by
  by_cases h : c = b
  · subst h; exact ⟨_, _, State.braid_modBraid _ _ _⟩
  · exact ⟨_, _, State.braid_modBraid_ne _ h _⟩

theorem braid_result (s : State) (b c r : Nat) :
    ∃ x, (s.modBraid b fun t => { t with pwrResult := r }).braid c = { s.braid c with pwrResult := x } := by
  by_cases h : c = b
  · subst h; exact ⟨_, State.braid_modBraid _ _ _⟩
  · exact ⟨_, State.braid_modBraid_ne _ h _⟩

theorem logicInUse_asked (s : State) (b c : Nat) (v : Word) : (s.modBraid b (Braid.asked v)).logicInUse c = s.logicInUse c := by
  obtain ⟨_, _, h⟩ := braid_asked s b c v
  unfold State.logicInUse
  rw [h]
  rfl

theorem groupUsed_asked (s : State) (b c g : Nat) (v : Word) : ((s.modBraid b (Braid.asked v)).braid c).groupUsed g = (s.braid c).groupUsed g := by
  obtain ⟨_, _, h⟩ := braid_asked s b c v
  rw [h]
  rfl

theorem logicOn_asked (s : State) (b c : Nat) (v : Word) : ((s.modBraid b (Braid.asked v)).braid c).logicOn = (s.braid c).logicOn := by
  obtain ⟨_, _, h⟩ := braid_asked s b c v
  rw [h]

section Refusals
variable {s : State} {b target req : Nat}

theorem pwrRefusal_invalid (h : 96 ≤ target) : pwrRefusal s b target req = 3 := if_pos h

theorem pwrRefusal_denied (h : target < 96) (hp : partOf target ≠ partOf b) : pwrRefusal s b target req = 2 := by
  simp only [pwrRefusal, Nat.not_lt.mpr (Nat.le_of_lt_succ h), hp, ne_eq, not_false_eq_true, ↓reduceIte]

/-- The logic of a braid in use is not gated. -/
theorem pwrRefusal_busy (h : target < 96) (hp : partOf target = partOf b) (hu : s.logicInUse target = true) (hl : (s.braid target).logicOn = true)
    (hr : req % 2 = 0) : pwrRefusal s b target req = 1 := by
  simp [pwrRefusal, Nat.not_lt.mpr (Nat.le_of_lt_succ h), hp, hu, hl, hr]

/-- The bit of the request for the logic (R26). -/
theorem bits_even {v : Word} (h : v.getLsbD 4 = false) : bits v 4 8 % 2 = 0 := by
  have h4 : v.toNat / 2 ^ 4 % 2 = 0 := by
    have : (v.toNat >>> 4) % 2 ≠ 1 := by simpa [BitVec.getLsbD, Nat.testBit_eq_decide_div_mod_eq, Nat.shiftRight_eq_div_pow] using h
    rw [Nat.shiftRight_eq_div_pow] at this
    omega
  unfold bits
  omega

/-- Powering every domain is refused for no use. -/
theorem pwrRefusal_all (h : target < 96) (hp : partOf target = partOf b) : pwrRefusal s b target 255 = 0 := by
  have fab : ((List.range 6).any fun g => (s.braid target).fabOn.getLsbD g && !(255 / 2 ^ (2 + g) % 2 == 1) && (s.braid target).groupUsed g) = false := by
    simp only [List.any_eq_false, List.mem_range]
    intro g hg
    have : 255 / 2 ^ (2 + g) % 2 = 1 := by interval_cases g <;> rfl
    simp [this]
  simp only [pwrRefusal, Nat.not_lt.mpr (Nat.le_of_lt_succ h), hp, fab]
  simp

theorem pwrRefusal_idle (h : target < 96) (hp : partOf target = partOf b) (hu : s.logicInUse target = false)
    (hg : ∀ g < 6, (s.braid target).groupUsed g = false) : pwrRefusal s b target 0 = 0 := by
  have fab : ((List.range 6).any fun g => (s.braid target).fabOn.getLsbD g && !(0 / 2 ^ (2 + g) % 2 == 1) && (s.braid target).groupUsed g) = false := by
    simp only [List.any_eq_false, List.mem_range]
    intro g hlt
    simp [hg g hlt]
  simp only [pwrRefusal, Nat.not_lt.mpr (Nat.le_of_lt_succ h), hp, hu, fab]
  simp

end Refusals

/-- The domains not powered begin to wake (R28). -/
def Braid.wakes (t : Braid) : Braid := { t with logicWaking := !t.logicOn, bstWaking := !t.bstOn, fabOn := t.fabOn &&& 63#6, fabWaking := 63#6 &&& ~~~t.fabOn }

theorem pwrApply_all (s : State) (target : Nat) : pwrApply s target 255 = s.modBraid target Braid.wakes := by
  refine Eq.trans (b := (s.modBraid target fun t => { t with logicWaking := !(s.braid target).logicOn }).modBraid target fun t =>
    { t with bstWaking := !t.bstOn, fabOn := t.fabOn &&& 63#6, fabWaking := 63#6 &&& ~~~t.fabOn }) rfl ?_
  unfold State.modBraid
  rw [setBraid_setBraid, State.braid_setBraid]
  rfl

/-! Lines written back change slices alone; the lines that leave a braid's cache (R69). -/

theorem homeTouch_slices (s : State) (l : Nat) (d : Bool) (who : List (BitVec 24 × Nat)) : ∃ sl, s.homeTouch l d who = { s with slices := sl } := by
  unfold State.homeTouch
  split
  · exact ⟨s.slices, rfl⟩
  · exact ⟨_, rfl⟩

theorem writeBack_slices (s : State) (c : CLine) : ∃ sl, s.writeBack c = { s with slices := sl } := by
  unfold State.writeBack
  split
  · exact homeTouch_slices _ _ _ _
  · exact ⟨s.slices, rfl⟩

theorem writeBacks_slices (l : List CLine) (s : State) : ∃ sl, l.foldl State.writeBack s = { s with slices := sl } := by
  induction l generalizing s with
  | nil => exact ⟨s.slices, rfl⟩
  | cons c l ih =>
    obtain ⟨sl, h⟩ := writeBack_slices s c
    obtain ⟨sl', h'⟩ := ih { s with slices := sl }
    exact ⟨sl', by rw [List.foldl_cons, h, h']⟩

theorem flushLines_frame (s : State) (b : Nat) (gone : CLine → Bool) :
    (s.flushLines b gone).mem = s.mem ∧
      (s.flushLines b gone).braid b = { s.braid b with cache := (s.braid b).cache.filter fun c => !(c.arm.isNone && gone c) } := by
  by_cases h : ((s.braid b).cache.filter fun c => c.arm.isNone && gone c).isEmpty = true
  · have keep : ((s.braid b).cache.filter fun c => !(c.arm.isNone && gone c)) = (s.braid b).cache := by
      rw [List.filter_eq_self]
      intro c hc
      rw [Bool.eq_false_of_not_eq_true (List.filter_eq_nil_iff.mp (List.isEmpty_iff.mp h) c hc)]
      rfl
    rw [show s.flushLines b gone = s from if_pos h, keep]
    exact ⟨rfl, rfl⟩
  · obtain ⟨sl, hs⟩ := writeBacks_slices ((s.braid b).cache.filter fun c => c.arm.isNone && gone c) s
    have flushed : s.flushLines b gone = { s with slices := sl }.modBraid b fun t => { t with cache := t.cache.filter fun c => !(c.arm.isNone && gone c) } :=
      (if_neg h).trans (by rw [hs])
    rw [flushed]
    exact ⟨rfl, State.braid_modBraid _ _ _⟩

/-- Every strand of a braid changed. -/
def modStrands (s : State) (b : Nat) (f : Strand → Strand) : State := (List.range 4).foldl (fun s k => s.modStrand b k f) s

theorem modStrands_eq (s : State) (b : Nat) (f : Strand → Strand) :
    modStrands s b f = (((s.modStrand b 0 f).modStrand b 1 f).modStrand b 2 f).modStrand b 3 f := rfl

theorem strand_modStrands (s : State) (b : Nat) (f : Strand → Strand) {k : Nat} (hk : k < 4) : (modStrands s b f).strand b k = f (s.strand b k) := by
  rw [modStrands_eq]
  interval_cases k <;> simp [State.strand_modStrand_ne]

theorem strand_modStrands_ne (s : State) {b c k : Nat} (f : Strand → Strand) (hk : k < 4) (h : c ≠ b) : (modStrands s b f).strand c k = s.strand c k := by
  have hne : ∀ j, (c, k) ≠ (b, j) := fun j e => h (Prod.mk.inj e).1
  simp [modStrands_eq, State.strand_modStrand_ne _ _ hk (hne _)]

theorem braid_modStrands (s : State) (b c : Nat) (f : Strand → Strand) : (modStrands s b f).braid c = s.braid c := by
  simp only [modStrands_eq, State.braid_modStrand]

theorem part_modStrands (s : State) (b p : Nat) (f : Strand → Strand) : (modStrands s b f).part p = s.part p := by
  simp only [modStrands_eq, State.part_modStrand]

theorem mem_modStrands (s : State) (b : Nat) (f : Strand → Strand) : (modStrands s b f).mem = s.mem := by
  simp only [modStrands_eq, State.modStrand_mem]

/-- The contents of the logic gone and the domain off (R25, R28). -/
def Braid.gated (t : Braid) : Braid := { t.loseLogic with logicOn := false, logicWaking := false }

theorem gateLogic_eq (s : State) (b : Nat) : gateLogic s b = (modStrands (s.flushLines b fun _ => true) b fun _ => {}).modBraid b Braid.gated := rfl

/-- The logic of a braid that is gated: its memory stays, its strands and contents go (R25, R28). -/
theorem gateLogic_frame (s : State) (b : Nat) :
    (gateLogic s b).mem = s.mem ∧ (∀ k < 4, (gateLogic s b).strand b k = {}) ∧ ∃ t : Braid, (gateLogic s b).braid b = Braid.gated t := by
  simp only [gateLogic_eq, State.modBraid_mem, mem_modStrands, State.braid_modBraid, State.strand_modBraid]
  exact ⟨(flushLines_frame s b fun _ => true).1, fun _ hk => strand_modStrands _ b _ hk, _, rfl⟩

/-- The B-store and the fabric of a braid gated (R25). -/
def Braid.storesOff (t : Braid) : Braid :=
  let u := if t.bstOn || t.bstWaking then { t with bst := [], bstTag := [], bstOn := false, bstWaking := false } else t
  { u with fabOn := u.fabOn &&& 0#6, fabWaking := 0#6 &&& ~~~u.fabOn }

theorem storesOff_domains (t : Braid) :
    (Braid.storesOff t).bstOn = false ∧ (Braid.storesOff t).bstWaking = false ∧ (Braid.storesOff t).fabOn = 0 ∧ (Braid.storesOff t).fabWaking = 0 := by
  unfold Braid.storesOff
  cases hon : t.bstOn <;> cases hw : t.bstWaking <;> simp [hon, hw]

theorem storesOff_logic (t : Braid) :
    (Braid.storesOff t).logicOn = t.logicOn ∧ (Braid.storesOff t).logicWaking = t.logicWaking ∧ (Braid.storesOff t).bankMode = t.bankMode ∧
      (Braid.storesOff t).keys = t.keys := by
  unfold Braid.storesOff
  cases t.bstOn || t.bstWaking <;> exact ⟨rfl, rfl, rfl, rfl⟩

/-- A braid that is asked to power nothing: its logic, if it was on, gated (R27, R28). -/
theorem pwrApply_none (s : State) (target : Nat) : pwrApply s target 0 =
    (if (s.braid target).logicOn || (s.braid target).logicWaking then gateLogic s target
      else s.modBraid target fun t => { t with logicWaking := false }).modBraid target Braid.storesOff := rfl

theorem pwrApply_none_logic (s : State) (target : Nat) : (pwrApply s target 0).mem = s.mem ∧ ((pwrApply s target 0).braid target).logicOn = false ∧
    ((pwrApply s target 0).braid target).logicWaking = false ∧ ((s.braid target).logicOn = true → (∀ k < 4, (pwrApply s target 0).strand target k = {}) ∧
      ((pwrApply s target 0).braid target).bankMode = [] ∧ ((pwrApply s target 0).braid target).keys = []) := by
  rw [pwrApply_none, State.modBraid_mem, State.braid_modBraid]
  simp only [State.strand_modBraid, storesOff_logic]
  by_cases h : ((s.braid target).logicOn || (s.braid target).logicWaking) = true
  · obtain ⟨hm, hk, t, hb⟩ := gateLogic_frame s target
    rw [if_pos h, hb]
    exact ⟨hm, rfl, rfl, fun _ => ⟨hk, rfl, rfl⟩⟩
  · rw [if_neg h, State.braid_modBraid]
    have off : (s.braid target).logicOn = false := Bool.eq_false_of_not_eq_true fun e => h (by rw [e, Bool.true_or])
    exact ⟨rfl, off, rfl, fun e => absurd e (by simp [off])⟩

theorem pwrApply_none_stores (s : State) (target : Nat) :
    ((pwrApply s target 0).braid target).bstOn = false ∧ ((pwrApply s target 0).braid target).bstWaking = false ∧
      ((pwrApply s target 0).braid target).fabOn = 0 ∧ ((pwrApply s target 0).braid target).fabWaking = 0 := by
  rw [pwrApply_none, State.braid_modBraid]
  exact storesOff_domains _

section Gate
variable {s : State} {b target : Nat} {v : Word}

/-- The request for every domain: those that are off begin to wake. -/
theorem pwrGate_all (hb : b < 96) (hv : bits v 32 7 = target) (ht : target < 96) (hp : partOf target = partOf b) (hr : v.extractLsb' 4 8 = 0xFF#8) :
    ∃ t, exec (.pwrGateApply b v) s = .next t ∧
      (t.braid target).logicOn = (s.braid target).logicOn ∧ (t.braid target).logicWaking = !(s.braid target).logicOn ∧
      (t.braid target).bstOn = (s.braid target).bstOn ∧ (t.braid target).bstWaking = !(s.braid target).bstOn ∧
      (t.braid target).fabOn = (s.braid target).fabOn ∧ (t.braid target).fabWaking = ~~~(s.braid target).fabOn ∧
      (t.braid target).bst = (s.braid target).bst ∧ (t.braid target).held = (s.braid target).held ∧
      (t.braid b).pwrResult = 0 ∧ t.strands = s.strands ∧ t.mem = s.mem := by
  have req : bits v 4 8 = 255 := (toNat_extract v 4 8).trans (congrArg BitVec.toNat hr)
  obtain ⟨tg, rq, hask⟩ := braid_asked s b target v
  obtain ⟨r, hres⟩ := braid_result ((s.modBraid b (Braid.asked v)).modBraid target Braid.wakes) b target 0
  have ha := writePwr_apply s b v 0 (by rw [hv, req]; exact pwrRefusal_all ht hp)
  rw [hv, req, if_pos rfl, pwrApply_all] at ha
  refine ⟨_, device_next (decide_eq_true hb) ha, ?_⟩
  rw [hres, State.braid_modBraid, hask, State.braid_modBraid]
  have ones : ∀ f : BitVec 6, f &&& 63#6 = f := fun f => BitVec.and_allOnes
  have ones' : ∀ f : BitVec 6, 63#6 &&& f = f := fun f => BitVec.allOnes_and
  exact ⟨rfl, rfl, rfl, rfl, ones _, ones' _, rfl, rfl, rfl, rfl, rfl⟩

/-- The request for none, of a braid at rest: every domain is gated. -/
theorem pwrGate_none (hb : b < 96) (hv : bits v 32 7 = target) (ht : target < 96) (hp : partOf target = partOf b) (hr : v.extractLsb' 4 8 = 0#8)
    (hu : s.logicInUse target = false) (hg : ∀ g < 6, (s.braid target).groupUsed g = false) :
    ∃ t, exec (.pwrGateApply b v) s = .next t ∧ (t.braid target).logicOn = false ∧ (t.braid target).logicWaking = false ∧
      (t.braid target).bstOn = false ∧ (t.braid target).bstWaking = false ∧ (t.braid target).fabOn = 0 ∧ (t.braid target).fabWaking = 0 ∧
      (t.braid b).pwrResult = 0 ∧ t.mem = s.mem ∧
      ((s.braid target).logicOn = true → (∀ k < 4, t.strand target k = {}) ∧ (t.braid target).bankMode = [] ∧ (t.braid target).keys = []) := by
  have req : bits v 4 8 = 0 := (toNat_extract v 4 8).trans (congrArg BitVec.toNat hr)
  obtain ⟨r, hres⟩ := braid_result (pwrApply (s.modBraid b (Braid.asked v)) target 0) b target 0
  have idle : pwrRefusal (s.modBraid b (Braid.asked v)) b target 0 = 0 :=
    pwrRefusal_idle ht hp (by rw [logicInUse_asked, hu]) fun g hlt => by rw [groupUsed_asked, hg g hlt]
  have ha := writePwr_apply s b v 0 (by rw [hv, req]; exact idle)
  rw [hv, req, if_pos rfl] at ha
  refine ⟨_, device_next (decide_eq_true hb) ha, ?_⟩
  obtain ⟨hm, hon, hwk, hgone⟩ := pwrApply_none_logic (s.modBraid b (Braid.asked v)) target
  obtain ⟨hbst, hbw, hfab, hfw⟩ := pwrApply_none_stores (s.modBraid b (Braid.asked v)) target
  rw [hres, State.braid_modBraid]
  rw [logicOn_asked] at hgone
  exact ⟨hon, hwk, hbst, hbw, hfab, hfw, rfl, hm, hgone⟩

end Gate

/-! Domains that wake (R28). -/

theorem modBraid_congr (s : State) (b : Nat) {f g : Braid → Braid} (h : f (s.braid b) = g (s.braid b)) : s.modBraid b f = s.modBraid b g := by
  unfold State.modBraid
  rw [h]

theorem wakeDone_logic {s : State} {b : Nat} (h : (s.braid b).logicWaking = true) :
    wakeDone s b 0 = s.modBraid b fun t => { t.loseLogic with logicOn := true, logicWaking := false } :=
  modBraid_congr _ _ (if_pos h)

theorem wakeDone_bst {s : State} {b : Nat} (h : (s.braid b).bstWaking = true) :
    wakeDone s b 1 = s.modBraid b fun t => { t with bst := [], bstTag := [], bstOn := true, bstWaking := false } :=
  modBraid_congr _ _ (if_pos h)

theorem wakeDone_fabric {s : State} {b g : Nat} (h : (s.braid b).fabWaking.getLsbD g = true) :
    wakeDone s b (g + 2) = s.modBraid b fun t => { t with fabOn := setBit t.fabOn g true, fabWaking := setBit t.fabWaking g false } :=
  modBraid_congr _ _ (if_pos h)

theorem getLsbD_bit {w i : Nat} (j : Nat) (hi : i < w) : (BitVec.ofNat w (2 ^ i)).getLsbD j = decide (j = i) := by
  rw [BitVec.getLsbD_ofNat, Nat.testBit_two_pow]
  by_cases h : j = i
  · simp [h, hi]
  · simp [h, Ne.symm h]

theorem getLsbD_setBit {w : Nat} (v : BitVec w) {i j : Nat} (x : Bool) (hi : i < w) (hj : j < w) :
    (setBit v i x).getLsbD j = if j = i then x else v.getLsbD j := by
  cases x
  · simp only [setBit, Bool.false_eq_true, ↓reduceIte, BitVec.getLsbD_and, BitVec.getLsbD_not, getLsbD_bit j hi, hj]
    by_cases h : j = i <;> simp [h]
  · simp only [setBit, ↓reduceIte, BitVec.getLsbD_or, getLsbD_bit j hi]
    by_cases h : j = i <;> simp [h]

theorem fabric_wakes {s : State} {b g : Nat} (hb : b < 96) (hg : g < 6) (h : (s.braid b).fabWaking.getLsbD g = true) :
    ∃ t, exec (.domainWakeDone b (g + 2)) s = .next t ∧ (t.braid b).fabOn.getLsbD g = true ∧ (t.braid b).fabWaking.getLsbD g = false ∧
      (∀ h < 6, h ≠ g → (t.braid b).fabOn.getLsbD h = (s.braid b).fabOn.getLsbD h) ∧ t.mem = s.mem := by
  refine ⟨_, device_next (decide_eq_true hb) (wakeDone_fabric h), ?_⟩
  rw [State.braid_modBraid]
  exact ⟨(getLsbD_setBit _ _ hg hg).trans (if_pos rfl), (getLsbD_setBit _ _ hg hg).trans (if_pos rfl),
    fun j hj hne => (getLsbD_setBit _ _ hg hj).trans (if_neg hne), rfl⟩

end Sys2Proof.Machine.Organisation
end

section
/-!
BANK_MODE as the window writes it and the end of a pending switch (R68, R69).
-/

namespace Sys2Proof.Machine.Organisation

/-! What a bank that enters a mode holds (R69). -/

section EnterMode
variable (t : Braid) (n m : Nat)

theorem bankModeOf_enterMode : (t.enterMode n m).bankModeOf n = m := Store.get_set_self _ _ _ _

theorem bankModeOf_enterMode_ne {j : Nat} (h : j ≠ n) : (t.enterMode n m).bankModeOf j = t.bankModeOf j := Store.get_set_ne _ h _ _ _

theorem pad_enterMode : ∀ e ∈ (t.enterMode n m).pad, e.1 / 65536 ≠ n := by
  intro e he
  have := (List.mem_filter.mp he).2
  simpa using this

end EnterMode

/-! Outcomes of a request (R69). -/

section Outcomes
variable {s : State} {b n req : Nat}

theorem bankOutcome_invalid (hn : 24 ≤ n) : bankOutcome s b n req = 3 := by
  have hn' : 23 < n := hn
  simp [bankOutcome, hn']

theorem bankOutcome_pad (hn : n < 24) (hr : req = 0 ∨ req = 2) (hm : (s.braid b).bankModeOf n = 1) (he : (s.braid b).slabsIn n = [])
    (hw : (s.braid b).switching n = false) (hv : s.bankReserved b n = false) : bankOutcome s b n req = 0 := by
  have hn' : ¬ 23 < n := by omega
  rcases hr with rfl | rfl <;> simp [bankOutcome, hn', hm, hw, hv, he]

theorem bankOutcome_fifo (hn : n < 24) (hr : req = 0 ∨ req = 1) (hm : (s.braid b).bankModeOf n = 2) (he : (s.braid b).fifoOf n = [])
    (hf : s.fifoBusy b n = false) (hw : (s.braid b).switching n = false) (hv : s.bankReserved b n = false) : bankOutcome s b n req = 0 := by
  have hn' : ¬ 23 < n := by omega
  rcases hr with rfl | rfl <;> simp [bankOutcome, hn', hm, hw, hv, he, hf]

end Outcomes

/-! The window's request and its answer (R68, R246). -/

theorem ofNat_add_eq_or {i a c : Nat} (h : c < 2 ^ i) : BitVec.ofNat 64 (a * 2 ^ i + c) = BitVec.ofNat 64 (a * 2 ^ i) ||| BitVec.ofNat 64 c := by
  rw [← Nat.shiftLeft_eq, Nat.shiftLeft_add_eq_or_of_lt h, BitVec.ofNat_or]

/-- BANK, MODE and EVT as written, RESULT below them (R68). -/
theorem bankAnswer_eq (v : Word) {res : Nat} (h : res < 8) : bankAnswer v res = v &&& 0xFFE0000000000000#64 ||| BitVec.ofNat 64 (res * 2 ^ 50) := by
  have top : v.toNat / 2 ^ 53 = bits v 53 11 := (Nat.mod_eq_of_lt (by have := v.isLt; omega)).symm
  rw [bankAnswer, top, ofNat_add_eq_or (by omega), bits_mul_eq_and]
  rfl

theorem bankAnswer_done (v : Word) : bankAnswer v 0 = v &&& 0xFFE0000000000000#64 := by
  rw [bankAnswer_eq v (Nat.succ_pos 7)]
  exact BitVec.or_zero

section Window
variable {s : State} {b : Nat} {v : Word}

theorem writeBank_invalid (hl : (s.braid b).logicOn = true) (ho : bankOutcome s b (bits v 59 5) (bits v 57 2) = 3) :
    writeBank s b 4 v = s.modBraid b fun t => { t with bmReq := Store.put t.bmReq 4 (bankAnswer v 3) } := by
  simp only [writeBank, hl, ho]
  rfl

theorem writeBank_now (hl : (s.braid b).logicOn = true) (ho : bankOutcome s b (bits v 59 5) (bits v 57 2) = 0) :
    writeBank s b 4 v = s.modBraid b fun t => { t with bmReq := Store.put t.bmReq 4 (bankAnswer v 0) }.enterMode (bits v 59 5) (bits v 57 2) := by
  simp only [writeBank, hl, ho, modBraid_modBraid]
  rfl

/-- A bank that switches at once: its mode, the request answered, nothing of the bank's left in the pad, the other banks as they were. -/
theorem bankMode_switches (hb : b < 96) (hl : (s.braid b).logicOn = true) (ho : bankOutcome s b (bits v 59 5) (bits v 57 2) = 0) :
    ∃ t, exec (.bankModeWrite b v) s = .next t ∧ (t.braid b).bankModeOf (bits v 59 5) = bits v 57 2 ∧
      Store.get (t.braid b).bmReq 4 0 = v &&& 0xFFE0000000000000#64 ∧ (∀ e ∈ (t.braid b).pad, e.1 / 65536 ≠ bits v 59 5) ∧
      (∀ m, m ≠ bits v 59 5 → (t.braid b).bankModeOf m = (s.braid b).bankModeOf m) ∧ t.mem = s.mem ∧ t.strands = s.strands := by
  refine ⟨_, device_next (decide_eq_true hb) (writeBank_now hl ho), ?_⟩
  rw [State.braid_modBraid]
  refine ⟨bankModeOf_enterMode _ _ _, ?_, pad_enterMode _ _ _, fun m hm => bankModeOf_enterMode_ne _ _ _ hm, rfl, rfl⟩
  exact (Store.get_put_self _ _ _ _).trans (bankAnswer_done v)

theorem bankMode_invalid (hb : b < 96) (hl : (s.braid b).logicOn = true) (hn : 24 ≤ bits v 59 5) :
    exec (.bankModeWrite b v) s = .next (s.modBraid b fun t =>
      { t with bmReq := Store.put t.bmReq 4 (v &&& 0xFFE0000000000000#64 ||| 0x000C000000000000#64) }) := by
  have hw := writeBank_invalid (v := v) hl (bankOutcome_invalid hn)
  rw [bankAnswer_eq v (show 3 < 8 by omega)] at hw
  exact device_next (decide_eq_true hb) hw

theorem bankMode_pends (hb : b < 96) (hl : (s.braid b).logicOn = true) (ho : bankOutcome s b (bits v 59 5) (bits v 57 2) = 1) :
    exec (.bankModeWrite b v) s = .next (s.modBraid b fun t =>
      { t with bmReq := Store.put t.bmReq 4 (v &&& 0xFFE0000000000000#64 ||| 0x0004000000000000#64)
               bankSw := t.bankSw ++ [{ bank := bits v 59 5, mode := bits v 57 2, evt := none }] }) := by
  have hw := writeBank_pending (who := 4) hl ho
  rw [bankAnswer_eq v (show 1 < 8 by omega)] at hw
  exact device_next (decide_eq_true hb) hw

end Window

/-! The end of a pending switch (R69). -/

/-- BANK_MODE of one who asked for a switch that has ended: its RESULT is DONE (R68). -/
def answered (n : Nat) (v : Word) : Word :=
  if bits v 59 5 = n ∧ bits v 50 3 = 1 then BitVec.ofNat 64 (v.toNat / 2 ^ 53 * 2 ^ 53 + v.toNat % 2 ^ 50) else v

/-- A braid one of whose banks has switched. -/
def Braid.switched (n m : Nat) (t : Braid) : Braid :=
  { t.enterMode n m with bankSw := t.bankSw.filter fun x => x.bank != n, bmReq := t.bmReq.map fun e => (e.1, answered n e.2) }

theorem switchDone_eq {s : State} {b n : Nat} {w : BankSwitch} (hw : ((s.braid b).bankSw.find? (·.bank == n)) = some w) (he : w.evt = none)
    (hc : ∀ c ∈ (s.braid b).cache, c.bank = n → c.arm = none ∧ (c.dirty = true → fare s b (s.lineWorld c.line) c.line 1 = .sent)) :
    switchDone s b n = (s.flushLines b fun c => c.bank == n).modBraid b (Braid.switched n w.mode) := by
  have clear : ((s.braid b).cache.any fun c => c.bank == n && (c.arm.isSome || (c.dirty && fare s b (s.lineWorld c.line) c.line 1 != .sent))) = false := by
    simp only [List.any_eq_false]
    intro c hmem
    by_cases hn : c.bank = n
    · obtain ⟨ha, hd⟩ := hc c hmem hn
      cases hdirty : c.dirty
      · simp [ha]
      · simp [ha, hd hdirty]
    · simp [hn]
  simp only [switchDone, hw, clear, he]
  rfl

theorem bankSwitch_ends {s : State} {b n : Nat} {w : BankSwitch} (hb : b < 96) (hw : ((s.braid b).bankSw.find? (·.bank == n)) = some w) (he : w.evt = none)
    (hc : ∀ c ∈ (s.braid b).cache, c.bank = n → c.arm = none ∧ (c.dirty = true → fare s b (s.lineWorld c.line) c.line 1 = .sent)) :
    ∃ t, exec (.bankSwitchDone b n) s = .next t ∧
      (t.braid b).bankModeOf n = w.mode ∧ (∀ x ∈ (t.braid b).bankSw, x.bank ≠ n) ∧ (∀ e ∈ (t.braid b).pad, e.1 / 65536 ≠ n) ∧
      (∀ c ∈ (t.braid b).cache, c.bank ≠ n) ∧ (∀ m, m ≠ n → (t.braid b).bankModeOf m = (s.braid b).bankModeOf m) ∧ t.mem = s.mem := by
  obtain ⟨hmem, hbraid⟩ := flushLines_frame s b fun c => c.bank == n
  refine ⟨_, device_next (decide_eq_true hb) (switchDone_eq hw he hc), ?_⟩
  rw [State.braid_modBraid, hbraid, State.modBraid_mem]
  refine ⟨bankModeOf_enterMode _ n w.mode, ?_, pad_enterMode _ n w.mode, ?_, fun m hm => bankModeOf_enterMode_ne _ n w.mode hm, hmem⟩
  · intro x hx
    have := (List.mem_filter.mp hx).2
    simpa using this
  · intro c hcache hn
    obtain ⟨hin, hkeep⟩ := List.mem_filter.mp hcache
    simp [(hc c hin hn).1, hn] at hkeep

end Sys2Proof.Machine.Organisation
end

section
/-!
Invalidations, walks and misses (R63, R81 to R83), the registers without a row of their own (R245, R246, R357, R363, R405, R407, R417, R418). Settles O45.
-/

namespace Sys2Proof.Machine.Organisation

/-! TLB_INV (R82). -/

section Tlb
variable {s : State} {p : Nat} {v : Word}

theorem invFields_eq (v : Word) : BitVec.ofNat 64 (bits v 16 47 * 65536) = v &&& 0x7FFFFFFFFFFF0000#64 := bits_mul_eq_and v 16 47

/-- The fields below DONE (R82). -/
theorem invFields_done (v : Word) : BitVec.ofNat 64 (bits v 16 47 * 65536 + 2 ^ 63) = v &&& 0x7FFFFFFFFFFF0000#64 ||| 0x8000000000000000#64 := by
  have small : bits v 16 47 * 65536 < 2 ^ 63 := by
    have := Nat.mod_lt (v.toNat / 2 ^ 16) (Nat.two_pow_pos 47)
    unfold bits
    omega
  rw [Nat.add_comm, ← Nat.one_mul (2 ^ 63), ofNat_add_eq_or small, invFields_eq, BitVec.or_comm]
  rfl

theorem modPart_congr (s : State) (p : Nat) {f g : Part → Part} (h : f (s.part p) = g (s.part p)) : s.modPart p f = s.modPart p g := by
  unfold State.modPart
  rw [h]

theorem tlbGo_starts (hd : (s.part p).tlbInv.getLsbD 63 = true) (hv : v.getLsbD 0 = true) :
    tlbGo s p v = s.modPart p fun t => { t with tlbInv := v &&& 0x7FFFFFFFFFFF0000#64, tlbRun := v &&& 0x7FFFFFFFFFFF0000#64 } := by
  refine modPart_congr _ _ ?_
  simp only [hd, hv, Bool.and_self, Bool.not_true, Bool.and_false, Bool.false_eq_true, ↓reduceIte, Nat.add_zero, invFields_eq]

theorem tlbGo_fields (hd : (s.part p).tlbInv.getLsbD 63 = true) (hv : v.getLsbD 0 = false) :
    tlbGo s p v = s.modPart p fun t => { t with tlbInv := (v &&& 0x7FFFFFFFFFFF0000#64) ||| 0x8000000000000000#64 } := by
  refine modPart_congr _ _ ?_
  simp only [hd, hv, ← invFields_done]
  rfl

theorem tlbGo_running (hd : (s.part p).tlbInv.getLsbD 63 = false) :
    tlbGo s p v = s.modPart p fun t => { t with tlbInv := v &&& 0x7FFFFFFFFFFF0000#64 } := by
  refine modPart_congr _ _ ?_
  simp only [hd, Bool.false_and, Bool.false_eq_true, ↓reduceIte, Nat.add_zero, invFields_eq]

end Tlb

/-- A braid without the translations of an invalidation's range. -/
def Braid.purged (v : Word) (t : Braid) : Braid := { t with tlb := t.tlb.filter fun e => !invHits v e.world (e.vpage * 65536) 16 }

/-- The translations of one braid and of its strands' micro-TLBs that an invalidation removes (R82). -/
def purge (v : Word) (s : State) (b : Nat) : State :=
  modStrands (s.modBraid b (Braid.purged v)) b fun t => t.afresh v (recWorld t.slot0.bind)

/-- The translation is outside the range of an invalidation. -/
def Spared (v : Word) (e : TlbEntry) : Prop := invHits v e.world (e.vpage * 65536) 16 = false

theorem mem_tlb_purge (v : Word) (s : State) (b c : Nat) (e : TlbEntry) :
    e ∈ ((purge v s b).braid c).tlb ↔ e ∈ (s.braid c).tlb ∧ (c = b → Spared v e) := by
  rw [purge, braid_modStrands]
  by_cases h : c = b
  · subst h
    rw [State.braid_modBraid]
    simp [Braid.purged, Spared]
  · rw [State.braid_modBraid_ne _ h]
    simp [h]

theorem afresh_keeps (t : Strand) (v : Word) (w : Nat) : (t.afresh v w).r = t.r ∧ ∀ e ∈ (t.afresh v w).mtlb, e ∈ t.mtlb ∧ Spared v e :=
  ⟨rfl, fun e he => by simpa [Spared] using List.mem_filter.mp he⟩

theorem strand_purge (v : Word) (s : State) (b : Nat) {c k : Nat} (hk : k < 4) :
    (purge v s b).strand c k = if c = b then (s.strand c k).afresh v (recWorld (s.strand c k).slot0.bind) else s.strand c k := by
  unfold purge
  by_cases h : c = b
  · subst h
    rw [if_pos rfl, strand_modStrands _ _ _ hk, State.strand_modBraid]
  · rw [if_neg h, strand_modStrands_ne _ _ hk h, State.strand_modBraid]

/-- Purging a list of braids: registers stay, and of the braids of the list no translation of the range is held. -/
theorem purges_frame (v : Word) (l : List Nat) (s : State) :
    (l.foldl (purge v) s).mem = s.mem ∧ (∀ b e, e ∈ ((l.foldl (purge v) s).braid b).tlb ↔ e ∈ (s.braid b).tlb ∧ (b ∈ l → Spared v e)) ∧
      ∀ b, ∀ k < 4, ((l.foldl (purge v) s).strand b k).r = (s.strand b k).r ∧
        ∀ e ∈ ((l.foldl (purge v) s).strand b k).mtlb, e ∈ (s.strand b k).mtlb ∧ (b ∈ l → Spared v e) := by
  induction l generalizing s with
  | nil => exact ⟨rfl, fun b e => by simp, fun b k _ => ⟨rfl, fun e he => ⟨he, fun h => nomatch h⟩⟩⟩
  | cons a l ih =>
    obtain ⟨hmem, htlb, hstrand⟩ := ih (purge v s a)
    refine ⟨hmem.trans (mem_modStrands _ _ _), fun b e => ?_, fun b k hk => ?_⟩
    · rw [List.foldl_cons, htlb, mem_tlb_purge, List.mem_cons]
      tauto
    · obtain ⟨hr, hm⟩ := hstrand b k hk
      obtain ⟨hr', hm'⟩ := afresh_keeps (s.strand b k) v (recWorld (s.strand b k).slot0.bind)
      rw [List.foldl_cons]
      by_cases h : b = a
      · rw [strand_purge v s a hk, if_pos h] at hr hm
        exact ⟨hr.trans hr', fun e he => ⟨(hm' e (hm e he).1).1, fun _ => (hm' e (hm e he).1).2⟩⟩
      · rw [strand_purge v s a hk, if_neg h] at hr hm
        exact ⟨hr, fun e he => ⟨(hm e he).1, fun hin => (hm e he).2 ((List.mem_cons.mp hin).resolve_left h)⟩⟩

theorem part_purges (v : Word) (l : List Nat) (s : State) (p : Nat) : (l.foldl (purge v) s).part p = s.part p := by
  induction l generalizing s with
  | nil => rfl
  | cons a l ih => rw [List.foldl_cons, ih, purge, part_modStrands, State.part_modBraid]

/-- TLB_INV with its DONE bit set. -/
def Part.invDone (t : Part) : Part := { t with tlbInv := setBit t.tlbInv 63 true }

theorem tlbDone_eq {s : State} {p : Nat} (hd : (s.part p).tlbInv.getLsbD 63 = false) :
    ∃ im wc, tlbDone s p = { ((braidsOf p).foldl (purge (s.part p).tlbRun) s).modPart p Part.invDone with images := im, walkCache := wc } := by
  have run : ¬ (s.part p).tlbInv.getLsbD 63 = true := by rw [hd]; exact Bool.false_ne_true
  exact ⟨_, _, if_neg run⟩

theorem tlbInv_ends {s : State} {p : Nat} (hp : p < 12) (hd : (s.part p).tlbInv.getLsbD 63 = false) :
    ∃ t, exec (.tlbInvDone p) s = .next t ∧ (t.part p).tlbInv = (s.part p).tlbInv ||| 0x8000000000000000#64 ∧
      (∀ b ∈ braidsOf p, ∀ e, e ∈ (t.braid b).tlb ↔ e ∈ (s.braid b).tlb ∧ Spared (s.part p).tlbRun e) ∧ t.mem = s.mem ∧
      (∀ b ∈ braidsOf p, ∀ k < 4, (t.strand b k).r = (s.strand b k).r ∧ ∀ e ∈ (t.strand b k).mtlb, Spared (s.part p).tlbRun e) := by
  obtain ⟨im, wc, hdone⟩ := tlbDone_eq hd
  obtain ⟨hmem, htlb, hstrand⟩ := purges_frame (s.part p).tlbRun (braidsOf p) s
  refine ⟨_, device_next (decide_eq_true hp) hdone, ?_, fun b hb e => ?_, hmem, fun b hb k hk => ?_⟩
  · refine (congrArg Part.tlbInv (State.part_modPart _ p Part.invDone)).trans ?_
    rw [part_purges]
    rfl
  · exact (htlb b e).trans (and_congr_right fun _ => ⟨fun h => h hb, fun h _ => h⟩)
  · exact ⟨(hstrand b k hk).1, fun e he => ((hstrand b k hk).2 e he).2 hb⟩

/-! Page walks and instruction fetches (R63, R81, R83). -/

section Walks
variable {b k va : Nat} {s : State}

theorem walkAdd_frame (s : State) (b : Nat) (q : WalkPtr) : ∃ wc, s.walkAdd b q = { s with walkCache := wc } := by
  unfold State.walkAdd
  dsimp only
  split
  · exact ⟨s.walkCache, rfl⟩
  · exact ⟨_, rfl⟩

theorem walkDone_ok {e : TlbEntry} (h : (s.strand b k).hold = some (.walk va)) (hw : walk s b (recWorld (s.strand b k).slot0.bind) va = .ok e) :
    ∃ wc, walkDone s b k =
      ({ (s.modBraid b (·.tlbAdd e)).modStrand b k (·.tlbAdd e) with walkCache := wc } : State).modStrand b k fun t => { t with hold := none } := by
  simp only [walkDone, h, hw]
  split
  · obtain ⟨wc, hwc⟩ := walkAdd_frame ((s.modBraid b (·.tlbAdd e)).modStrand b k (·.tlbAdd e)) b _
    exact ⟨wc, by rw [hwc]⟩
  · exact ⟨s.walkCache, rfl⟩

theorem walkDone_fault {f : Nat} (h : (s.strand b k).hold = some (.walk va)) (hw : walk s b (recWorld (s.strand b k).slot0.bind) va = .error f) :
    ∃ wc, walkDone s b k =
      ({ s.modStrand b k fun t => { t with walked := t.walked ++ [va / 65536] } with walkCache := wc } : State).modStrand b k
        fun t => { t with hold := none } := by
  simp only [walkDone, h, hw]
  split
  · obtain ⟨wc, hwc⟩ := walkAdd_frame (s.modStrand b k fun t => { t with walked := t.walked ++ [va / 65536] }) b _
    exact ⟨wc, by rw [hwc]⟩
  · exact ⟨s.walkCache, rfl⟩

theorem pageWalk_translates {e : TlbEntry} (on : Claims.OnDie b k) (h : (s.strand b k).hold = some (.walk va))
    (hw : walk s b (recWorld (s.strand b k).slot0.bind) va = .ok e) :
    ∃ t, exec (.pageWalkDone b k) s = .next t ∧ t.braid b = (s.braid b).tlbAdd e ∧ t.strand b k = { (s.strand b k).tlbAdd e with hold := none } ∧
      t.mem = s.mem := by
  obtain ⟨wc, hd⟩ := walkDone_ok h hw
  refine ⟨_, device_next (onDie_eq on) hd, ?_, ?_, rfl⟩
  · exact State.braid_modBraid s b (·.tlbAdd e)
  · refine (State.strand_modStrand _ _ _ _).trans ?_
    exact congrArg (fun t : Strand => { t with hold := none }) (State.strand_modStrand (s.modBraid b (·.tlbAdd e)) b k (·.tlbAdd e))

theorem pageWalk_faults {f : Nat} (on : Claims.OnDie b k) (h : (s.strand b k).hold = some (.walk va))
    (hw : walk s b (recWorld (s.strand b k).slot0.bind) va = .error f) :
    ∃ t, exec (.pageWalkDone b k) s = .next t ∧ t.braids = s.braids ∧ t.mem = s.mem ∧
      t.strand b k = { s.strand b k with hold := none, walked := (s.strand b k).walked ++ [va / 65536] } := by
  obtain ⟨wc, hd⟩ := walkDone_fault h hw
  refine ⟨_, device_next (onDie_eq on) hd, rfl, rfl, ?_⟩
  refine (State.strand_modStrand _ _ _ _).trans ?_
  exact congrArg (fun t : Strand => { t with hold := none })
    (State.strand_modStrand s b k fun t => { t with walked := t.walked ++ [va / 65536] })

theorem fetch_arrives {line : Nat} (on : Claims.OnDie b k) (h : (s.strand b k).hold = some (.fetch line)) :
    exec (.instructionFetchMissDone b k) s =
      .next ((s.modBraid b (·.icAdd (line, recWorld (s.strand b k).slot0.bind))).modStrand b k fun t => { t with hold := none }) := by
  refine device_next (onDie_eq on) ?_
  simp only [fetchDone, h]

end Walks

/-! The supply (R407). -/

section Supply
variable {s : State} {b : Nat}

theorem setSag_alone (v : Bool) (h : (s.braid b).sync = false) : setSag s b v = s.modBraid b fun t => { t with sag := v } := by
  simp only [setSag, h, Bool.false_eq_true, ↓reduceIte]

theorem setSag_pair (v : Bool) (h : (s.braid b).sync = true) :
    ((setSag s b v).braid b).sag = v ∧ ((setSag s b v).braid (partner b)).sag = v := by
  simp only [setSag, h, ↓reduceIte, State.braid_modBraid, State.braid_modBraid_ne _ (partner_ne b).symm, and_self]

end Supply

/-! REGISTER_WRITE: which register a number names (log 5). -/

section Registers
variable {s : State} {u n : Nat} {v : Word}

theorem writeRegister_debug (h : n < 8) : writeRegister s u n v = writeDebug s u n v := if_pos h

theorem writeRegister_world (h1 : 0x40 ≤ n) (h2 : n ≤ 0x45) : writeRegister s u n v = writeWorldReg s u n v := by
  have h : ¬ n < 8 := by omega
  have hw : inWindow n = false := by simp [inWindow]; omega
  simp [writeRegister, h, hw, h1, h2]

theorem writeRegister_part (h1 : 0x80 ≤ n) (h2 : n < 0xD0) : writeRegister s u n v = writePartReg s u n v := by
  have h : ¬ n < 8 := by omega
  have hw : inWindow n = false := by simp [inWindow]; omega
  have hn : ¬ n ≤ 0x45 := by omega
  simp [writeRegister, h, hw, hn, h1, h2]

theorem writeRegister_notify {i : Nat} (h : i < 0xFFF) : writeRegister s u (0x1000 + i) v = writeNotify s u i v := by
  have h8 : ¬ 0x1000 + i < 8 := by omega
  have hw : inWindow (0x1000 + i) = false := by simp [inWindow]; omega
  have hn : ¬ 0x1000 + i ≤ 0x45 := by omega
  have hp : ¬ 0x1000 + i < 0xD0 := by omega
  have hl : 0x1000 + i < 0x1FFF := by omega
  simp [writeRegister, h8, hw, hn, hp, hl]

theorem address48_eq (v : Word) : BitVec.ofNat 64 (v.toNat % 2 ^ 48) = v &&& 0xFFFFFFFFFFFF#64 := by
  have h := bits_mul_eq_and v 0 48
  rw [bits, pow_zero, Nat.div_one, Nat.mul_one, Nat.mul_one] at h
  exact h

/-- Physical function 0 sets a breakpoint address (R357). -/
theorem writeDebug_address (hu : u < 384) (hn : n < 4) : writeDebug s u n v = s.modStrand (u / 4) (u % 4) fun t =>
    { t with dbgAddr := Store.set t.dbgAddr n (v &&& 0xFFFFFFFFFFFF#64) 0 } := by
  have h0 : u / 384 = 0 := Nat.div_eq_of_lt hu
  have hm : u % 384 = u := Nat.mod_eq_of_lt hu
  have hf : ¬ 384 ≤ u := by omega
  simp only [writeDebug, h0, hm, hf, hn, ← address48_eq]
  rfl

/-- The debug window of a world whose unit is not on the strand reaches nothing (R357). -/
theorem writeDebug_empty {w : Nat} (hw : Claims.Vf w) (hu : u < 384) (hs : (s.slotOf (u / 4) (u % 4) 0).st = .empty) : writeDebug s (384 * w + u) n v = s := by
  have hb : (384 * w + u) % 384 / 4 = u / 4 := by omega
  have hk : (384 * w + u) % 4 = u % 4 := by omega
  have h384 : 384 ≤ 384 * w + u := by have := hw.1; omega
  simp only [writeDebug, hb, hk, hs, h384]
  simp

theorem writeWorldReg_features {w : Nat} (hw : w ≤ 192) (hl : s.locked w = false) :
    writeWorldReg s w 0x41 v = s.modWorld w fun t => { t with featMask := v.setWidth 10 } := by
  have hw' : ¬ 192 < w := by omega
  simp only [writeWorldReg, hw', hl]
  rfl

theorem writeWorldReg_locked {w : Nat} (hl : s.locked w = true) : writeWorldReg s w n v = s := by
  simp [writeWorldReg, hl]

theorem writeNotify_allocated {p i : Nat} (hp : p < 12) (hk : lvKind (s.lv p i) ≠ 0) :
    writeNotify s p i v = s.modLv p i fun e => setBits e 128 29 v.toNat := by
  have hp' : ¬ 12 ≤ p := by omega
  simp only [writeNotify, hp', hk, or_self, ↓reduceIte]

theorem writePartReg_quantum {p : Nat} (hp : p < 12) (hn : n < 32) :
    writePartReg s p (0x80 + n) v = s.modPart p fun t => { t with quantum := Store.set t.quantum n (v.setWidth 32) 0 } := by
  have hp' : ¬ 12 ≤ p := by omega
  have hq : 0x80 + n < 0xA0 := by omega
  simp only [writePartReg, hp', hq, ↓reduceIte, Nat.add_sub_cancel_left]

end Registers

/-- Settles O45: each event writes its register, switches its bank or its domain, or ends its translation, as the lemmas above say one by one. -/
theorem registersOfTheDevice : Obligations.RegistersOfTheDevice := by
  refine ⟨?pairSame, ?pairInUse, ?pairSwitches, ?pwrSelect, ?pwrApply, ?wakeLogic, ?wakeBst, ?wakeFabric, ?bankMode, ?bankSwitch, ?tlbStarts, ?tlbFields,
    ?tlbRunning, ?tlbEnds, ?walkOk, ?walkFault, ?fetch, ?shadow, ?logs, ?sagAlone, ?sagPair, ?debugOwn, ?debugWindow, ?features, ?locked, ?notify, ?quantum⟩
  case pairSame => exact fun b v s hb h => device_next (decide_eq_true hb) (writePair_same none h)
  case pairInUse =>
    rintro b v s hb h ⟨k, hk, e, he, hst⟩
    have used : s.anyRecord b = true :=
      List.any_eq_true.mpr ⟨k, List.mem_range.mpr hk, List.any_eq_true.mpr ⟨e, he, by simpa using hst⟩⟩
    exact device_next (decide_eq_true hb) (writePair_inUse h used)
  case pairSwitches => exact fun b v s hb h hr hp hf => pairSync_switches hb h hr hp hf
  case pwrSelect => exact fun b v s hb => device_next (decide_eq_true hb) (writePwr_select s b v)
  case pwrApply =>
    intro b v s hb target
    refine ⟨fun ht => ?_, fun ht hp => ?_, fun ht hp hu hl h4 => ?_, fun ht hp hr => pwrGate_all hb rfl ht hp hr,
      fun ht hp hr hu hg => pwrGate_none hb rfl ht hp hr hu hg⟩
    · exact device_next (decide_eq_true hb) (writePwr_refused (pwrRefusal_invalid ht) (Nat.succ_ne_zero 2))
    · exact device_next (decide_eq_true hb) (writePwr_refused (pwrRefusal_denied ht hp) (Nat.succ_ne_zero 1))
    · have busy := pwrRefusal_busy (s := s.modBraid b (Braid.asked v)) ht hp (by rw [logicInUse_asked]; exact hu) (by rw [logicOn_asked]; exact hl)
        (bits_even h4)
      exact device_next (decide_eq_true hb) (writePwr_refused busy (Nat.succ_ne_zero 0))
  case wakeLogic => exact fun b s hb h => device_next (decide_eq_true hb) (wakeDone_logic h)
  case wakeBst => exact fun b s hb h => device_next (decide_eq_true hb) (wakeDone_bst h)
  case wakeFabric => exact fun b g s hb hg h => fabric_wakes hb hg h
  case bankMode =>
    intro b v s hb hl n req
    refine ⟨fun hn => bankMode_invalid hb hl hn, fun hn hr hm hc hw hv => bankMode_pends hb hl (bankOutcome_cache hn hr hm hc hw hv),
      fun hn hr hm he hw hv => bankMode_switches hb hl (bankOutcome_pad hn hr hm he hw hv), fun hn hr hm he hf hw hv => ?_⟩
    obtain ⟨t, ht, hmode, hreq, _, hother, hmem, _⟩ := bankMode_switches hb hl (bankOutcome_fifo hn hr hm he hf hw hv)
    exact ⟨t, ht, hmode, hreq, hother, hmem⟩
  case bankSwitch => exact fun b n w s hb hw he hc => bankSwitch_ends hb hw he hc
  case tlbStarts => exact fun p v s hp hd hv => device_next (decide_eq_true hp) (tlbGo_starts hd hv)
  case tlbFields => exact fun p v s hp hd hv => device_next (decide_eq_true hp) (tlbGo_fields hd hv)
  case tlbRunning => exact fun p v s hp hd => device_next (decide_eq_true hp) (tlbGo_running hd)
  case tlbEnds => exact fun p s hp hd => tlbInv_ends hp hd
  case walkOk => exact fun b k va e s on h hw => pageWalk_translates on h hw
  case walkFault => exact fun b k va f s on h hw => pageWalk_faults on h hw
  case fetch => exact fun b k line s on h => fetch_arrives on h
  case shadow => exact fun b s hb => device_next (decide_eq_true hb) rfl
  case logs => exact fun s => ⟨rfl, rfl⟩
  case sagAlone =>
    exact fun b s hb h => ⟨device_next (decide_eq_true hb) (setSag_alone true h), device_next (decide_eq_true hb) (setSag_alone false h)⟩
  case sagPair =>
    exact fun b s hb h => ⟨⟨_, device_next (decide_eq_true hb) rfl, setSag_pair true h⟩, ⟨_, device_next (decide_eq_true hb) rfl, setSag_pair false h⟩⟩
  case debugOwn =>
    exact fun u n v s hu hn => device_next rfl ((writeRegister_debug (Nat.lt_of_lt_of_le hn (Nat.le_add_left 4 4))).trans (writeDebug_address hu hn))
  case debugWindow => exact fun w u n v s hw hu hn hs => device_next rfl ((writeRegister_debug hn).trans (writeDebug_empty hw hu hs))
  case features =>
    exact fun w v s hw hl => device_next rfl ((writeRegister_world (Nat.le_add_right 0x40 1) (Nat.le_add_right 0x41 4)).trans (writeWorldReg_features hw hl))
  case locked => exact fun w n v s _ hl h1 h2 => device_next rfl ((writeRegister_world h1 h2).trans (writeWorldReg_locked hl))
  case notify => exact fun p i v s hp hi hk => device_next rfl ((writeRegister_notify hi).trans (writeNotify_allocated hp hk))
  case quantum =>
    exact fun p n v s hp hn => device_next rfl ((writeRegister_part (Nat.le_add_right 0x80 n) (by omega)).trans (writePartReg_quantum hp hn))

end Sys2Proof.Machine.Organisation
end

section
/-!
Operations that nothing stops and whose result is awaited with its value there (R75, R184), and the FIFO banks (R70, R257, R303). The lemmas of O21.
-/

namespace Sys2Proof.Machine.MemoryRules
open Sys2Proof.Machine.Organisation

/-! One operation that nothing stops (R161, R184). -/

/-- The operation runs, has no cause to trap, waits on nothing but its FIFO if it names one, and does nothing beside its effect. -/
structure Clear (o : SlotOp) : Prop where
  runs : o.runs = true
  traps : o.traps = []
  early : o.early = [] := by rfl
  walks : o.walks = [] := by rfl
  stage1 : o.stage1 = false := by rfl
  wait : o.wait = false := by rfl
  soon : o.soon = false := by rfl
  pre : o.pre = id := by rfl
  post : o.post = id := by rfl
  safe : o.safe = none := by rfl
  flow : o.flow = .seq := by rfl

theorem Clear.straight {o : SlotOp} (c : Clear o) : Straight o := ⟨c.runs, c.post, c.safe, c.flow⟩

theorem Clear.unhindered {o : SlotOp} (c : Clear o) (x : Ctx) : Unhindered x o := ⟨by simp [c.walks], c.stage1⟩

section One
variable {i : Instr} {op : Ctx → SlotOp} {s : State}

theorem issueOne_clear (q : Quiet s) (c : Clear (op (s.ctx i))) (hf : fifoShort (s.ctx i) [op (s.ctx i)] = none)
    (hb : fifoBehind (s.ctx i) [op (s.ctx i)] = none) : issueOne i op s = .next (commit (s.ctx i) [op (s.ctx i)] s) :=
  issueOne_commits q (c.unhindered _) c.runs c.early c.traps c.pre c.wait c.soon hf hb

/-- An operation that changes the machine alone, and not its strand. -/
theorem effects_of_clear (q : Quiet s) (hexec : exec i s = issueOne i op s) (c : Clear (op (s.ctx i))) (hf : fifoShort (s.ctx i) [op (s.ctx i)] = none)
    (hb : fifoBehind (s.ctx i) [op (s.ctx i)] = none) {u : State} (heff : (op (s.ctx i)).eff s = u) (hh : u.strand s.cur.1 s.cur.2 = s.here) :
    Effects i s (op (s.ctx i)).slot (op (s.ctx i)).cls u :=
  (hexec.trans (issueOne_clear q c hf hb)).trans (congrArg _ (commit_effects q c.straight (fun _ => by rw [heff]) hh))

/-- Awaited results whose values are there land as any results do, and nothing is awaited any more (R75). -/
theorem arrived_after {t : Strand} (h : t.sbd = []) {v : Sbd} (htok : v.tok = none) (hreq : v.req = none) (n : Nat) (r : Regs) (c : Ctl) (iss : Store Nat) :
    ({ t.after n r c iss with sbd := [v] } : Strand).arrived = t.after n (v.effs.foldl Regs.land r) (v.effs.foldl Ctl.land c) iss := by
  have hnone : ([v].filter fun w => w.tok.isSome || w.req.isSome) = [] := by simp [htok, hreq]
  have hall : ([v].filter fun w => w.tok.isNone && w.req.isNone) = [v] := by simp [htok, hreq]
  unfold Strand.arrived
  simp only [hnone, hall, List.flatMap_singleton]
  refine (Strand.landAll_eq v.effs _).trans ?_
  simp only [Strand.after, h]

/-- An operation that changes the machine to u and leaves a result to be awaited whose value is there. -/
theorem arrives_of_clear (q : Quiet s) (hexec : exec i s = issueOne i op s) (c : Clear (op (s.ctx i))) (hf : fifoShort (s.ctx i) [op (s.ctx i)] = none)
    (hb : fifoBehind (s.ctx i) [op (s.ctx i)] = none) {u : State} {v : Sbd} (htok : v.tok = none) (hreq : v.req = none)
    (heff : (op (s.ctx i)).eff s = u.modStrand s.cur.1 s.cur.2 (·.addSbd v)) (hh : u.strand s.cur.1 s.cur.2 = s.here) :
    Arrives i s (op (s.ctx i)).slot (op (s.ctx i)).cls u (v.effs.foldl Regs.land s.here.r) (v.effs.foldl Ctl.land (s.ctx i).stepped) := by
  have hu : (u.modStrand s.cur.1 s.cur.2 (·.addSbd v)).strand s.cur.1 s.cur.2 = { s.here with r := s.here.r, c := s.here.c, sbd := [v] } := by
    rw [State.strand_modStrand, hh, Strand.addSbd, q.arrived]
    rfl
  refine ⟨_, (hexec.trans (issueOne_clear q c hf hb)).trans (congrArg _ (commit_effect q c.straight heff hu rfl rfl)), ?_⟩
  rw [modStrand_modStrand, modStrand_modStrand]
  refine modStrand_congr _ _ _ ?_
  rw [hh]
  exact arrived_after (t := s.here) q.arrived htok hreq _ _ _ _

/-- Where an operation with the given causes traps: the first of them, if it runs and none comes of its decoding. -/
theorem traps_of_causes (q : Quiet s) (hexec : exec i s = issueOne i op s) (h : Unhindered (s.ctx i) (op (s.ctx i))) (hr : (op (s.ctx i)).runs = true)
    (he : (op (s.ctx i)).early = []) {u : Trap} (hu : firstTrap (op (s.ctx i)).traps = some u) : Traps i s u := by
  refine hexec.trans (issueOne_traps q h ?_)
  simpa [bundleTrap, sameDest, he, hr, trapIf] using hu

end One

/-! The checks and the entries of a FIFO bank (R69, R70, R257). -/

section Bank
variable {x : Ctx} {q : Nat}

/-- The bank is in FIFO mode, is not being switched, and holds nothing of another world. -/
structure BankOpen (x : Ctx) (q : Nat) : Prop where
  there : q < 24
  mode : x.br.bankModeOf q = 2
  still : x.br.switching q = false
  tag : Store.get x.br.bankTag q x.world = x.world

theorem fifoTraps_open (h : BankOpen x q) (slot : Nat) : x.fifoTraps slot q = [] := by
  have : ¬ 23 < q := Nat.not_lt.mpr (Nat.le_of_lt_succ h.there)
  simp [Ctx.fifoTraps, this, h.mode, h.still, h.tag, trapIf]

theorem fifoTraps_mode (h : 24 ≤ q ∨ x.br.bankModeOf q ≠ 2) (slot : Nat) : x.fifoTraps slot q = [{ cause := 0x15, step := 6, slot := slot }] := by
  have : 23 < q ∨ x.br.bankModeOf q ≠ 2 := h
  rcases this with h | h <;> simp [Ctx.fifoTraps, h]

theorem fifoLen_bank (h : q < 24) : x.fifoLen q = ((x.br.fifoOf q).length, 256) := if_pos (Nat.lt_trans h (by decide))

theorem fifoShort_pop {o : SlotOp} (ho : o.fifo = some q) (hp : o.pop = true) (hq : q < 24) {v : Row} {rest : List Row}
    (h : x.br.fifoOf q = v :: rest) : fifoShort x [o] = none := by
  rw [fifoShort_one ho, hp, fifoLen_bank hq, h]
  rfl

theorem fifoShort_pop_empty {o : SlotOp} (ho : o.fifo = some q) (hp : o.pop = true) (hq : q < 24) (h : x.br.fifoOf q = []) :
    fifoShort x [o] = some (q, true) := by
  rw [fifoShort_one ho, hp, fifoLen_bank hq, h]
  rfl

theorem fifoShort_push {o : SlotOp} (ho : o.fifo = some q) (hp : o.pop = false) (hq : q < 24) (h : (x.br.fifoOf q).length < 256) :
    fifoShort x [o] = none := by
  rw [fifoShort_one ho, hp, fifoLen_bank hq]
  exact if_neg fun hle => absurd (of_decide_eq_true hle) (Nat.not_le.mpr h)

/-- A bank its oldest entry has left: the last one takes the tag with it (R70). -/
def Braid.popped (t : Braid) (q : Nat) (rest : List Row) : Braid :=
  { t with fifo := Store.set t.fifo q rest [], bankTag := if rest = [] then Store.del t.bankTag q else t.bankTag, fifoBad := Store.del t.fifoBad q }

/-- A bank with a new entry: the first one gives it the tag (R70). -/
def Braid.pushed (t : Braid) (q : Nat) (v : Row) (w : Nat) : Braid :=
  { t with fifo := Store.put t.fifo q (t.fifoOf q ++ [v]), bankTag := if t.fifoOf q = [] then Store.put t.bankTag q w else t.bankTag }

/-- What a strand awaits of a pop (R75). -/
def awaitsRow (q t i : Nat) (v m : Row) : Sbd := { dests := [.row t i], effs := [.tile t i v m], tok := none, req := none, due := none, fifo := some q }

/-- A pop of a bank with no bad entry: the bank's oldest entry leaves it for the tile row. -/
theorem popBank_eq {s : State} {v : Row} {rest : List Row} (h : (s.braid x.b).fifoOf q = v :: rest) (hbad : Store.has (s.braid x.b).fifoBad q = false)
    (t i : Nat) (m : Row) : x.popBank q t i m s =
      (s.setBraid x.b (Braid.popped (s.braid x.b) q rest)).modStrand x.b x.k (·.addSbd (awaitsRow q t i v m)) := by
  have hlast : (if rest.isEmpty = true then Store.del (s.braid x.b).bankTag q else (s.braid x.b).bankTag) =
      if rest = [] then Store.del (s.braid x.b).bankTag q else (s.braid x.b).bankTag := by simp only [List.isEmpty_iff]
  simp only [Ctx.popBank, h, hbad, Ctx.mod, Bool.false_eq_true, ↓reduceIte, List.append_nil, modStrand_modStrand, State.modBraid, hlast]
  rfl

theorem pushBank_eq (v : Row) (s : State) : x.pushBank q v s = s.setBraid x.b (Braid.pushed (s.braid x.b) q v x.world) := by
  simp only [Ctx.pushBank, State.modBraid, List.isEmpty_iff]
  rfl

end Bank

section Pops
variable {i : Instr} {op : Ctx → SlotOp} {s : State} {q : Nat}

/-- Any operation that pops an open bank with an entry: the entry comes to the row (R257, R303). -/
theorem pop_arrives (hq : Quiet s) (hexec : exec i s = issueOne i op s) (c : Clear (op (s.ctx i))) (hf : (op (s.ctx i)).fifo = some q)
    (hp : (op (s.ctx i)).pop = true) (ho : BankOpen (s.ctx i) q) {v : Row} {rest : List Row} (hv : (s.ctx i).br.fifoOf q = v :: rest)
    (hbad : Store.has (s.ctx i).br.fifoBad q = false) (halone : ∀ k < 4, (s.strand s.cur.1 k).fifoWait = none) {t j : Nat} {m : Row}
    (heff : (op (s.ctx i)).eff = (s.ctx i).popBank q t j m) :
    Arrives i s (op (s.ctx i)).slot (op (s.ctx i)).cls (s.setBraid s.cur.1 (Braid.popped (s.ctx i).br q rest)) (s.here.r.setTileRow t j v m) (s.ctx i).stepped := by
  have he : (op (s.ctx i)).eff s = (s.setBraid s.cur.1 (Braid.popped (s.ctx i).br q rest)).modStrand s.cur.1 s.cur.2 (·.addSbd (awaitsRow q t j v m)) := by
    rw [heff]
    exact popBank_eq hv hbad t j m
  exact arrives_of_clear hq hexec c (fifoShort_pop hf hp ho.there hv) (fifoBehind_alone _ halone) (v := awaitsRow q t j v m) rfl rfl he rfl

/-- Any operation that pushes to an open bank with room: the row stands last (R257, R303). -/
theorem push_effects (hq : Quiet s) (hexec : exec i s = issueOne i op s) (c : Clear (op (s.ctx i))) (hf : (op (s.ctx i)).fifo = some q)
    (hp : (op (s.ctx i)).pop = false) (ho : BankOpen (s.ctx i) q) (hroom : ((s.ctx i).br.fifoOf q).length < 256) {v : Row}
    (heff : (op (s.ctx i)).eff = (s.ctx i).pushBank q v) :
    Effects i s (op (s.ctx i)).slot (op (s.ctx i)).cls (s.setBraid s.cur.1 (Braid.pushed (s.ctx i).br q v (s.ctx i).world)) :=
  effects_of_clear hq hexec c (fifoShort_push hf hp ho.there hroom) (fifoBehind_push hp) (by rw [heff]; exact pushBank_eq v s) rfl

end Pops

/-! LDTF and STTF (R257). -/

section Rows
variable {f : FmtMT} {x : Ctx}

/-- The bank is the operand and the long immediate, the offset being zero. -/
theorem bankNo_eq : x.bankNo f = Claims.eaOf x f.base 0 0 f.lng := by
  unfold Ctx.bankNo Claims.eaOf
  cases f.lng <;> rfl

theorem ldtf_clear (rd : x.ready f.pred [f.base]) (hoff : f.off = 0) (h : BankOpen x (x.bankNo f)) : Clear (ldtfOp f x) where
  runs := rd.1
  traps := by simp [ldtfOp, latchTraps_nil rd.2, fifoOffTraps, hoff, trapIf, fifoTraps_open h]

theorem sttf_clear (rd : x.ready f.pred [f.base]) (hoff : f.off = 0) (h : BankOpen x (x.bankNo f)) : Clear (sttfOp f x) where
  runs := rd.1
  traps := by simp [sttfOp, latchTraps_nil rd.2, fifoOffTraps, hoff, trapIf, fifoTraps_open h]

theorem ldtf_unhindered : Unhindered x (ldtfOp f x) := ⟨by simp [ldtfOp], rfl⟩

theorem ldtf_stalls {s : State} (q : Quiet s) (rd : (s.ctx (.ldtf f)).ready f.pred [f.base]) (hoff : f.off = 0)
    (h : BankOpen (s.ctx (.ldtf f)) ((s.ctx (.ldtf f)).bankNo f)) (he : (s.ctx (.ldtf f)).br.fifoOf ((s.ctx (.ldtf f)).bankNo f) = []) :
    Stalls (.ldtf f) s (s.modStrand s.cur.1 s.cur.2 (·.waitFifo ((s.ctx (.ldtf f)).bankNo f, true))) :=
  have c := ldtf_clear rd hoff h
  (issueOne_short (i := .ldtf f) (op := ldtfOp f) q ldtf_unhindered c.runs c.early c.traps rfl (fifoShort_pop_empty rfl rfl h.there he)).trans
    (congrArg _ (stalls_fifo q _))

theorem ldtf_traps {s : State} (q : Quiet s) (rd : (s.ctx (.ldtf f)).ready f.pred [f.base]) (hoff : f.off = 0)
    (h : 24 ≤ (s.ctx (.ldtf f)).bankNo f ∨ (s.ctx (.ldtf f)).br.bankModeOf ((s.ctx (.ldtf f)).bankNo f) ≠ 2) :
    Traps (.ldtf f) s { cause := 0x15, step := 6, slot := 3 } := by
  refine traps_of_causes (op := ldtfOp f) q rfl ldtf_unhindered rd.1 rfl ?_
  simp [ldtfOp, latchTraps_nil rd.2, fifoOffTraps, hoff, trapIf, fifoTraps_mode h, firstTrap]

end Rows

/-! VMOV from and to a bank (R303). -/

section Moves
variable {f : FmtV} {x : Ctx}

theorem vmovPop_clear (rd : x.ready f.pred []) (h : BankOpen x (x.vbank f)) : Clear (vmovPopOp f x) where
  runs := rd.1
  traps := fifoTraps_open h 4

theorem vmovPush_clear (rd : x.ready f.pred []) (h : BankOpen x (x.vbank f)) : Clear (vmovPushOp f x) where
  runs := rd.1
  traps := fifoTraps_open h 4

end Moves

/-- Settles O21: the bank's state decides, through the FIFO stage of R184, whether an operation pops or pushes, stalls or traps. -/
theorem fifoBanksComplete : Obligations.FifoBanksComplete := by
  refine ⟨?ldtf, ?sttf, ?vmovPop, ?vmovPush, ?waitsOrTraps⟩
  case ldtf =>
    intro f s v rest q rd hoff
    simp only [← bankNo_eq]
    intro hn hm hs ht hv hbad halone
    have ho : BankOpen (s.ctx (.ldtf f)) ((s.ctx (.ldtf f)).bankNo f) := ⟨hn, hm, hs, ht⟩
    exact pop_arrives (op := ldtfOp f) q rfl (ldtf_clear rd hoff ho) rfl rfl ho hv hbad halone rfl
  case sttf =>
    intro f s q rd hoff
    simp only [← bankNo_eq]
    intro hn hm hs ht hroom
    have ho : BankOpen (s.ctx (.sttf f)) ((s.ctx (.sttf f)).bankNo f) := ⟨hn, hm, hs, ht⟩
    exact push_effects (op := sttfOp f) q rfl (sttf_clear rd hoff ho) rfl rfl ho hroom rfl
  case vmovPop =>
    intro f s v rest q rd x n hn hm hs ht hv hbad halone
    have ho : BankOpen x (x.vbank f) := ⟨hn, hm, hs, ht⟩
    exact pop_arrives (op := vmovPopOp f) q rfl (vmovPop_clear rd ho) rfl rfl ho hv hbad halone rfl
  case vmovPush =>
    intro f s q rd x n hn hm hs ht hroom
    have ho : BankOpen x (x.vbank f) := ⟨hn, hm, hs, ht⟩
    exact push_effects (op := vmovPushOp f) q rfl (vmovPush_clear rd ho) rfl rfl ho hroom rfl
  case waitsOrTraps =>
    intro f s q rd hoff
    simp only [← bankNo_eq]
    exact ⟨fun hn hm hs ht he => ldtf_stalls q rd hoff ⟨hn, hm, hs, ht⟩ he, ldtf_traps q rd hoff⟩

end Sys2Proof.Machine.MemoryRules
end

section
/-!
SLAB operations (R71, R72, R264, R265). The lemmas of O23.
-/

namespace Sys2Proof.Machine.MemoryRules
open Sys2Proof.Machine.Organisation

/-! What a SLAB operation leaves: a machine and a status (R265). -/

section Scalar
variable {f : FmtMSl} {s : State}

theorem slab_clear {x : Ctx} (rd : x.ready f.pred [f.x]) (go : State → State × Word) : Clear (slabOp f x go) where
  runs := rd.1
  traps := latchTraps_nil rd.2

/-- What a strand awaits of a scalar result of slot M (R75). -/
def awaitsScalar (cell g : Nat) (v : Word) : Sbd :=
  { dests := [.x cell, .latch 3], effs := [.x cell v, .latch 3 v g], tok := none, req := none, due := none }

/-- A SLAB operation that changes the machine to u, its strand apart, and answers v. -/
theorem slab_arrives {i : Instr} {go : Ctx → State → State × Word} (q : Quiet s) (hexec : exec i s = issueOne i (fun x => slabOp f x (go x)) s)
    (rd : (s.ctx i).ready f.pred [f.x]) {u : State} {v : Word} (hgo : go (s.ctx i) s = (u, v)) (hh : u.strand s.cur.1 s.cur.2 = s.here) :
    Claims.ArrivesX i s u f.dst (some 5) v := by
  have heff : (slabOp f (s.ctx i) (go (s.ctx i))).eff s =
      u.modStrand s.cur.1 s.cur.2 (·.addSbd (awaitsScalar ((s.ctx i).r.cellX f.dst.toNat) (s.ctx i).st.c.gen v)) := by
    simp only [slabOp, hgo]
    rfl
  have hlatch : Ctl.land (s.ctx i).stepped (.latch 3 v (s.ctx i).st.c.gen) = (s.ctx i).stepped.latched 3 v := if_pos rfl
  have harr := arrives_of_clear (op := fun x => slabOp f x (go x)) q hexec (slab_clear rd _) rfl rfl (u := u)
    (v := awaitsScalar ((s.ctx i).r.cellX f.dst.toNat) (s.ctx i).st.c.gen v) rfl rfl heff hh
  unfold Claims.ArrivesX
  rw [← hlatch]
  exact harr

end Scalar

/-! Definition (R71, R264). -/

section Define
variable {s : State} {b k w : Nat} {v : Word}

/-- A slab word that SLAB.DEF takes, and a bank it can be defined in (R264). -/
structure MayDefine (s : State) (b w : Nat) (v : Word) : Prop where
  high : bits v 32 32 = 0
  low : bits v 0 4 = 0
  sized : 0 < bits v 4 9
  inside : bits v 13 8 + bits v 4 9 ≤ 256
  there : bits v 21 5 < 24
  tag : Store.get (s.braid b).bankTag (bits v 21 5) w = w
  free : slabSize ((s.braid b).slabOf (bits v 26 6)) = 0
  still : (s.braid b).switching (bits v 21 5) = false
  unreserved : s.bankReserved b (bits v 21 5) = false
  mode : (s.braid b).bankModeOf (bits v 21 5) = 1
  last : Store.get (s.braid b).bankLast (bits v 21 5) w = w
  apart : ∀ i < 64, slabSize ((s.braid b).slabOf i) ≠ 0 → slabBank ((s.braid b).slabOf i) = bits v 21 5 →
    bits v 13 8 + bits v 4 9 ≤ slabOffset ((s.braid b).slabOf i) ∨
      slabOffset ((s.braid b).slabOf i) + slabSize ((s.braid b).slabOf i) ≤ bits v 13 8

/-- No defined slab of the bank overlaps the new one. -/
theorem MayDefine.no_overlap (h : MayDefine s b w v) : ((s.braid b).slabsIn (bits v 21 5)).any (fun i =>
    bits v 13 8 < slabOffset ((s.braid b).slabOf i) + slabSize ((s.braid b).slabOf i) &&
      slabOffset ((s.braid b).slabOf i) < bits v 13 8 + bits v 4 9) = false := by
  rw [List.any_eq_false]
  intro i hi
  simp only [Braid.slabsIn, List.mem_filter, List.mem_range, Bool.and_eq_true, bne_iff_ne, ne_eq, beq_iff_eq] at hi
  obtain ⟨hlt, hsize, hbank⟩ := hi
  have := h.apart i hlt hsize hbank
  simp only [Bool.and_eq_true, decide_eq_true_eq, not_and, not_lt]
  omega

theorem defStatus_done (h : MayDefine s b w v) : defStatus s b w v = 0 := by
  have hpos := h.sized
  have hin := h.inside
  have word : (bits v 32 32 != 0 || bits v 0 4 != 0 || bits v 4 9 == 0 || decide (256 < bits v 4 9) || decide (256 < bits v 13 8 + bits v 4 9) ||
      decide (23 < bits v 21 5)) = false := by
    have := h.there
    simp only [h.high, h.low, bne_self_eq_false, Bool.false_or, Bool.or_eq_false_iff, beq_eq_false_iff_ne, ne_eq, decide_eq_false_iff_not]
    omega
  have overlap := h.no_overlap
  simp only [defStatus, word, h.tag, h.free, h.still, h.unreserved, h.mode, h.last, overlap]
  simp

theorem slabDefine_done (h : MayDefine s b w v) : slabDefine s b k w v false = (s.setBraid b { s.braid b with
    slab := Store.put (s.braid b).slab (bits v 26 6) (mkSlab w 0 k (bits v 4 9) (bits v 13 8) (bits v 21 5))
    bankTag := Store.put (s.braid b).bankTag (bits v 21 5) w, bankLast := Store.del (s.braid b).bankLast (bits v 21 5) }, 0) := by
  simp only [slabDefine, defStatus_done h]
  rfl

end Define

/-! Changes of a slab by its owner (R72, R265). -/

section Change
variable {s : State} {b k w id sub : Nat}

theorem slabChange_undefined (h : slabSize ((s.braid b).slabOf id) = 0) : slabChange s b k w id sub = (s, 6) := if_pos h

theorem slabChange_foreign (h : slabSize ((s.braid b).slabOf id) ≠ 0) (hw : slabWorld ((s.braid b).slabOf id) ≠ w) :
    slabChange s b k w id sub = (s, 8) := by
  simp only [slabChange, h, hw, ne_eq, not_false_eq_true, ↓reduceIte]

theorem slabChange_other (h : slabSize ((s.braid b).slabOf id) ≠ 0) (hw : slabWorld ((s.braid b).slabOf id) = w)
    (hk : slabOwner ((s.braid b).slabOf id) ≠ k) : slabChange s b k w id sub = (s, 7) := by
  simp only [slabChange, h, hw, hk, ne_eq, not_true_eq_false, not_false_eq_true, ↓reduceIte]

/-- The states a change takes a slab from, and the braid it leaves: SUB 1 releases, 3 makes ready, any other empties. -/
def changeFrom (sub : Nat) : List Nat := match sub with | 1 => [0, 2, 4] | 3 => [0] | _ => [2, 4]
def Braid.changed (t : Braid) (sub id : Nat) : Braid :=
  match sub with
  | 1 => t.freeSlab id
  | 3 => t.setSlabState id 2
  | _ => t.setSlabState id 0

/-- What the owner's change does: it takes effect from the states it is for, and is BUSY from the others. -/
theorem slabChange_own (h : slabSize ((s.braid b).slabOf id) ≠ 0) (hw : slabWorld ((s.braid b).slabOf id) = w)
    (hk : slabOwner ((s.braid b).slabOf id) = k) : slabChange s b k w id sub =
      if slabState ((s.braid b).slabOf id) ∈ changeFrom sub then (s.setBraid b (Braid.changed (s.braid b) sub id), 0) else (s, 1) := by
  simp only [slabChange, h, hw, hk, ne_eq, not_true_eq_false, ↓reduceIte]
  unfold changeFrom Braid.changed State.modBraid
  split <;> simp [or_assoc]

/-- What REL, RDY and EMP do, SUB telling which. -/
def changeGo (sub : Nat) (f : FmtMSl) (x : Ctx) (s : State) : State × Word :=
  ((slabChange s x.b x.k x.world (x.slabId f) sub).1, BitVec.ofNat 64 (slabChange s x.b x.k x.world (x.slabId f) sub).2)

end Change

/-- What DEF and QRY do. -/
def defineGo (f : FmtMSl) (x : Ctx) (s : State) : State × Word :=
  ((slabDefine s x.b x.k x.world (x.opnd f.x) false).1, BitVec.ofNat 64 (slabDefine s x.b x.k x.world (x.opnd f.x) false).2)
def queryGo (f : FmtMSl) (x : Ctx) (s : State) : State × Word :=
  let e := (s.braid x.b).slabOf (x.slabId f)
  (s, if slabSize e = 0 ∨ slabWorld e ≠ x.world then 0 else e)

theorem slabId_eq (x : Ctx) (f : FmtMSl) : x.slabId f = (x.opnd f.x).toNat % 64 := by simp [Ctx.slabId, bits]

/-- Any of REL, RDY and EMP: its status, and what it leaves, by the slab's entry. -/
theorem change_arrives {i : Instr} {f : FmtMSl} {s : State} (q : Quiet s) (sub : Nat)
    (hexec : exec i s = issueOne i (fun x => slabOp f x (changeGo sub f x)) s) (rd : (s.ctx i).ready f.pred [f.x]) :
    let x := s.ctx i
    let id := (x.opnd f.x).toNat % 64
    let e := x.br.slabOf id
    (slabSize e = 0 → Claims.ArrivesX i s s f.dst (some 5) 6) ∧
    (slabSize e ≠ 0 → slabWorld e ≠ x.world → Claims.ArrivesX i s s f.dst (some 5) 8) ∧
    (slabSize e ≠ 0 → slabWorld e = x.world → slabOwner e ≠ s.cur.2 → Claims.ArrivesX i s s f.dst (some 5) 7) ∧
    (slabSize e ≠ 0 → slabWorld e = x.world → slabOwner e = s.cur.2 → slabState e ∈ changeFrom sub →
      Claims.ArrivesX i s (s.setBraid s.cur.1 (Braid.changed x.br sub id)) f.dst (some 5) 0) ∧
    (slabSize e ≠ 0 → slabWorld e = x.world → slabOwner e = s.cur.2 → slabState e ∉ changeFrom sub → Claims.ArrivesX i s s f.dst (some 5) 1) := by
  intro x id e
  have answers {u : State} {c : Nat} (hc : slabChange s s.cur.1 s.cur.2 x.world id sub = (u, c)) (hh : u.strand s.cur.1 s.cur.2 = s.here) :
      Claims.ArrivesX i s u f.dst (some 5) (BitVec.ofNat 64 c) := by
    refine slab_arrives q hexec rd ?_ hh
    show changeGo sub f x s = _
    rw [changeGo, slabId_eq]
    exact congrArg (fun z : State × Nat => (z.1, BitVec.ofNat 64 z.2)) hc
  refine ⟨fun h => answers (slabChange_undefined h) rfl, fun h hw => answers (slabChange_foreign h hw) rfl,
    fun h hw hk => answers (slabChange_other h hw hk) rfl, fun h hw hk hs => ?_, fun h hw hk hs => ?_⟩
  · exact answers ((slabChange_own h hw hk).trans (if_pos hs)) rfl
  · exact answers ((slabChange_own h hw hk).trans (if_neg hs)) rfl

/-- Settles O23: the operation's status and the entry it leaves decide the result, which is awaited as any of slot M is. -/
theorem slabOperationsComplete : Obligations.SlabOperationsComplete := by
  refine ⟨?define, ?query, ?change⟩
  case define =>
    intro f s q rd x v id bank off size hhigh hlow hsize hin hbank htag hfree hstill hres hmode hlast hapart
    have may : MayDefine s s.cur.1 x.world v := ⟨hhigh, hlow, hsize, hin, hbank, htag, hfree, hstill, hres, hmode, hlast, hapart⟩
    refine slab_arrives (go := defineGo f) q rfl rd ?_ rfl
    exact congrArg (fun z : State × Nat => (z.1, BitVec.ofNat 64 z.2)) (slabDefine_done (k := s.cur.2) may)
  case query =>
    intro f s q rd x e
    refine slab_arrives (go := queryGo f) q rfl rd ?_ rfl
    simp only [queryGo, slabId_eq, Prod.mk.injEq, true_and]
    show (if slabSize e = 0 ∨ slabWorld e ≠ x.world then 0 else e) = if slabSize e ≠ 0 ∧ slabWorld e = x.world then e else 0
    by_cases h : slabSize e ≠ 0 ∧ slabWorld e = x.world
    · rw [if_pos h, if_neg (by simpa using h)]
    · rw [if_neg h, if_pos (by tauto)]
  case change =>
    intro c hc f s q rd
    simp only [List.mem_cons, List.not_mem_nil, or_false] at hc
    rcases hc with rfl | rfl | rfl
    · exact change_arrives q 3 rfl rd
    · exact change_arrives q 4 rfl rd
    · exact change_arrives q 1 rfl rd

end Sys2Proof.Machine.MemoryRules
end

section
/-!
Token operations of slot E (R83, R85, R95, R134, R266, R276 to R278). The lemmas of O41.
-/

namespace Sys2Proof.Machine.MemoryRules
open Sys2Proof.Machine.Organisation

/-! A bundle whose operation also uses a translation (R81): the strand's micro-TLB changes with what it awaits. -/

section Translated
variable {i : Instr} {s : State}

theorem endBundle_translated (q : Quiet s) (o : SlotOp) (m : List TlbEntry) (b : List Sbd) :
    (s.ctx i).endBundle [o] .seq false { s.here with mtlb := m, sbd := b } =
      ({ s.here with mtlb := m, sbd := b } : Strand).after (s.ctx i).cycles s.here.r (s.ctx i).stepped ((s.ctx i).issOf o.slot o.cls) := by
  have hback : backEdges (s.ctx i).pc 7 s.here.c s.here.r (s.ctx i).next false = (s.here.c, s.here.r, (s.ctx i).next, false) := q.backEdges _ _ _ _
  have hiss : (s.ctx i).issAfter o { s.here with mtlb := m, sbd := b } = (s.ctx i).issOf o.slot o.cls := by
    unfold Ctx.issAfter Ctx.issOf
    cases o.cls <;> rfl
  rw [Ctx.endBundle_one _ _ _ _ (by exact q.noRequest)]
  simp only [Strand.go, hback, Bool.or_self, Bool.false_eq_true, ↓reduceIte, hiss]
  refine (Strand.ticks_nil _ _ (by exact q.landed)).trans ?_
  simp only [Strand.after, Ctx.stepped, q.whole.1, q.whole.2, Ctx.cycles_pos, Bool.and_false]
  rfl

theorem commit_translated (q : Quiet s) {o : SlotOp} (ho : Straight o) {u : State} (hu : o.eff s = u) {m : List TlbEntry} {b : List Sbd}
    (hh : u.strand s.cur.1 s.cur.2 = { s.here with mtlb := m, sbd := b }) :
    commit (s.ctx i) [o] s = u.modStrand s.cur.1 s.cur.2 fun t =>
      t.after (s.ctx i).cycles (u.strand s.cur.1 s.cur.2).r { (u.strand s.cur.1 s.cur.2).c with pc := BitVec.ofNat 64 (s.ctx i).next }
        ((s.ctx i).issOf o.slot o.cls) := by
  obtain ⟨runs, post, safe, flow⟩ := ho
  have hold : (u.strand (s.ctx i).b (s.ctx i).k).stepOnce = false := by
    have : u.strand (s.ctx i).b (s.ctx i).k = { s.here with mtlb := m, sbd := b } := hh
    rw [this]
    exact q.noStep
  rw [commit_one _ _ _ runs safe post (by rw [Ctx.endBundle_stepOnce, hu]; exact hold), flow, hu]
  refine modStrand_congr _ _ _ ?_
  show (s.ctx i).endBundle [o] .seq false (u.strand s.cur.1 s.cur.2) = (u.strand s.cur.1 s.cur.2).after (s.ctx i).cycles (u.strand s.cur.1 s.cur.2).r
    { (u.strand s.cur.1 s.cur.2).c with pc := BitVec.ofNat 64 (s.ctx i).next } ((s.ctx i).issOf o.slot o.cls)
  rw [hh]
  exact endBundle_translated q o m b

end Translated

/-! The translation of a base that the strand or its braid holds (R81, R83). -/

section Held
variable {x : Ctx} {va : Nat}

theorem isWindow_low (h : va < 2 ^ 48) : isWindow va = false := by
  have : va / 2 ^ 56 ≠ 0xFE := by omega
  simpa [isWindow] using this

theorem trans_held {p : TlbEntry} (h : (tlbFind x.st.mtlb x.world va).or (x.br.tlbHit x.world va) = some p) : x.trans va = .ok p := by
  have hm : tlbFind (x.s.strand x.b x.k).mtlb x.world va = tlbFind x.st.mtlb x.world va := rfl
  have hb : (x.s.braid x.b).tlbHit x.world va = x.br.tlbHit x.world va := rfl
  unfold Ctx.trans translateFor translate
  rw [hm, hb]
  cases hf : tlbFind x.st.mtlb x.world va with
  | some e => simpa [hf] using h
  | none =>
    rw [hf, Option.none_or] at h
    simp [h]

theorem needsWalk_held {p : TlbEntry} (h : (tlbFind x.st.mtlb x.world va).or (x.br.tlbHit x.world va) = some p) : needsWalk x va = false := by
  unfold needsWalk
  cases hf : tlbFind x.st.mtlb x.world va with
  | some e => simp
  | none =>
    rw [hf, Option.none_or] at h
    simp [h]

theorem needsWalk_high (h : 2 ^ 48 ≤ va) : needsWalk x va = false := by
  have : (va / 2 ^ 48 == 0) = false := by
    rw [beq_eq_false_iff_ne]
    omega
  simp only [needsWalk, this, Bool.and_false, Bool.false_and]

variable {p : TlbEntry} (hlow : va < 2 ^ 48) (h : (tlbFind x.st.mtlb x.world va).or (x.br.tlbHit x.world va) = some p)
include hlow h

theorem paOf_held : x.paOf va = some (p.pa va) := by
  simp only [Ctx.paOf, isWindow_low hlow, Nat.div_eq_of_lt hlow, trans_held h]
  rfl

theorem useTlb_held (s : State) : x.useTlb va s = s.modStrand x.b x.k (·.tlbAdd p) := by
  simp only [Ctx.useTlb, isWindow_low hlow, Nat.div_eq_of_lt hlow, trans_held h]
  rfl

theorem baseTraps_held : x.baseTraps va = if fareHome x.s x.b x.world (p.pa va) = .noEntry then [{ cause := 0x0E, step := 8, slot := 6, detail := 9 * 128 }] else [] := by
  simp only [Ctx.baseTraps, Nat.div_eq_of_lt hlow, ne_eq, not_true_eq_false, ↓reduceIte, trans_held h]
  cases fareHome x.s x.b x.world (p.pa va) <;> simp

end Held

/-- The translation an access uses is added to those of the strand alone (R81). -/
theorem tlbAdd_eq (t : Strand) (e : TlbEntry) : ∃ m, t.tlbAdd e = { t with mtlb := m } := by
  unfold Strand.tlbAdd
  split
  · exact ⟨t.mtlb, rfl⟩
  · exact ⟨_, rfl⟩

theorem baseTraps_high {x : Ctx} {va : Nat} (h : 2 ^ 48 ≤ va) :
    x.baseTraps va = [{ cause := 0x06, step := 7, sub := 1, slot := 6, addr := va, detail := 2 }] := by
  have : va / 2 ^ 48 ≠ 0 := by omega
  simp only [Ctx.baseTraps, this, ne_eq, not_false_eq_true, ↓reduceIte]

/-- A base has one cause at most, and it comes after the block's (R184). -/
theorem baseTraps_late (x : Ctx) (va : Nat) : x.baseTraps va = [] ∨ ∃ u, x.baseTraps va = [u] ∧ 6 < u.step := by
  unfold Ctx.baseTraps
  repeat' split
  · exact .inr ⟨_, rfl, Nat.lt_succ_self 6⟩
  · exact .inr ⟨_, rfl, Nat.lt_succ_self 6⟩
  · exact .inr ⟨_, rfl, Nat.le_succ 7⟩
  · exact .inl rfl

/-! The block (R266, R276). -/

/-- The bits of a block's second word that no token operation uses. -/
theorem reserved_zero_iff (v : Word) : v &&& 0xFFFFFFFF000000C0#64 = 0 ↔ bits v 32 32 = 0 ∧ bits v 6 2 = 0 := by
  have hlt : bits v 32 32 < 2 ^ 32 := Nat.mod_lt _ (Nat.two_pow_pos 32)
  have hlt' : bits v 6 2 < 2 ^ 2 := Nat.mod_lt _ (Nat.two_pow_pos 2)
  have fields : v &&& 0xFFFFFFFF000000C0#64 = BitVec.ofNat 64 (bits v 32 32 * 2 ^ 32 + bits v 6 2 * 2 ^ 6) := by
    rw [ofNat_add_eq_or (by omega), bits_mul_eq_and, bits_mul_eq_and, ← BitVec.and_or_distrib_left]
    rfl
  rw [fields, ← BitVec.toNat_inj, BitVec.toNat_ofNat, Nat.mod_eq_of_lt (by omega)]
  simp

/-- The words above the class and agent fields are zero where the operation names no agent. -/
theorem agent_zero_iff (v : Word) (h : bits v 32 32 = 0) (h' : bits v 6 2 = 0) : v.toNat < 64 ↔ bits v 8 24 = 0 := by
  have := v.isLt
  unfold bits at *
  omega

theorem world_zero_iff (v : Word) : v.toNat < 256 ↔ bits v 8 56 = 0 := by
  have := v.isLt
  unfold bits
  omega

/-- A block out of its layout, as a token operation checks it (R266, R276). -/
def tokenBad (x : Ctx) (f : FmtE) (op : Nat) : Bool :=
  pastK15 f (tokBlock op) || f.flags.toNat % 32 != 0 || f.cls != 0 || (op == 21 && f.evt != 0) || bits (x.kw f 1) 32 32 != 0 || bits (x.kw f 1) 6 2 != 0 ||
    (!tokAgent op && bits (x.kw f 1) 8 24 != 0) || (op == 8 && bits (x.kw f 2) 8 56 != 0)

theorem tokBlock_eq (op : Nat) : tokBlock op = if op = 8 then 3 else if op = 21 then 4 else 2 := by
  unfold tokBlock
  split
  · rfl
  · rfl
  · next h8 h21 => rw [if_neg h8, if_neg h21]

theorem tokenBad_iff (x : Ctx) (f : FmtE) (op : Nat) : tokenBad x f op = false ↔ Claims.tokenOk f (x.kw f) op (tokAgent op) := by
  have reserved := reserved_zero_iff (x.kw f 1)
  have agent := agent_zero_iff (x.kw f 1)
  have world := world_zero_iff (x.kw f 2)
  simp only [tokenBad, Claims.tokenOk, pastK15, tokBlock_eq, Bool.or_eq_false_iff, Bool.and_eq_false_iff, bne_eq_false_iff_eq, beq_eq_false_iff_ne,
    decide_eq_false_iff_not, Nat.not_lt, Bool.not_eq_false', reserved, world]
  constructor
  · rintro ⟨⟨⟨⟨⟨⟨⟨hk, hf⟩, hc⟩, he⟩, h32⟩, h6⟩, ha⟩, hw⟩
    exact ⟨hf, hc, fun h => he.resolve_left (· h), hk, ⟨h32, h6⟩, fun h => (agent h32 h6).2 (ha.resolve_left (by simp [h])), fun h => hw.resolve_left (· h)⟩
  · rintro ⟨hf, hc, he, hk, ⟨h32, h6⟩, ha, hw⟩
    refine ⟨⟨⟨⟨⟨⟨⟨hk, hf⟩, hc⟩, Decidable.not_or_of_imp he⟩, h32⟩, h6⟩, ?_⟩, Decidable.not_or_of_imp hw⟩
    cases hag : tokAgent op with
    | true => exact .inl rfl
    | false => exact .inr ((agent h32 h6).1 (ha hag))

/-- Of two causes the one first by R184. -/
theorem firstTrap_pair {t u : Trap} (h : ¬ u.key < t.key) : firstTrap [t, u] = some t := by simp [firstTrap, h]

/-! Where a token operation traps, and what it enters. -/

section Token
variable {i : Instr} {f : FmtE} {s : State} {op : Nat}

theorem tok_traps (x : Ctx) : (tokOp op f x).traps = badParam (tokenBad x f op) ++ x.baseTraps (x.kw f 0).toNat := rfl

/-- TNEW and TDEL are for the supervisor (R182). -/
theorem tok_early {x : Ctx} (h : op = 8 ∨ op = 9 → x.supv = true) : (tokOp op f x).early = [] := by
  show (if op = 8 ∨ op = 9 then x.privTrap 6 else []) = []
  split
  · next hop => simp [Ctx.privTrap, h hop, trapIf]
  · rfl

theorem tok_unhindered {x : Ctx} (h : needsWalk x (x.kw f 0).toNat = false) : Unhindered x (tokOp op f x) :=
  ⟨fun va hva => by rw [List.mem_singleton.mp hva]; exact h, rfl⟩

/-- The machine with the operation's transfer entered and the base's translation used (R81, R95). -/
def entered (x : Ctx) (f : FmtE) (op pa : Nat) (s : State) : State :=
  x.useTlb (x.kw f 0).toNat { s with xfers := s.xfers ++ [Claims.tokenXfer x f op pa], serial := s.serial + 1 }

/-- The transfer is entered, and the strand awaits its status. -/
theorem tok_eff {x : Ctx} {pa : Nat} (h : x.paOf (x.kw f 0).toNat = some pa) (s : State) (hs : x.s.serial = s.serial) :
    (tokOp op f x).eff s = (entered x f op pa s).modStrand x.b x.k (·.addSbd (Claims.tokenAwaits x f op)) := by
  have hl : bits (x.kw f 1) 0 6 = (x.kw f 1).toNat % 64 := by simp [bits]
  have hw : bits (x.kw f 2) 0 8 = (x.kw f 2).toNat % 256 := by simp [bits]
  simp only [tokOp, entered, h, hl, hw, ofNat_bits, Claims.tokenXfer, Claims.tokenAwaits, hs]
  rfl

theorem tok_effects (q : Quiet s) (hexec : exec i s = issueOne i (tokOp op f) s) (on : Claims.On s f.pred) (hsup : op = 8 ∨ op = 9 → (s.ctx i).supv = true)
    (hok : tokenBad (s.ctx i) f op = false) {p : TlbEntry} (hlow : ((s.ctx i).kw f 0).toNat < 2 ^ 48)
    (h : (tlbFind (s.ctx i).st.mtlb (s.ctx i).world ((s.ctx i).kw f 0).toNat).or ((s.ctx i).br.tlbHit (s.ctx i).world ((s.ctx i).kw f 0).toNat) = some p)
    (hfare : fareHome s s.cur.1 (s.ctx i).world (p.pa ((s.ctx i).kw f 0).toNat) ≠ .noEntry) :
    Effects i s 6 none ((entered (s.ctx i) f op (p.pa ((s.ctx i).kw f 0).toNat) s).modStrand s.cur.1 s.cur.2 fun t =>
      { t with sbd := [Claims.tokenAwaits (s.ctx i) f op] }) := by
  have htraps : (tokOp op f (s.ctx i)).traps = [] := by
    rw [tok_traps, hok, (baseTraps_held hlow h).trans (if_neg hfare)]
    rfl
  obtain ⟨m, hm⟩ := tlbAdd_eq s.here p
  have hold : (entered (s.ctx i) f op (p.pa ((s.ctx i).kw f 0).toNat) s).strand s.cur.1 s.cur.2 = { s.here with mtlb := m } := by
    rw [entered, useTlb_held hlow h]
    exact (State.strand_modStrand _ _ _ _).trans hm
  have heff : (tokOp op f (s.ctx i)).eff s = (entered (s.ctx i) f op (p.pa ((s.ctx i).kw f 0).toNat) s).modStrand s.cur.1 s.cur.2 fun t =>
      { t with sbd := [Claims.tokenAwaits (s.ctx i) f op] } := by
    refine (tok_eff (paOf_held hlow h) s rfl).trans (modStrand_congr _ s.cur.1 s.cur.2 ?_)
    simp only [hold, Strand.addSbd, q.arrived, List.nil_append]
  refine (hexec.trans (issueOne_commits q (tok_unhindered (needsWalk_held h)) on (tok_early hsup) htraps rfl rfl rfl rfl rfl)).trans ?_
  refine congrArg _ (commit_translated (o := tokOp op f (s.ctx i)) q ⟨on, rfl, rfl, rfl⟩ heff (m := m) (b := [Claims.tokenAwaits (s.ctx i) f op]) ?_)
  exact (State.strand_modStrand _ _ _ _).trans (by rw [hold])

/-- A cause of the base alone: the block keeps its layout. -/
theorem tok_base_traps (q : Quiet s) (hexec : exec i s = issueOne i (tokOp op f) s) (on : Claims.On s f.pred) (hsup : op = 8 ∨ op = 9 → (s.ctx i).supv = true)
    (hok : tokenBad (s.ctx i) f op = false) (hwalk : needsWalk (s.ctx i) ((s.ctx i).kw f 0).toNat = false) {u : Trap}
    (hu : (s.ctx i).baseTraps ((s.ctx i).kw f 0).toNat = [u]) : Traps i s u := by
  refine traps_of_causes q hexec (tok_unhindered hwalk) on (tok_early hsup) ?_
  rw [tok_traps, hok, hu]
  rfl

/-- A block out of its layout comes before any cause of the base (R184). -/
theorem tok_block_traps (q : Quiet s) (hexec : exec i s = issueOne i (tokOp op f) s) (on : Claims.On s f.pred) (hsup : op = 8 ∨ op = 9 → (s.ctx i).supv = true)
    (hbad : tokenBad (s.ctx i) f op = true) (hwalk : needsWalk (s.ctx i) ((s.ctx i).kw f 0).toNat = false) :
    Traps i s { cause := 0x16, step := 6, slot := 6 } := by
  refine traps_of_causes q hexec (tok_unhindered hwalk) on (tok_early hsup) ?_
  rw [tok_traps, hbad]
  rcases baseTraps_late (s.ctx i) ((s.ctx i).kw f 0).toNat with hb | ⟨u, hb, hlate⟩
  · rw [hb]
    rfl
  · rw [hb]
    refine firstTrap_pair (Nat.not_lt.mpr ?_)
    show 6006000 ≤ u.key
    unfold Trap.key
    omega

end Token

/-- The opcodes and their agents, as the statement lists them, are those of the operations. -/
theorem tokenOps_ops : ∀ e ∈ Claims.tokenOps, tokAgent e.2.1 = e.2.2 ∧ ∀ f s, exec (e.1 f) s = issueOne (e.1 f) (tokOp e.2.1 f) s := by
  simp only [Claims.tokenOps, List.forall_mem_cons]
  refine ⟨?_, ?_, ?_, ?_, ?_, ?_, ?_, ?_, ?_, ?_, ?_, ?_, ?_, ?_, List.forall_mem_nil _⟩
  all_goals exact ⟨rfl, fun _ _ => rfl⟩

/-- Settles O41: the operation traps on its block, then on its base, or enters its transfer. -/
theorem tokenOperationsComplete : Obligations.TokenOperationsComplete := by
  intro e he f s q on hsup i x va
  obtain ⟨hagent, hexec⟩ := tokenOps_ops e he
  have hblock : tokenBad x f e.2.1 = false ↔ Claims.tokenOk f (x.kw f) e.2.1 e.2.2 := hagent ▸ tokenBad_iff x f e.2.1
  refine ⟨?enters, ?noHome, ?high, ?block⟩
  case enters => exact fun p hok hlow h hfare => tok_effects q (hexec f s) on hsup (hblock.2 hok) hlow h hfare
  case noHome =>
    intro p hok hlow h hfare
    exact tok_base_traps q (hexec f s) on hsup (hblock.2 hok) (needsWalk_held h) ((baseTraps_held hlow h).trans (if_pos hfare))
  case high => exact fun hok hhigh => tok_base_traps q (hexec f s) on hsup (hblock.2 hok) (needsWalk_high hhigh) (baseTraps_high hhigh)
  case block =>
    intro hok hwalk _
    exact tok_block_traps q (hexec f s) on hsup (Bool.eq_true_of_not_eq_false fun h => hok (hblock.1 h)) hwalk

end Sys2Proof.Machine.MemoryRules
end

section
/-!
Token transfers that take effect (R95 to R98), with what moving a token leaves alone. Lemmas of O50.
-/

namespace Sys2Proof.Machine.MemoryRules
open Sys2Proof.Machine.Organisation

/-! What neither commands, counters, places nor caches change. -/

/-- Memory, tokens, transfers in progress and marks of poison are as before. -/
structure Kept (s t : State) : Prop where
  mem : t.mem = s.mem
  tokens : t.tokens = s.tokens
  xfers : t.xfers = s.xfers
  poison : t.poison = s.poison

theorem Kept.refl (s : State) : Kept s s := ⟨rfl, rfl, rfl, rfl⟩

theorem Kept.trans {s t u : State} (h : Kept s t) (h' : Kept t u) : Kept s u :=
  ⟨h'.mem.trans h.mem, h'.tokens.trans h.tokens, h'.xfers.trans h.xfers, h'.poison.trans h.poison⟩

theorem Kept.ite {s t u : State} {c : Prop} [Decidable c] (h : Kept s t) (h' : Kept s u) : Kept s (if c then t else u) := by
  split
  · exact h
  · exact h'

theorem Kept.foldl {α : Type} {f : State → α → State} (h : ∀ s a, Kept s (f s a)) (l : List α) (s : State) : Kept s (l.foldl f s) :=
  List.foldlRecOn (motive := Kept s) l f (Kept.refl s) fun _ hb a _ => hb.trans (h _ a)

theorem kept_modBraid (s : State) (b : Nat) (f : Braid → Braid) : Kept s (s.modBraid b f) := ⟨rfl, rfl, rfl, rfl⟩
theorem kept_modStrand (s : State) (b k : Nat) (f : Strand → Strand) : Kept s (s.modStrand b k f) := ⟨rfl, rfl, rfl, rfl⟩
theorem kept_log (s : State) (ty b u st d : Nat) : Kept s (s.log ty b u st d) := ⟨rfl, rfl, rfl, rfl⟩

theorem kept_modUnit (s : State) (b k w : Nat) (f : Strand → Strand) : Kept s (s.modUnit b k w f) :=
  Kept.ite (kept_modStrand _ _ _ _) ⟨rfl, rfl, rfl, rfl⟩

theorem kept_bumpUnit (s : State) (b k w e c d : Nat) : Kept s (s.bumpUnit b k w e c d) := Kept.ite (Kept.refl s) (kept_modUnit _ _ _ _ _)

theorem kept_bumpAgent (s : State) (a : BitVec 24) (w e : Nat) : Kept s (s.bumpAgent a w e) := Kept.ite (kept_modUnit _ _ _ _ _) (Kept.refl s)

theorem kept_modHeld (s : State) (a : BitVec 24) (w : Nat) (f : List Held → List Held) : Kept s (s.modHeld a w f) :=
  Kept.ite (Kept.refl s) (Kept.ite ⟨rfl, rfl, rfl, rfl⟩ (kept_modBraid _ _ _))

theorem kept_addHeld (s : State) (a : BitVec 24) (w k b l : Nat) : Kept s (s.addHeld a w k b l) := by
  unfold State.addHeld
  exact kept_modHeld _ _ _ _

theorem kept_swapHeld (s : State) (a : BitVec 24) (w k b l : Nat) (n : List (Nat × Nat × Nat)) : Kept s (s.swapHeld a w k b l n) := by
  unfold State.swapHeld
  exact kept_modHeld _ _ _ _

/-! Lines that leave the caches (R66, R95). -/

theorem kept_flushLines (s : State) (b : Nat) (gone : CLine → Bool) : Kept s (s.flushLines b gone) := by
  obtain ⟨sl, h⟩ := writeBacks_slices ((s.braid b).cache.filter fun c => c.arm.isNone && gone c) s
  unfold State.flushLines
  dsimp only
  rw [h]
  exact Kept.ite (Kept.refl s) ((show Kept s { s with slices := sl } from ⟨rfl, rfl, rfl, rfl⟩).trans (kept_modBraid _ _ _))

theorem kept_l1DropAll (s : State) (b : Nat) (gone : Nat → Bool) : Kept s (s.l1DropAll b gone) :=
  Kept.foldl (fun _ _ => Kept.ite (kept_modStrand _ _ _ _) (Kept.refl _)) _ s

theorem kept_flushRange (s : State) (b base size : Nat) : Kept s (s.flushRange b base size) := (kept_flushLines _ _ _).trans (kept_l1DropAll _ _ _)

/-! Commands that their engines accept (R267). -/

theorem kept_acceptOne (s : State) (b : Nat) (c : Cmd) : Kept s (acceptOne s b c) := by
  have fails (code d : Nat) : Kept s ((s.modBraid b fun t => t.dropCmd c false).bumpUnit b c.strand c.world c.evt code d) :=
    (kept_modBraid _ _ _).trans (kept_bumpUnit _ _ _ _ _ _ _)
  unfold acceptOne
  exact Kept.ite (fails 6 1) (Kept.ite (fails 5 1) ((kept_modBraid _ _ _).trans (kept_modBraid _ _ _)))

theorem kept_acceptPass (s : State) (b : Nat) : Kept s (acceptPass s b) := by
  refine Kept.foldl (fun s c => ?_) _ s
  split
  · exact Kept.ite (kept_acceptOne _ _ _) (Kept.refl s)
  · exact Kept.refl s

/-! Entries of the token table (R84, R85). -/

section Table
variable {s : State} {base log2 : Nat} {u v : Token}

/-- A search of the table after an entry's change, the search not telling the two entries apart. -/
theorem find_setToken {p : Token → Bool} (hp : ∀ t, t.base = base → t.log2 = log2 → p v = p t) (hf : s.tokens.find? p = some u) :
    (s.setToken base log2 v).tokens.find? p = some (if u.base == base && u.log2 == log2 then v else u) := by
  have same : (p ∘ fun t => if t.base == base && t.log2 == log2 then v else t) = p := by
    funext t
    by_cases h : (t.base == base && t.log2 == log2) = true
    · simp only [Bool.and_eq_true, beq_iff_eq] at h
      simp [h, hp t h.1 h.2]
    · exact congrArg p (if_neg h)
  simp only [State.setToken, List.find?_map, same, hf, Option.map_some]

theorem tokenExact_is (h : s.tokenExact base log2 = some u) : u.base = base ∧ u.log2 = log2 := by
  simpa using List.find?_some h

theorem tokenExact_setToken (h : s.tokenExact base log2 = some u) (hb : v.base = base) (hl : v.log2 = log2) :
    (s.setToken base log2 v).tokenExact base log2 = some v := by
  obtain ⟨ub, ul⟩ := tokenExact_is h
  refine (find_setToken (fun t tb tl => ?_) h).trans (congrArg some (if_pos (by simp [ub, ul])))
  rw [hb, hl, tb, tl]

theorem Kept.tokenExact {t : State} (h : Kept s t) (b l : Nat) : t.tokenExact b l = s.tokenExact b l := by
  unfold State.tokenExact
  rw [h.tokens]

theorem Kept.tokenAt {t : State} (h : Kept s t) (pa : Nat) : t.tokenAt pa = s.tokenAt pa := by
  unfold State.tokenAt
  rw [h.tokens]

end Table

/-! A lend or a gift at the home (R95, R96, R98, R100). -/

section Move
variable {s : State} {q : TokArgs} {u : Token}

/-- The chain of lenders after a lend or a gift (R96). -/
def lendAfter (q : TokArgs) (u : Token) : List (BitVec 24) := if q.op = 10 then q.issuer :: u.lend else u.lend

/-- A provisional change keeps its holder, its chain and the range (R100). -/
theorem provision_keeps (s : State) (a : BitVec 24) (old new : Token) :
    (s.provision a old new).holder = new.holder ∧ (s.provision a old new).lend = new.lend ∧ (s.provision a old new).base = new.base ∧
      (s.provision a old new).log2 = new.log2 := by
  unfold State.provision
  split
  · exact ⟨rfl, rfl, rfl, rfl⟩
  · split <;> exact ⟨rfl, rfl, rfl, rfl⟩

theorem tokenEffect_move (h : q.op = 10 ∨ q.op = 11) : ∃ v, Kept (s.setToken u.base u.log2 v) (tokenEffect s q u) ∧
    v.holder = q.agent ∧ v.lend = lendAfter q u ∧ v.base = u.base ∧ v.log2 = u.log2 := by
  rcases h with h | h
  · obtain ⟨ho, hl, hb, h2⟩ := provision_keeps s q.agent u { u with holder := q.agent, lend := q.issuer :: u.lend }
    refine ⟨_, ?_, ho, by rw [hl, lendAfter, if_pos h], hb, h2⟩
    unfold tokenEffect
    simp only [h]
    exact (kept_swapHeld _ _ _ _ _ _ _).trans (kept_addHeld _ _ _ _ _ _)
  · obtain ⟨ho, hl, hb, h2⟩ := provision_keeps s q.agent u { u with holder := q.agent }
    refine ⟨_, ?_, ho, by rw [hl, lendAfter, if_neg (by omega)], hb, h2⟩
    unfold tokenEffect
    simp only [h]
    exact (kept_swapHeld _ _ _ _ _ _ _).trans (kept_addHeld _ _ _ _ _ _)

/-- A lend or a gift that nothing refuses takes effect at the home. -/
theorem tokenRun_move (h : q.op = 10 ∨ q.op = 11) (m : Claims.MayMove s q u) :
    tokenRun s q = (0, (tokenEffect s q u).bumpAgent (tokenTo q u) u.world q.evt) := by
  obtain ⟨aligned, found, idle, own, met, may, room⟩ := m
  have h8 : q.op ≠ 8 := by omega
  have h13 : q.op ≠ 13 := by omega
  have h14 : (q.op == 14) = false := by rw [beq_eq_false_iff_ne]; omega
  have hto : tokenTo q u = q.agent := by rcases h with h | h <;> simp [tokenTo, h]
  have hneeds : s.tokenNeeds q u = [q.agent] := by rcases h with h | h <;> simp [State.tokenNeeds, h]
  have hany : q.op = 10 ∨ q.op = 11 ∨ q.op = 12 := by omega
  simp only [tokenRun, h8, ↓reduceIte, tokenTransfer, aligned, h14, found, idle, own, met, hto, hany, may, hneeds, room, h13]
  rfl

end Move

/-! TOKEN_TRANSFER_COMPLETE (R95, R97, R98). -/

section Complete
variable {n : Nat} {x : Xfer} {s : State}

/-- A transfer that its home has, or that reaches it now, and that no earlier one stands before. -/
structure AtHome (n : Nat) (x : Xfer) (s : State) : Prop where
  stands : s.xfers[n]? = some x
  arm : x.arm = none
  entry : x.entry = none
  first : s.xferBehind x = false

theorem completeTransfer_done (h : AtHome n x s) (hr : s.xferReady x = true) (hat : x.started = true ∨ fareHome s x.braid x.world x.base = .sent) :
    completeTransfer s n = xferComplete s x := by
  simp only [completeTransfer, h.stands, h.arm, h.entry, h.first, hr]
  cases hs : x.started with
  | true => rfl
  | false => simp [hat.resolve_left (by simp [hs])]

theorem completeTransfer_begins (h : AtHome n x s) (hr : s.xferReady x = false) (hs : x.started = false) (hat : fareHome s x.braid x.world x.base = .sent)
    (hb : s.tokenBusy (x.args s.device) = false) : completeTransfer s n = s.putXfer { x with started := true } := by
  simp [completeTransfer, h.stands, h.arm, h.entry, h.first, hr, hs, hat, hb]

theorem completeTransfer_held (h : s.xfers[n]? = some x) (hh : x.arm.isSome = true ∨ x.entry.isSome = true) : completeTransfer s n = s := by
  have : (x.arm.isSome || x.entry.isSome) = true := by simpa using hh
  simp [completeTransfer, h, this]

/-- A transfer leaves the list of those in progress; its status reaches its unit, and what waited for it is accepted. -/
def delivered (s : State) (x : Xfer) (c : Nat) : State :=
  acceptPass ({ s with xfers := s.xfers.filter fun y => y.id != x.id }.modUnit x.braid x.strand x.world (x.deliver c 0)) x.braid

theorem kept_delivered (s : State) (x : Xfer) (c : Nat) : Kept { s with xfers := s.xfers.filter fun y => y.id != x.id } (delivered s x c) :=
  (kept_modUnit _ _ _ _ _).trans (kept_acceptPass _ _)

/-- What steps 2 and 3 of a transfer leave of the machine t that its home answers with status c (R95, R105). -/
def afterHome (s : State) (x : Xfer) (c : Nat) (t : State) : State :=
  let u := if c ≠ 0 then t else (x.flushes s).foldl (fun s b => s.flushRange b x.base x.span) t
  if c = 0 && x.op == 20 then u.clearPoison x.base x.span else u

theorem xferComplete_run (h : x.op ≠ 21) {c : Nat} {t : State} (hr : tokenRun s (x.args s.device) = (c, t)) :
    xferComplete s x = delivered (afterHome s x c t) x c := by
  unfold xferComplete
  rw [if_neg h, if_neg h, hr]
  rfl

/-- A lend or a gift takes the range out of the caches of its braid alone. -/
theorem afterHome_move (h : x.op = 10 ∨ x.op = 11) (t : State) : afterHome s x 0 t = t.flushRange x.braid x.base x.span := by
  rcases h with h | h <;> simp [afterHome, Xfer.flushes, h]

/-- The machine a lend or a gift leaves, before its status is delivered: the token's entry has its new holder and chain. -/
theorem xferComplete_move {u : Token} (hop : x.op = 10 ∨ x.op = 11) (m : Claims.MayMove s (x.args s.device) u) : ∃ v w,
    xferComplete s x = delivered w x 0 ∧ Kept (s.setToken x.base x.log2 v) w ∧ v.holder = x.agent ∧ v.lend = lendAfter (x.args s.device) u ∧
      v.base = x.base ∧ v.log2 = x.log2 := by
  obtain ⟨v, effect, holder, lend, vb, vl⟩ := tokenEffect_move (s := s) (u := u) (q := x.args s.device) hop
  obtain ⟨ub, ul⟩ := tokenExact_is m.found
  have hrun := xferComplete_run (by omega) (tokenRun_move hop m)
  rw [afterHome_move hop] at hrun
  rw [ub, ul] at effect
  exact ⟨v, _, hrun, (effect.trans (kept_bumpAgent _ _ _ _)).trans (kept_flushRange _ _ _ _), holder, lend, vb.trans ub, vl.trans ul⟩

/-- A lend or a gift that meets its requirements makes the recipient the holder (R96). -/
theorem completeTransfer_moves {u : Token} (h : AtHome n x s) (hr : s.xferReady x = true) (hop : x.op = 10 ∨ x.op = 11)
    (hat : x.started = true ∨ fareHome s x.braid x.world x.base = .sent) (m : Claims.MayMove s (x.args s.device) u) :
    ∃ t v, exec (.tokenTransferComplete n) s = .next t ∧ t.tokenExact x.base x.log2 = some v ∧ v.holder = x.agent ∧
      v.lend = (if x.op = 10 then agentId s.device x.braid x.strand :: u.lend else u.lend) ∧ (∀ y ∈ t.xfers, y.id ≠ x.id) ∧ t.mem = s.mem := by
  obtain ⟨v, w, hdone, moved, holder, lend, vb, vl⟩ := xferComplete_move hop m
  have kept := kept_delivered w x 0
  refine ⟨_, v, device_next rfl ((completeTransfer_done h hr hat).trans hdone), ?_, holder, lend, ?_, kept.mem.trans moved.mem⟩
  · rw [kept.tokenExact]
    exact (moved.tokenExact x.base x.log2).trans (tokenExact_setToken m.found vb vl)
  · intro y hy
    rw [kept.xfers] at hy
    simpa using (List.mem_filter.mp hy).2

end Complete

end Sys2Proof.Machine.MemoryRules
end

section
/-!
Errors in memory, registers, key slots, slabs and tables (R72, R76, R104, R105, R410, R411, R414 to R420). Lemmas of O50.
-/

namespace Sys2Proof.Machine.MemoryRules
open Sys2Proof.Machine.Organisation

/-! A line that is lost (R104, R105, R420). -/

section Line
variable (s : State) (pa : Nat)

/-- The token of an address damaged. -/
def damaged : State :=
  match s.tokenAt pa with
  | some t => s.setToken t.base t.log2 { t with dmg := true }
  | none => s

/-- The line's token damaged, its bytes gone and the line marked poisoned. -/
def lineGone : State := ((damaged s pa).zeroRange (lineOf pa) 128).markWrite true (lineOf pa) 128

theorem kept_raiseError (a : BitVec 24) (w : Option Nat) (n : Nat) : Kept s (s.raiseError a w n) :=
  Kept.ite (Kept.refl s) (Kept.ite (kept_modStrand _ _ _ _) ⟨rfl, rfl, rfl, rfl⟩)

theorem kept_chargeError (agents : List (BitVec 24)) : Kept s (chargeError s pa agents) := by
  unfold chargeError
  split
  · exact kept_log _ _ _ _ _ _
  · exact Kept.foldl (fun _ _ => (kept_log _ _ _ _ _ _).trans (kept_raiseError _ _ _ _)) _ s

theorem loseLine_kept (agents : List (BitVec 24)) : Kept (lineGone s pa) (loseLine s pa agents) := by
  unfold loseLine lineGone damaged
  cases s.tokenAt pa <;> exact kept_chargeError _ _ _

theorem damaged_mem : (damaged s pa).mem = s.mem := by
  unfold damaged
  split <;> rfl

/-- The bytes of the line read zero, all others as before. -/
theorem byte_lineGone (a : Nat) : (lineGone s pa).byte a = if a / 128 = pa / 128 then 0 else s.byte a := by
  have hin : (lineOf pa ≤ a ∧ a < lineOf pa + 128) ↔ a / 128 = pa / 128 := by
    unfold lineOf
    omega
  have hmem : (damaged s pa).byte a = s.byte a := by
    unfold State.byte
    rw [damaged_mem]
  unfold lineGone
  have : (((damaged s pa).zeroRange (lineOf pa) 128).markWrite true (lineOf pa) 128).byte a = ((damaged s pa).zeroRange (lineOf pa) 128).byte a := by
    unfold State.byte
    rw [State.markWrite_mem]
  rw [this, State.byte_zeroRange, hmem]
  simp only [hin]

variable {s pa}

/-- An entry's change of anything but its range leaves what covers an address where it is. -/
theorem tokenAt_damaged {k : Token} (h : s.tokenAt pa = some k) : (damaged s pa).tokenAt pa = some { k with dmg := true } := by
  have hd : damaged s pa = s.setToken k.base k.log2 { k with dmg := true } := by
    unfold damaged
    rw [h]
  rw [hd]
  refine (find_setToken (fun t hb hl => ?_) h).trans (congrArg some (if_pos (by simp)))
  simp only [Token.covers, hb, hl]

theorem tokenAt_lineGone {k : Token} (h : s.tokenAt pa = some k) : (lineGone s pa).tokenAt pa = some { k with dmg := true } := tokenAt_damaged h

theorem cacheLines_line : cacheLines (lineOf pa) 128 = [lineOf pa] := by
  have hn : (lineOf pa + 128 - 1) / 128 + 1 - lineOf pa / 128 = 1 := by
    unfold lineOf
    omega
  have hl : (lineOf pa / 128 + 0) * 128 = lineOf pa := by
    unfold lineOf
    omega
  unfold cacheLines
  rw [hn]
  exact congrArg (fun l => [l]) hl

/-- Poisoned data written marks its lines. -/
theorem poison_markWrite (s : State) {pa n l : Nat} (h : l ∈ cacheLines pa n) : l ∈ (s.markWrite true pa n).poison := by
  show l ∈ s.poison ++ (cacheLines pa n).filter fun l => !s.poison.contains l
  by_cases hp : l ∈ s.poison
  · exact List.mem_append_left _ hp
  · exact List.mem_append_right _ (List.mem_filter.mpr ⟨h, by simpa using hp⟩)

end Line

/-- The line at pa is lost: its bytes read zero and no others changed, its token is damaged, and it is marked poisoned. -/
structure LineLost (s : State) (pa : Nat) (t : State) : Prop where
  bytes : ∀ a, t.byte a = if a / 128 = pa / 128 then 0 else s.byte a
  token : ∀ k, s.tokenAt pa = some k → ∃ k', t.tokenAt pa = some k' ∧ k'.dmg = true
  poison : lineOf pa ∈ t.poison

theorem Kept.byte {s t : State} (h : Kept s t) (a : Nat) : t.byte a = s.byte a := by
  unfold State.byte
  rw [h.mem]

/-- Losing a line, what neither bytes, tokens nor marks show having changed before. -/
theorem loseLine_lost {s u : State} (h : Kept s u) (pa : Nat) (agents : List (BitVec 24)) : LineLost s pa (loseLine u pa agents) := by
  have kept := loseLine_kept u pa agents
  refine ⟨fun a => ?_, fun k hk => ⟨_, (kept.tokenAt pa).trans (tokenAt_lineGone ((h.tokenAt pa).trans hk)), rfl⟩, ?_⟩
  · rw [kept.byte, byte_lineGone, h.byte]
  · rw [kept.poison]
    exact poison_markWrite _ (by rw [cacheLines_line]; exact List.mem_singleton_self _)

/-! UNCORRECTABLE_ERROR (R76, R104): a line of a braid's cache, or of its home slice where no braid is named. -/

/-- The lines that stand where the error is. -/
def heldLines (s : State) (pa : Nat) : Option Nat → List CLine
  | some b => (s.braid b).cache
  | none => Store.get s.slices (homeSlice pa) []

section Error
variable {s : State} {pa : Nat} {braid : Option Nat}

theorem lineError_clean (h : ∀ c ∈ heldLines s pa braid, c.line = lineOf pa → c.dirty = false ∧ c.arm = none) : lineError s pa braid = s := by
  have none_dirty : ((heldLines s pa braid).filter fun c => c.line == lineOf pa && (c.dirty || c.arm.isSome)) = [] := by
    rw [List.filter_eq_nil_iff]
    intro c hc hd
    simp only [Bool.and_eq_true, beq_iff_eq] at hd
    obtain ⟨hdirty, harm⟩ := h c hc hd.1
    simp [hdirty, harm] at hd
  cases braid <;> exact if_pos (List.isEmpty_iff.mpr none_dirty)

theorem lineError_lost (h : ∃ c ∈ heldLines s pa braid, c.line = lineOf pa ∧ c.dirty = true) : LineLost s pa (lineError s pa braid) := by
  obtain ⟨c, hc, hl, hd⟩ := h
  have dirty : ¬ ((heldLines s pa braid).filter fun c => c.line == lineOf pa && (c.dirty || c.arm.isSome)).isEmpty = true := by
    rw [List.isEmpty_iff, List.filter_eq_nil_iff]
    exact fun hnone => hnone c hc (by simp [hl, hd])
  cases braid with
  | none => exact Eq.mpr (congrArg (LineLost s pa) (if_neg dirty)) (loseLine_lost (Kept.refl s) pa _)
  | some b => exact Eq.mpr (congrArg (LineLost s pa) (if_neg dirty)) (loseLine_lost (kept_modBraid s b _) pa _)

end Error

/-! HBM (R413 to R418). -/

section Hbm
variable {s : State} {pa beat bit lane : Nat} {agents : List (BitVec 24)}

/-- The machine once a cell's error is in the log (R417). -/
def cellLogged (s : State) (v : Nat) : State := { s with errCell := BitVec.ofNat 64 v }.log 6 0xFF 0 0 v
theorem kept_cellLogged (s : State) (v : Nat) : Kept s (cellLogged s v) := ⟨rfl, rfl, rfl, rfl⟩

/-- The machine once a transfer's error is in the log (R418). -/
def xferLogged (s : State) (v : Nat) : State := { s with errXfer := BitVec.ofNat 64 v }.log 7 0xFF 0 0 v

theorem hbmEcc_corrected (h : isDevMem pa = true) :
    hbmEcc s pa beat bit false agents = cellLogged s (hbmEvent s.errCell 1 pa 1 beat + bit % 512 * 2 ^ 7) := by
  unfold hbmEcc
  rw [if_neg (by simp [h])]
  rfl

theorem hbmEcc_lost (h : isDevMem pa = true) : LineLost s pa (hbmEcc s pa beat bit true agents) := by
  have hd : hbmEcc s pa beat bit true agents = loseLine (cellLogged s (hbmEvent s.errCell 1 pa 2 beat + bit % 512 * 2 ^ 7)) pa agents := by
    unfold hbmEcc
    rw [if_neg (by simp [h])]
    rfl
  rw [hd]
  exact loseLine_lost (kept_cellLogged s _) pa agents

variable (h : isDevMem pa = true) (hl : lane < 528) (hc : 32 * hbmStack pa + hbmChannel pa ∉ s.deadChannels)
include h hl hc

/-- A transfer that passes at its second attempt is logged alone. -/
theorem hbmParity_passed (single : Bool) :
    hbmParity s pa beat lane 1 single agents = xferLogged s (hbmEvent s.errXfer 1 pa 1 beat + 2 ^ 4) := by
  have inside : ¬ 528 ≤ lane := Nat.not_le.mpr hl
  simp [hbmParity, hbmChannelNo, xferLogged, h, hc, inside]

/-- A transfer that fails four times on one lane has that lane spared, where a spare is left. -/
theorem hbmParity_spared {m : BitVec 44} (hm : swapLane (Store.get s.lanes (32 * hbmStack pa + hbmChannel pa) 0) lane = some m) :
    hbmParity s pa beat lane 4 true agents = { xferLogged s (hbmEvent s.errXfer 4 pa 2 beat + lane * 2 ^ 6 + 3 * 2 ^ 4) with
      lanes := Store.set s.lanes (32 * hbmStack pa + hbmChannel pa) m 0 } := by
  have inside : ¬ 528 ≤ lane := Nat.not_le.mpr hl
  have swap : swapLane (Store.get s.lanes (32 * hbmStack pa + hbmChannel pa) 0#44) lane = some m := hm
  simp [hbmParity, hbmChannelNo, xferLogged, h, hc, inside, swap]
  rfl

end Hbm

/-! Registers (R411). -/

section Register
variable {b k : Nat}

/-- The braid and the strand that an agent's id names (R84). -/
theorem agent_names (dev : Nat) (hb : b < 96) (hk : k < 4) : agentBraid (agentId dev b k) = b ∧ agentNo (agentId dev b k) = k := by
  simp only [agentBraid, agentNo, agentId, bits, BitVec.toNat_ofNat]
  omega

/-- The strand of an agent learns of a log entry in place (R345). -/
theorem raiseError_here {s : State} (on : Claims.OnDie b k) (live : (s.slotOf b k 0).live = true) (here : s.isLocal (agentId s.device b k) = true) (n : Nat) :
    s.raiseError (agentId s.device b k) none n = s.modStrand b k fun t => { t with pendErr := t.pendErr ++ [n % 65536] } := by
  obtain ⟨hb, hk⟩ := agent_names s.device on.1 on.2
  have far : ¬ (!s.isLocal (agentId s.device b k) || decide (4 ≤ k)) = true := by
    have := on.2
    simp [here]
    omega
  unfold State.raiseError
  simp only [hb, hk]
  rw [if_neg far, if_pos (by simp [live])]

/-- A strand one of whose register words is lost: the word reads zero, and the log's entry pends. -/
def Strand.wordLost (file idx n : Nat) (t : Strand) : Strand := { t with r := t.r.zeroWord file idx, pendErr := t.pendErr ++ [n % 65536] }

/-- A register word that is lost is logged, and the strand learns of it (R345, R419). -/
theorem registerError_eq {s : State} {file idx : Nat} (on : Claims.OnDie b k) (live : (s.slotOf b k 0).live = true)
    (here : s.isLocal (agentId s.device b k) = true) (hf : file ≤ 3) : registerError s b k file idx =
      (s.log 8 b 0 (agentId s.device b k).toNat (file * 65536 + idx)).modStrand b k (Strand.wordLost file idx s.errSeq) := by
  have named : ¬ (!slotNo b k 0 || decide (3 < file)) = true := by simp [slotNo, on.1, on.2, hf]
  have live' : (((s.log 8 b 0 (agentId s.device b k).toNat (file * 65536 + idx)).modStrand b k fun t => { t with r := t.r.zeroWord file idx }).slotOf b k 0).live = true := by
    unfold State.slotOf
    rw [State.strand_modStrand]
    exact live
  unfold registerError
  rw [if_neg named]
  exact (raiseError_here on live' here s.errSeq).trans (modStrand_modStrand _ _ _ _ _)

end Register

/-! Slabs, FIFO entries and tables (R72, R410). -/

section Tables
variable {s : State} {b id idx : Nat}

theorem keyParity_eq (hb : b < 96) (hn : idx < 32) :
    keyParity s b idx = (s.modBraid b (·.zeroise idx)).log 12 b 0 idx ((s.braid b).keyOf idx).world :=
  if_neg (by omega)

theorem slabError_slab (hb : b < 96) (h : slabSize ((s.braid b).slabOf id) ≠ 0) : slabError s b false id = s.modBraid b fun t => t.setSlabState id 4 := by
  simp only [slabError, Nat.not_le.mpr hb, h]
  rfl

theorem slabError_fifo (hb : b < 96) (h : (s.braid b).fifoOf id ≠ []) : slabError s b true id =
    (s.modBraid b fun t => { t with fifoBad := Store.put t.fifoBad id (s.errSeq % 65536) }).log 8 b 0 0xFFFFFFFF 0 := by
  have : ¬ ((s.braid b).fifoOf id).isEmpty = true := by rwa [List.isEmpty_iff]
  simp only [slabError, Nat.not_le.mpr hb, this]
  rfl

theorem tableError_token {k : Token} (h : (s.tokens.filter fun t => homeSlice t.base == b)[idx]? = some k) :
    tableError s b 0 idx = { s with tokens := s.tokens.erase k, fatal := true }.log 8 0xFF 0 0xFFFFFFFF k.base := by
  simp only [tableError, h]

/-- An entry of the route book of a braid out of service. -/
theorem tableError_route (hb : b < 96) (h : (s.braid b).status ≠ 0) :
    tableError s b 1 idx = (s.modBraid b fun t => { t with rb := Store.del t.rb idx }).log 8 b 0 0xFFFFFFFF 0 := by
  have out : (((s.modBraid b fun t => { t with rb := Store.del t.rb idx }).log 8 b 0 0xFFFFFFFF 0).braid b).status ≠ 0 := by
    show ((s.modBraid b fun t => { t with rb := Store.del t.rb idx }).braid b).status ≠ 0
    rw [State.braid_modBraid]
    exact h
  exact (if_neg (Nat.not_le.mpr hb)).trans (if_pos out)

end Tables

/-- The transfers and the errors of O50. -/
theorem transfersAndErrors : Claims.TransfersAndErrorsComplete := by
  refine ⟨?done, ?begun, ?moves, ?held, ?cleanSlice, ?cleanBraid, ?lostSlice, ?lostBraid, ?cell, ?cellLost, ?xfer, ?spared, ?register, ?key, ?slab, ?fifo,
    ?token, ?route⟩
  case done => exact fun n x s hx ha he hf hr hat => device_next rfl (completeTransfer_done ⟨hx, ha, he, hf⟩ hr hat)
  case begun => exact fun n x s hx ha he hf hr hs hat hb => device_next rfl (completeTransfer_begins ⟨hx, ha, he, hf⟩ hr hs hat hb)
  case moves => exact fun n x u s hx ha he hf hr hop hat m => completeTransfer_moves ⟨hx, ha, he, hf⟩ hr hop hat m
  case held => exact fun n x s hx hh => device_next rfl (completeTransfer_held hx hh)
  case cleanSlice => exact fun pa b s h => device_next rfl (lineError_clean h)
  case cleanBraid => exact fun pa b s hb h => device_next (decide_eq_true hb) (lineError_clean h)
  case lostSlice =>
    intro pa b s h
    obtain ⟨bytes, token, poison⟩ := lineError_lost (braid := none) h
    exact ⟨_, device_next rfl rfl, bytes, token, poison⟩
  case lostBraid =>
    intro pa b s hb h
    obtain ⟨bytes, token, poison⟩ := lineError_lost (braid := some b) h
    exact ⟨_, device_next (decide_eq_true hb) rfl, bytes, token, poison⟩
  case cell => exact fun pa beat bit agents s h => device_next rfl (hbmEcc_corrected h)
  case cellLost =>
    intro pa beat bit agents s h
    obtain ⟨bytes, token, _⟩ := hbmEcc_lost (s := s) (beat := beat) (bit := bit) (agents := agents) h
    exact ⟨_, device_next rfl rfl, bytes, token⟩
  case xfer => exact fun pa beat lane single agents s h hl hc => device_next rfl (hbmParity_passed h hl hc single)
  case spared => exact fun pa beat lane agents m s h hl hc hm => device_next rfl (hbmParity_spared h hl hc hm)
  case register =>
    intro b k idx s on live here
    refine ⟨_, device_next (onDie_eq on) (registerError_eq on live here (Nat.zero_le 3)), ?_, ?_, rfl, rfl⟩ <;> rw [State.strand_modStrand] <;> rfl
  case key => exact fun b n s hb hn => device_next (decide_eq_true hb) (keyParity_eq hb hn)
  case slab => exact fun b id s hb h => device_next (decide_eq_true hb) (slabError_slab hb h)
  case fifo => exact fun b id s hb h => device_next (decide_eq_true hb) (slabError_fifo hb h)
  case token => exact fun b idx k s hb h => device_next (decide_eq_true hb) (tableError_token h)
  case route => exact fun b idx s hb h => device_next (decide_eq_true hb) (tableError_route hb h)

end Sys2Proof.Machine.MemoryRules
end

section
/-!
Splice answers, self test and detection (R397, R399, R404 to R409). Lemmas of O50.
-/

namespace Sys2Proof.Machine.MemoryRules
open Sys2Proof.Machine.Organisation

/-! SPLICE_ANSWER (R397). -/

/-- What a splice request comes to: its outcome and the machine after it. -/
def spliceOutcome (s : State) (q : SpliceReq) : Nat × State := if q.action = 0 then spliceInstall s q else spliceRemove s q

theorem spliceAnswer_eq {n : Nat} {q : SpliceReq} {s : State} (h : s.spliceReqs[n]? = some q) :
    spliceAnswer s n =
      ((spliceOutcome { s with spliceReqs := s.spliceReqs.eraseIdx n } q).2.log 3 q.target q.unit
        (spliceOutcome { s with spliceReqs := s.spliceReqs.eraseIdx n } q).1 q.image).bumpUnit q.braid q.strand q.world q.evt
          (if (spliceOutcome { s with spliceReqs := s.spliceReqs.eraseIdx n } q).1 = 0 then 0 else 15)
          (spliceOutcome { s with spliceReqs := s.spliceReqs.eraseIdx n } q).1 := by
  simp only [spliceAnswer, h]
  rfl

/-! IFT_SLICE (R404, R408). -/

section Slice
variable {s : State} {b u : Nat} {l : List Nat}

/-- A slice on the unit runs: it has its gap, it is not condemned, and it is nominated, a fabric block's, or the one at INDEX. -/
structure SliceRuns (s : State) (b u : Nat) : Prop where
  braid : b < 96
  unit : unitOk u = true ∨ 256 ≤ u ∧ u < 352
  gap : inGap s b u = true
  whole : u ∉ (s.braid b).condemned
  turn : u ∈ (s.braid b).noms ∨ 256 ≤ u ∨ (s.braid b).iftNextUnit.toNat = u

/-- The machine once a slice has run, whatever it found: a nomination ends, else INDEX moves on. -/
def afterSlice (s : State) (b u : Nat) : State :=
  if (s.braid b).noms.contains u then s.modBraid b fun t => { t with noms := t.noms.filter (· != u), shCount := Store.del t.shCount u }
  else s.modBraid b (·.nextSlice)

theorem testSlice_runs (h : SliceRuns s b u) (pass : Bool) : testSlice s b u pass l =
    if pass then afterSlice s b u
    else if 256 ≤ u then blockFails (afterSlice s b u) b (u - 256) (s.braid b).iftIndex l
    else condemn (afterSlice s b u) b u (s.braid b).iftIndex l := by
  obtain ⟨braid, unit, gap, whole, turn⟩ := h
  have runs : ¬ (96 ≤ b || !(unitOk u || (256 ≤ u && u < 352)) || !inGap s b u || (s.braid b).condemned.contains u ||
      !((s.braid b).noms.contains u || 256 ≤ u || (s.braid b).iftNextUnit.toNat == u)) = true := by
    have hunit : (unitOk u || (decide (256 ≤ u) && decide (u < 352))) = true := by simpa using unit
    have hturn : ((s.braid b).noms.contains u || decide (256 ≤ u) || (s.braid b).iftNextUnit.toNat == u) = true := by simpa [or_assoc] using turn
    have hwhole : (s.braid b).condemned.contains u = false := by simpa using whole
    simp only [hunit, hturn, hwhole, gap, Nat.not_le.mpr braid]
    simp
  exact if_neg runs

theorem afterSlice_index (h : u ∉ (s.braid b).noms) : afterSlice s b u = s.modBraid b (·.nextSlice) := if_neg (by simpa using h)

theorem afterSlice_nominated (h : u ∈ (s.braid b).noms) :
    afterSlice s b u = s.modBraid b fun t => { t with noms := t.noms.filter (· != u), shCount := Store.del t.shCount u } := if_pos (by simpa using h)

theorem testSlice_passes (h : SliceRuns s b u) : testSlice s b u true l = afterSlice s b u := testSlice_runs h true

/-- A unit's slice that fails condemns the unit at the INDEX it ran at. -/
theorem testSlice_fails (h : SliceRuns s b u) (hu : unitOk u = true) :
    testSlice s b u false l = condemn (afterSlice s b u) b u (s.braid b).iftIndex l := by
  have small : ¬ 256 ≤ u := by
    simp only [unitOk, Bool.or_eq_true, Bool.and_eq_true, decide_eq_true_eq] at hu
    omega
  exact (testSlice_runs h false).trans (if_neg small)

/-- INDEX moves on within a pass: no pass ends. -/
theorem nextSlice_within {t : Braid} (h : t.iftIndex < 47999) :
    t.nextSlice = { t with iftIndex := t.iftIndex + 1, iftNextUnit := Config.sliceUnit (t.iftIndex + 1) } := by
  have hmod : (t.iftIndex + 1) % 48000 = t.iftIndex + 1 := Nat.mod_eq_of_lt (by omega)
  simp only [Braid.nextSlice, hmod, Nat.add_eq_zero_iff, one_ne_zero, and_false, false_and, ↓reduceIte]

/-- A fabric block's slice needs no gap. -/
theorem inGap_block (i : Nat) : inGap s b (256 + i) = true := by
  have h1 : ¬ (256 + i < 0x30 ∧ unitOk (256 + i) = true) := by omega
  have h2 : ¬ 256 + i < 0x40 := by omega
  simp only [inGap, h1, h2, ↓reduceIte]

end Slice

/-! IFT_GAP_TIMEOUT (R408). -/

section Gap
variable {s : State} {b : Nat}

/-- The running strands in the way of the slice at INDEX. -/
def inTheWay (s : State) (b : Nat) : List Nat :=
  (List.range 4).filter fun k => (s.slotOf b k 0).st == .running && repairHolds k (s.braid b).iftNextUnit.toNat && decide ((s.braid b).iftNextUnit.toNat < 0x40)

theorem gapTimeout_free (hb : b < 96) (h : ∀ k < 4, (s.slotOf b k 0).st ≠ .running) : gapTimeout s b = s.modBraid b (·.nextSlice) := by
  have none_running : inTheWay s b = [] := by
    rw [inTheWay, List.filter_eq_nil_iff]
    intro k hk
    simp [h k (List.mem_range.mp hk)]
  unfold inTheWay at none_running
  simp only [gapTimeout, Nat.not_le.mpr hb, none_running]
  rfl

/-- A strand in the way whose load is held keeps the slice waiting. -/
theorem gapTimeout_waits {k : Nat} (on : Claims.OnDie b k) (hr : (s.slotOf b k 0).st = .running) (hh : repairHolds k (s.braid b).iftNextUnit.toNat = true)
    (hu : (s.braid b).iftNextUnit.toNat < 0x40) (hl : (s.strand b k).awaitsLoad = true) : gapTimeout s b = s := by
  have there : k ∈ inTheWay s b := List.mem_filter.mpr ⟨List.mem_range.mpr on.2, by simp [hr, hh, hu]⟩
  have waits : ((inTheWay s b).any fun k => (s.strand b k).awaitsLoad) = true := List.any_eq_true.mpr ⟨k, there, hl⟩
  exact (if_neg (Nat.not_le.mpr on.1)).trans (if_pos waits)

end Gap

/-! SHADOW_DETECT and REPLICA_WARN (R405, R406, R409). -/

section Detect
variable {s : State} {b u : Nat}

/-- A detection that is not the unit's 64th is counted. -/
theorem detect_counted (hb : b < 96) (hu : unitOk u = true) (hl : (Store.get (s.braid b).shCount u []).length < 63)
    (ht : (s.braid b).shTotal ≠ BitVec.allOnes 32) : detect s b u = s.modBraid b fun t => { t with
      shTotal := t.shTotal + 1, shLast := BitVec.ofNat 8 u, shCount := Store.put t.shCount u (braidClk s b :: Store.get t.shCount u []) } := by
  have all : (braidClk s b :: Store.get (s.braid b).shCount u []).take 64 = braidClk s b :: Store.get (s.braid b).shCount u [] :=
    List.take_of_length_le (by simp only [List.length_cons]; omega)
  have few : ¬ (braidClk s b :: Store.get (s.braid b).shCount u []).length = 64 := by simp only [List.length_cons]; omega
  have there : ¬ (96 ≤ b ∨ (!unitOk u) = true) := by simp [hu, hb]
  simp only [detect, there, ↓reduceIte, all, few, false_and]
  exact modBraid_congr _ _ (by simp only [ht, ↓reduceIte])

/-- Above 1.2 GHz a warning takes 25 MHz off a braid that stands alone. -/
theorem warn_slows (hb : b < 96) (hm : 1225 ≤ (s.braid b).mhz) (hs : (s.braid b).sync = false) :
    warn s b = (s.modBraid b fun t => { t with mhz := t.mhz - 25 }).log 5 b 0 0 ((s.braid b).mhz - 25) := by
  have above : ¬ (s.braid b).mhz ≤ 1200 := by omega
  have floor : max 1200 ((s.braid b).mhz - 25) = (s.braid b).mhz - 25 := Nat.max_eq_right (by omega)
  simp only [warn, Nat.not_le.mpr hb, above, floor, hs]
  rfl

end Detect

/-- The self test and repair steps of O50. -/
theorem reliabilitySteps : Claims.ReliabilityStepsComplete := by
  refine ⟨?splice, ?passes, ?block, ?nominated, ?fails, ?gapFree, ?gapWaits, ?detect, ?warn⟩
  case splice => exact fun n q s h => device_next rfl (spliceAnswer_eq h)
  case passes =>
    intro b u l s hb hu hg hc hn ht hi
    have runs : SliceRuns s b u := ⟨hb, .inl hu, hg, hc, .inr (.inr ht)⟩
    exact device_next (decide_eq_true hb) (((testSlice_passes runs).trans (afterSlice_index hn)).trans (modBraid_congr _ _ (nextSlice_within hi)))
  case block =>
    intro b i l s hb hi hc hn
    have runs : SliceRuns s b (256 + i) := ⟨hb, .inr ⟨by omega, by omega⟩, inGap_block i, hc, .inr (.inl (by omega))⟩
    exact device_next (decide_eq_true hb) ((testSlice_passes runs).trans (afterSlice_index hn))
  case nominated =>
    intro b u l s hb hu hg hc hn
    have runs : SliceRuns s b u := ⟨hb, .inl hu, hg, hc, .inl hn⟩
    exact device_next (decide_eq_true hb) ((testSlice_passes runs).trans (afterSlice_nominated hn))
  case fails =>
    intro b u l s hb hu hg hc hn ht
    have runs : SliceRuns s b u := ⟨hb, .inl hu, hg, hc, .inr (.inr ht)⟩
    exact device_next (decide_eq_true hb) ((testSlice_fails runs hu).trans (by rw [afterSlice_index hn]))
  case gapFree => exact fun b s hb h => device_next (decide_eq_true hb) (gapTimeout_free hb h)
  case gapWaits => exact fun b k s on hr hh hu hl => device_next (decide_eq_true on.1) (gapTimeout_waits on hr hh hu hl)
  case detect => exact fun b u s hb hu hl ht => device_next (decide_eq_true hb) (detect_counted hb hu hl ht)
  case warn => exact fun b s hb hm hs => device_next (decide_eq_true hb) (warn_slows hb hm hs)

/-- Settles O50: transfers and errors by what the home and the device's steps leave, self test and repair by the slice that runs. -/
theorem transfersAndErrorsComplete : Obligations.TransfersAndErrorsComplete := ⟨transfersAndErrors, reliabilitySteps⟩

end Sys2Proof.Machine.MemoryRules
end
